-- ==== Sys2Proof/Word.lean ====
section
/-! DEFINITION. The word types of the part and their plainest arithmetic (00 R2..R4). -/

namespace Sys2Proof

/-- One byte. -/
abbrev Byte := BitVec 8

/-- A 32-bit word: a scalar register, a pointer, a CSR word. -/
abbrev Word := BitVec 32

/-- A vector register: VLEN = 4,096 bits (04 R125). -/
abbrev VWord := BitVec 4096

/-- An accumulator: 512 lanes of 48 bits (04 R125). -/
abbrev AccWord := BitVec 24576

/-- A 64 B line. -/
abbrev Line := BitVec 512

/-- One of the six cores (01 R13). -/
abbrev CoreId := Fin 6

/-- One of a core's eight task contexts (03 R78). -/
abbrev TaskId := Fin 8

/-- A scalar register number s0..s31 (03 R78). -/
abbrev SReg := Fin 32

/-- A pointer number p0..p7 (03 R78). -/
abbrev PReg := Fin 8

/-- A vector register number v0..v31 (04 R125). -/
abbrev VReg := Fin 32

/-- An accumulator number a0..a3 (04 R125). -/
abbrev AReg := Fin 4

/-- A Carter channel of a core (12 R349). -/
abbrev ChanId := Fin 64

/-- A camera binding (10 R292). -/
abbrev CamId := Fin 16

/-- A DRAM channel (13 R368). -/
abbrev DramCh := Fin 8

/-- A Septale port (14 R395). -/
abbrev PortId := Fin 6

end Sys2Proof
end

