-- ==== Sys2Proof/Operand.lean ====
section
/-! DEFINITION. The operands that commands carry: the fields of an operation (05), the wire data of a packet or
a host unit, and the outcomes that only the outside decides (an error in a memory cell, edges waited). -/

namespace Sys2Proof

/-- The format codes of R33; `rsvd` is 0xF. -/
inductive Fmt where
  | u4 | s4 | u8 | s8 | u12 | u16 | s16 | s32 | e4m3 | e5m2 | fp16 | bf16 | fp32 | s48 | c21 | rsvd
deriving DecidableEq, Repr

/-- The rounding modes of R43. -/
inductive RMode where
  | rne | rna | rtz | floor
deriving DecidableEq, Repr

/-- The group field G of R127: 1, 2, 4 or 8 registers. -/
inductive Grp where
  | g1 | g2 | g4 | g8
deriving DecidableEq, Repr

/-- What heads an operation's command: the core whose running task issues it, whether it is the last operation
of its bundle in slot order, and the cc the bundle has spent in D under each row of R75 since it reached D or was last held
there (only its last operation's figures are counted). The figures are timing: the sender states them. -/
structure Hd where
  core : CoreId
  last : Bool
  scb : Nat
  sb : Nat
  vwake : Nat
  wait : Nat
deriving DecidableEq, Repr

/-- The last source of a scalar arithmetic operation: a register or a signed 16-bit immediate (R169). -/
inductive Src where
  | reg (r : SReg)
  | imm (v : BitVec 16)
deriving DecidableEq, Repr

/-- The addressing modes of R80 (encoded by R172). -/
inductive AMode where
  | base
  | off (imm : BitVec 16)
  | postI (imm : BitVec 16)
  | postR (sb : SReg)
deriving DecidableEq, Repr

/-- A memory operand: a pointer and its mode (R80, R141). -/
structure MAddr where
  p : PReg
  mode : AMode
deriving DecidableEq, Repr

/-- The last source of a vector operation: a register group or a scalar (R176, field S). -/
inductive VSrc where
  | vec (v : VReg)
  | scl (s : SReg)
deriving DecidableEq, Repr

/-- Format, group and mask bit of a vector operation (R126, R127, R129). -/
structure VOpt where
  fmt : Fmt
  g : Grp
  m : Bool
deriving DecidableEq, Repr

/-- The shift of a permute (R178): the 13-bit immediate (S = 0) or a scalar (S = 1). -/
inductive VShift where
  | imm (k : BitVec 13)
  | scl (s : SReg)
deriving DecidableEq, Repr

/-- The width selector of the CRC operations (R171, WSEL). -/
inductive CrcW where
  | w8 | w16 | w32
deriving DecidableEq, Repr

/-- The VMVSC selector (R178). -/
inductive VSel where
  | vstart | vfault | shape
deriving DecidableEq, Repr

/-- An error that arises in the memory cells by itself (R193, R370): in the 8 B word `w` of a Granary or the 64 B line `l`
of the DRAM, within the reach of its code, beyond its correction, or past its detection, where the data becomes another. -/
inductive Upset where
  | granCe (c : Fin 6) (w : Nat)
  | granUe (c : Fin 6) (w : Nat)
  | granData (c : Fin 6) (w : Nat) (x : BitVec 64)
  | dramCe (l : Nat)
  | dramUe (l : Nat)
  | dramData (l : Nat) (x : BitVec 512)
deriving DecidableEq, Repr

/-- The clock domains that keep a counter (R5, R20), in the order of the DOM codes of R438. -/
inductive Dom where
  | cc | nc | fc | mc | hc | xc | kc
deriving DecidableEq, Repr

/-- The path of a CSR access (R21, R385, R539). -/
inductive Path where
  | core (n : CoreId)
  | carter (n : CoreId) (ch : ChanId)
  | host
  | mgmt
  | jtag
deriving DecidableEq, Repr

/-- Who sends a lock operation (R385): the running task of a core, a Carter channel, the host, a fabric peer. -/
inductive LockPath where
  | task (n : CoreId)
  | chan (n : CoreId) (ch : ChanId)
  | host
  | peer (addr : BitVec 16)
deriving DecidableEq, Repr

/-- An owner of locks as the lock unit records it (R385). -/
inductive Owner where
  | task (n : CoreId) (t : TaskId)
  | chan (n : CoreId) (ch : ChanId)
  | host
  | peer (addr : BitVec 16)
deriving DecidableEq, Repr

/-- A Tollgate (R380, R409, R437). -/
inductive Gate where
  | dram (c : DramCh)
  | granRd (n : CoreId)
  | granWr (n : CoreId)
  | port (p : PortId)
  | event
deriving DecidableEq, Repr

/-- A Septale packet as it arrives or leaves: the header fields of R400 (VL is rewritten at each hop) and its
data lines. `hchk` tells whether the header check holds. -/
structure Packet where
  dst : BitVec 16
  src : BitVec 16
  ty : BitVec 4
  vl : Bool
  status : BitVec 5
  tag : BitVec 16
  win : BitVec 8
  off : BitVec 40
  data : List Line
  hchk : Bool
deriving DecidableEq, Repr

/-- A CONTROL packet of R413. `src` is the sender's address; `id`, `shape` and `origin` are its data line. -/
structure Ctl where
  src : BitVec 16
  axis : Fin 3
  minus : Bool
  arg : BitVec 16
  id : BitVec 64
  shape : BitVec 16
  origin : BitVec 8
deriving DecidableEq, Repr

/-- Whose access to a DRAM channel fails an attempt (R373): a request in flight, or what the agent at a Tollgate input moves by
itself (R380). -/
inductive DramUser where
  | req (tag : Nat)
  | agent (input : Fin 11)
deriving DecidableEq, Repr

/-- A source pixel format of R294. -/
inductive Mono where
  | mono8 | mono10 | mono12 | mono14
deriving DecidableEq, Repr

/-- The finding that ends an Assay slice (R498). -/
inductive Finding where
  | clean (rows : List (Fin 32 × Fin 32768))
  | logic (part : Fin 5) (unit : Nat) (column : Nat)
deriving DecidableEq, Repr

/-- A block named by an event's SOURCE field (R438). -/
inductive Block where
  | global | core (n : CoreId) | dram | fabric | host | hopper | lock | event | sec | assay | mgmt
deriving DecidableEq, Repr

end Sys2Proof
end

