-- ==== Sys2Proof/Syntax.lean ====
section
/-! DEFINITION. The commands of the part: one constructor per row of spec/opcode_table.json, in its order but for CSTART,
which stands with the other operations of a bundle, with the operands the step needs from outside. A docstring is the row's own
summary and names the rule it follows. `errs` are the errors that arise in the memory cells just before a command (log 8). -/

namespace Sys2Proof

/-- A command of the part (95_what_each_step_holds.md: each a whole and indivisible step). -/
inductive Instr where
  /-- RESET_RELEASE (R445). The rise of RESET_N starts the boot ROM. Counters start and the start-up phases begin. -/
  | resetRelease (rootEn smb1 smb0 : Bool)
  /-- ROM_START (R445). The kc PLL locks and the boot ROM starts at the first kc edge after lock. -/
  | romStart
  /-- FUSE (R445). The boot ROM reads the life-cycle state, keys, digests, repair maps and retirements from fuses. -/
  | fuse
  /-- FLASH (R447). The boot ROM reads LAYOUT and switches the xSPI to octal DDR. Start-up stops if the layout or the flash size is wrong. -/
  | flash (mib : Nat)
  /-- IMAGE (R450). The boot ROM tries the candidate images in order, verifying signature and digest, and runs the first that passes. -/
  | image
  /-- CFG (R454). Firmware judges the configuration copies, applies the chosen one, reads calibration and raises BOOT_RESET. -/
  | cfg
  /-- CLOCKS (R445). Firmware locks the domain PLLs and runs the Granary reset sequence. -/
  | clocks
  /-- GRANARY_INIT (R203). The Granary loads repair maps, sets the activation class, writes every line with code 0 and then sets READY. -/
  | granaryInit (c : CoreId)
  /-- DRAM (R445). Firmware enables the DRAM rails, trains the channels in service, applies hard repairs and retires channels that fail. -/
  | dram (trainFail : BitVec 8)
  /-- LINKS (R445). Firmware brings up the Septale ports, enumeration, Hopper discovery and the host PHY link. -/
  | links
  /-- READY (R452). Start-up reaches READY. CONFIRMED is set, BOOT_READY is raised and copy repair begins. -/
  | ready (kc : BitVec 64)
  /-- BOOT_PHASE_TIMEOUT (R445). A start-up phase exceeds its limit, and start-up ends with ERR TIMEOUT. -/
  | bootPhaseTimeout
  /-- DRAM_PG_TIMEOUT (R520). DRAM_PG is not high within 10 ms of DRAM_VDDQ_EN, and start-up stops in phase DRAM. -/
  | dramPgTimeout
  /-- WATCHDOG_EXPIRY (R452). The management watchdog expires and resets the device, recording a watchdog reset with CONFIRMED. -/
  | watchdogExpiry
  /-- MGMT_RESET_GO (R446). A write of GO requests a device reset, performed within 100 ms or after a running flash command ends. -/
  | mgmtResetGo
  /-- MGMT_CFG_SEL_GO (R455). After a configuration conflict, a GO applies the named copy and continues from phase DRAM. -/
  | mgmtCfgSelGo (copy : BitVec 2)
  /-- CFG_REPAIRED (R458). After READY, firmware rewrites one damaged or differing configuration copy. -/
  | cfgRepaired
  /-- STORE_REQUEST (R459). A write of MGMT_STORE_REQ.GO requests a flash store of configuration, user calibration or an image. -/
  | storeRequest (area : BitVec 4) (lines : BitVec 18) (src : BitVec 34)
  /-- FLASH_COMMAND (R465). Firmware checks hold-up energy and issues one erase or page program, or defers the store. -/
  | flashCommand (senseMv : Nat)
  /-- HOLDUP_RECHECK (R466). Every 10 ms, firmware repeats the hold-up check for a deferred store and resumes it on a pass. -/
  | holdupRecheck (senseMv : Nat)
  /-- STORE_TIMEOUT (R466). A store still deferred 10 s after its request completes with ERR_TIMEOUT. -/
  | storeTimeout
  /-- FLASH_ACCESS (R451). In the halted ROM, a JTAG update of MGMT_FLASH_CMD erases a sector or programs a page from the buffer. -/
  | flashAccess (op : BitVec 2) (addr : BitVec 26) (page : List Byte)
  /-- RESET_N_FALL (R521). The fall of RESET_N resets the device and drives the DRAM rail enables low in order. -/
  | resetNFall
  /-- SUPPLY_FAIL (R523). SUPPLY_FAIL_N low for 1 µs gates the cores and stops the clocks and SerDes, leaving management running. -/
  | supplyFail
  /-- RAIL_UNDERVOLTAGE (R522). VCORE, VSRAM, VIOD or VIO below band for 5 µs holds the device in a power-on reset. -/
  | railUndervoltage (j : Fin 12)
  /-- RAIL_MONITOR_FLAG (R522). A monitor of another rail sets its LOW or HIGH flag. -/
  | railMonitorFlag (j : Fin 12) (high : Bool) (mv : BitVec 13)
  /-- THERMTRIP (R532). A compute-die sensor reaches the trip point, drives THERMTRIP_N low and holds the device in reset. -/
  | thermtrip (j : Fin 20) (temp : BitVec 12)
  /-- POWER_SAMPLE (R530). Every 1 ms the controller computes the draw and the hottest sensor, updates P and Q and writes THR. -/
  | powerSample (temps : List (BitVec 12))
  /-- VCORE_STEP (R518). Adaptive control sends one 5 mV VOUT_COMMAND step to the VCORE regulator. -/
  | vcoreStep (up : Bool)
  /-- REGULATOR_READ (R517). Every 1 ms the controller reads READ_IOUT and READ_VOUT of each regulator. -/
  | regulatorRead (r : Fin 4) (mv ma : Nat)
  /-- SMB_READ_PART_ID (R527). An SMBus Block Read with code 0x01 returns GLOBAL_PART_ID. -/
  | smbReadPartId
  /-- SMB_READ_UNITS (R527). An SMBus Block Read with code 0x02 returns GLOBAL_UNITS. -/
  | smbReadUnits
  /-- SMB_READ_THERM (R527). An SMBus Block Read with code 0x03 returns MGMT_THERM_STAT[15:0]. -/
  | smbReadTherm
  /-- SMB_READ_DRAW (R527). An SMBus Block Read with code 0x04 returns the draw. -/
  | smbReadDraw
  /-- SMB_READ_BOOT_STAT (R527). An SMBus Block Read with code 0x05 returns MGMT_BOOT_STAT[15:0]. -/
  | smbReadBootStat
  /-- SMB_READ_LC_STATE (R527). An SMBus Block Read with code 0x06 returns the life-cycle state. -/
  | smbReadLcState
  /-- SMB_READ_MONITORS (R527). An SMBus Block Read with code 0x07 returns the rail monitor flag bits. -/
  | smbReadMonitors
  /-- SMB_ALERT_RESPONSE (R527). A read of the Alert Response Address releases SMB_ALERT_N. -/
  | smbAlertResponse
  /-- REGISTER_WRITE (R8). A write to a field with no row of its own acts as its type and class give: live, staged or locked. -/
  | registerWrite (p : Path) (off : BitVec 28) (v : Word)
  /-- RC_READ (R21). A read of a field of type RC returns it and clears it. For 64-bit registers the high half is latched. -/
  | rcRead (p : Path) (off : BitVec 28)
  /-- SEQ_CTRL_RUN (R119). A write to RUN starts the sequencer, or stops it at the next recognition point. -/
  | seqCtrlRun (c : CoreId) (run : Bool)
  /-- SEQ_CTRL_CINV (R119). A write of 1 to CINV empties the loop cache at the next recognition point. -/
  | seqCtrlCinv (c : CoreId)
  /-- HALT_REQ (R123). A write of 1 halts task t at its next recognition point or at the next edge, and sends a death notice. -/
  | haltReq (c : CoreId) (t : TaskId)
  /-- RELEASE_TASK (R123). A write of 1 to RELEASE makes a HALTED task FREE. -/
  | releaseTask (c : CoreId) (t : TaskId)
  /-- IRQ_SET (R124). A write to CORE_IRQ_SET sets pending bits of lines 4..15. -/
  | irqSet (c : CoreId) (mask : BitVec 16)
  /-- TIMER_CMP_WRITE (R122). A write to a half of CORE_TIMER_CMP sets the compare value and may set line 4 at once. -/
  | timerCmpWrite (c : CoreId) (high : Bool) (v : Word)
  /-- TIMER_MATCH (R122). GLOBAL_TICK_CC reaches CMP and sets line 4. -/
  | timerMatch (c : CoreId)
  /-- VEC_CTRL_WAKE (R140). A write of WAKE begins a wake of a powered-down vector unit. -/
  | vecCtrlWake (c : CoreId)
  /-- VEC_POWER_DOWN (R139). The vector unit's idle count reaches IDLE × 16 and the unit powers down. -/
  | vecPowerDown (c : CoreId)
  /-- VEC_WAKE_DONE (R140). 180 cc after a wake begins, the vector unit is on and a waiting bundle may enter X. -/
  | vecWakeDone (c : CoreId)
  /-- LINE_FETCH (R538). The sequencer issues a timed 64 B fetch of a bundle line into the prefetch buffer. -/
  | lineFetch (c : CoreId) (addr : Word) (errs : List Upset)
  /-- STORE_BUFFER_DRAIN (R99). The oldest store-buffer entry drains to the Granary in phase B. -/
  | storeBufferDrain (c : CoreId) (errs : List Upset)
  /-- SCALAR_LOAD_RETURN (R111). Scalar load data returns and is written, or an uncorrectable error defers a fault. -/
  | scalarLoadReturn (c : CoreId) (errs : List Upset)
  /-- VECTOR_LOAD_RETURN (R146). Vector load or gather data returns and is written, or an uncorrectable error defers an ECC fault. -/
  | vectorLoadReturn (c : CoreId) (errs : List Upset) (k : Nat)
  /-- INTERRUPT_ENTRY (R107). A recognised line is taken: RSTK push, drain, frame write, SR and DSP update, then the handler fetch. -/
  | interruptEntry (c : CoreId)
  /-- TASK_SWITCH (R95). The sequencer changes the running task at a boundary, and the new bundle enters F 7 cc later. -/
  | taskSwitch (c : CoreId)
  /-- JOB_TAKE (R348). The core takes the held entry of the lowest JOB ring naming a FREE task and starts the job. -/
  | jobTake (c : CoreId)
  /-- ADD (R115). Wrapping add with a signed overflow test. -/
  | add (h : Hd) (sd sa : SReg) (b : Src)
  /-- SUB (R115). Wrapping subtract with a signed overflow test. -/
  | sub (h : Hd) (sd sa : SReg) (b : Src)
  /-- ADDS (R115). Signed saturating add. -/
  | adds (h : Hd) (sd sa : SReg) (b : Src)
  /-- SUBS (R115). Signed saturating subtract. -/
  | subs (h : Hd) (sd sa : SReg) (b : Src)
  /-- ADDUS (R115). Unsigned saturating add. -/
  | addus (h : Hd) (sd sa : SReg) (b : Src)
  /-- SUBUS (R115). Unsigned saturating subtract. -/
  | subus (h : Hd) (sd sa : SReg) (b : Src)
  /-- AND (R115). Bitwise and. -/
  | andd (h : Hd) (sd sa : SReg) (b : Src)
  /-- OR (R115). Bitwise or. -/
  | orr (h : Hd) (sd sa : SReg) (b : Src)
  /-- XOR (R115). Bitwise exclusive or. -/
  | xorr (h : Hd) (sd sa : SReg) (b : Src)
  /-- ANDN (R115). sa and not the last source. -/
  | andn (h : Hd) (sd sa : SReg) (b : Src)
  /-- SLL (R62). Logical left shift by an unsigned count. -/
  | sll (h : Hd) (sd sa : SReg) (b : Src)
  /-- SRL (R62). Logical right shift by an unsigned count. -/
  | srl (h : Hd) (sd sa : SReg) (b : Src)
  /-- SRA (R62). Arithmetic right shift by an unsigned count. -/
  | sra (h : Hd) (sd sa : SReg) (b : Src)
  /-- SSL (R62). Signed-count shift left, wrapping. -/
  | ssl (h : Hd) (sd sa : SReg) (b : Src)
  /-- SSLS (R62). Signed-count shift left, saturating. -/
  | ssls (h : Hd) (sd sa : SReg) (b : Src)
  /-- SSR (R62). Signed-count arithmetic shift right. -/
  | ssr (h : Hd) (sd sa : SReg) (b : Src)
  /-- RSHR (R58). Rounding right shift with the RM mode. -/
  | rshr (h : Hd) (sd sa : SReg) (n : Fin 64) (rm : RMode)
  /-- MIN (R115). Signed minimum. -/
  | minn (h : Hd) (sd sa : SReg) (b : Src)
  /-- MAX (R115). Signed maximum. -/
  | maxx (h : Hd) (sd sa : SReg) (b : Src)
  /-- MINU (R115). Unsigned minimum. -/
  | minu (h : Hd) (sd sa : SReg) (b : Src)
  /-- MAXU (R115). Unsigned maximum. -/
  | maxu (h : Hd) (sd sa : SReg) (b : Src)
  /-- ABS (R60). Wrapping absolute value. -/
  | absv (h : Hd) (sd sa : SReg)
  /-- ABSS (R60). Saturating absolute value. -/
  | abss (h : Hd) (sd sa : SReg)
  /-- NEG (R60). Wrapping negate. -/
  | negv (h : Hd) (sd sa : SReg)
  /-- NEGS (R60). Saturating negate. -/
  | negs (h : Hd) (sd sa : SReg)
  /-- SLT (R115). Signed less-than, giving 1 or 0. -/
  | slt (h : Hd) (sd sa : SReg) (b : Src)
  /-- SLTU (R115). Unsigned less-than, giving 1 or 0. -/
  | sltu (h : Hd) (sd sa : SReg) (b : Src)
  /-- SEQ (R115). Equality test, giving 1 or 0. -/
  | seqq (h : Hd) (sd sa : SReg) (b : Src)
  /-- SEL (R115). Selects sa or sb by sc. -/
  | sel (h : Hd) (sd sa sb sc : SReg)
  /-- MOV (R170). Copies between banked registers, including pointers, loop registers, DSP and SR. -/
  | mov (h : Hd) (d s : BitVec 7)
  /-- MOVI (R171). Loads a sign-extended 16-bit immediate. -/
  | movi (h : Hd) (sd : SReg) (imm : BitVec 16)
  /-- MOVHI (R171). Writes bits [31:16] and keeps the low half. -/
  | movhi (h : Hd) (sd : SReg) (imm : BitVec 16)
  /-- PADD (R81). Adds to a pointer with circular wrap. -/
  | padd (h : Hd) (p : PReg) (b : Src)
  /-- MUL (R115). Low 32 bits of a signed product. -/
  | mul (h : Hd) (sd sa : SReg) (b : Src)
  /-- MULS (R115). Saturating multiply. -/
  | muls (h : Hd) (sd sa : SReg) (b : Src)
  /-- MULH (R115). High 32 bits of a signed product. -/
  | mulh (h : Hd) (sd sa : SReg) (b : Src)
  /-- MULHU (R115). High 32 bits of an unsigned product. -/
  | mulhu (h : Hd) (sd sa : SReg) (b : Src)
  /-- DIV (R60). Signed division, 36 cc, with the edge results of R60. -/
  | div (h : Hd) (sd sa : SReg) (b : Src)
  /-- DIVS (R60). Signed saturating division. -/
  | divs (h : Hd) (sd sa : SReg) (b : Src)
  /-- DIVU (R60). Unsigned division. -/
  | divu (h : Hd) (sd sa : SReg) (b : Src)
  /-- REM (R61). Signed remainder. -/
  | rem (h : Hd) (sd sa : SReg) (b : Src)
  /-- REMU (R61). Unsigned remainder. -/
  | remu (h : Hd) (sd sa : SReg) (b : Src)
  /-- ISQRT (R115). Floor of the square root, 20 cc. -/
  | isqrt (h : Hd) (sd sa : SReg)
  /-- CLZ (R117). Counts leading zero bits. -/
  | clz (h : Hd) (sd sa : SReg)
  /-- CLS (R117). Counts leading sign bits. -/
  | cls (h : Hd) (sd sa : SReg)
  /-- POPC (R117). Counts set bits. -/
  | popc (h : Hd) (sd sa : SReg)
  /-- PAR (R117). Gives the parity of the set bits. -/
  | par (h : Hd) (sd sa : SReg)
  /-- BREV (R117). Reverses the bits of a field. -/
  | brev (h : Hd) (sd sa : SReg) (lsb : Fin 32) (w : Nat)
  /-- CRCB (R116). CRC over one byte. -/
  | crcb (h : Hd) (sd sa sb : SReg) (w : CrcW) (ref : Bool)
  /-- CRCW (R116). CRC over four bytes. -/
  | crcw (h : Hd) (sd sa sb : SReg) (w : CrcW) (ref : Bool)
  /-- CRCV (R116). CRC over 512 B of a vector register, 16 cc. -/
  | crcv (h : Hd) (sd : SReg) (vn : VReg) (sb : SReg) (w : CrcW) (ref : Bool)
  /-- MINI (R118). Running signed minimum with its index. -/
  | mini (h : Hd) (sd sa sb : SReg)
  /-- MAXI (R118). Running signed maximum with its index. -/
  | maxi (h : Hd) (sd sa sb : SReg)
  /-- MINIU (R118). Running unsigned minimum with its index. -/
  | miniu (h : Hd) (sd sa sb : SReg)
  /-- MAXIU (R118). Running unsigned maximum with its index. -/
  | maxiu (h : Hd) (sd sa sb : SReg)
  /-- LDB (R100). Sign-extended byte load, forwarded or from the Granary. -/
  | ldb (h : Hd) (sr : SReg) (a : MAddr)
  /-- LDBU (R100). Zero-extended byte load. -/
  | ldbu (h : Hd) (sr : SReg) (a : MAddr)
  /-- LDH (R100). Sign-extended halfword load. -/
  | ldh (h : Hd) (sr : SReg) (a : MAddr)
  /-- LDHU (R100). Zero-extended halfword load. -/
  | ldhu (h : Hd) (sr : SReg) (a : MAddr)
  /-- LDW (R100). Word load. -/
  | ldw (h : Hd) (sr : SReg) (a : MAddr)
  /-- LDD (R90). 8 B load into an even-odd pair. -/
  | ldd (h : Hd) (sr : SReg) (a : MAddr)
  /-- STB (R99). Byte store through the store buffer. -/
  | stb (h : Hd) (sr : SReg) (a : MAddr)
  /-- STH (R99). Halfword store. -/
  | sth (h : Hd) (sr : SReg) (a : MAddr)
  /-- STW (R99). Word store. -/
  | stw (h : Hd) (sr : SReg) (a : MAddr)
  /-- STD (R99). 8 B store from an even-odd pair. -/
  | std (h : Hd) (sr : SReg) (a : MAddr)
  /-- PUSH (R90). Lowers DSP by 4 and stores, with the stack-limit check. -/
  | push (h : Hd) (sr : SReg)
  /-- POP (R90). Loads at DSP and raises it by 4. -/
  | pop (h : Hd) (sr : SReg)
  /-- PUSHD (R90). Pushes 8 B from a register pair. -/
  | pushd (h : Hd) (sr : SReg)
  /-- POPD (R90). Pops 8 B into a register pair. -/
  | popd (h : Hd) (sr : SReg)
  /-- BEQ (R173). Branch if equal. -/
  | beq (h : Hd) (sa sb : SReg) (lx : BitVec 3) (off : BitVec 18)
  /-- BNE (R173). Branch if not equal. -/
  | bne (h : Hd) (sa sb : SReg) (lx : BitVec 3) (off : BitVec 18)
  /-- BLT (R173). Branch if signed less. -/
  | blt (h : Hd) (sa sb : SReg) (lx : BitVec 3) (off : BitVec 18)
  /-- BGE (R173). Branch if signed greater or equal. -/
  | bge (h : Hd) (sa sb : SReg) (lx : BitVec 3) (off : BitVec 18)
  /-- BLTU (R173). Branch if unsigned less. -/
  | bltu (h : Hd) (sa sb : SReg) (lx : BitVec 3) (off : BitVec 18)
  /-- BGEU (R173). Branch if unsigned greater or equal. -/
  | bgeu (h : Hd) (sa sb : SReg) (lx : BitVec 3) (off : BitVec 18)
  /-- JMP (R173). Jump to a bundle index. -/
  | jmp (h : Hd) (lx : BitVec 3) (tgt : BitVec 21)
  /-- JMPR (R173). Jump to a register address, with an alignment check. -/
  | jmpr (h : Hd) (sa : SReg) (lx : BitVec 3)
  /-- CALL (R91). Pushes an RSTK entry of KIND 0 and jumps. -/
  | call (h : Hd) (tgt : BitVec 21)
  /-- CALLR (R91). Register call. -/
  | callr (h : Hd) (sa : SReg)
  /-- RET (R91). Pops an entry of KIND 0 and returns. -/
  | ret (h : Hd)
  /-- RETI (R109). Checks and restores the interrupt frame and the RSTK entry, possibly resuming another task. -/
  | reti (h : Hd) (errs : List Upset)
  /-- LOOP (R83). Creates a loop level with a register count. -/
  | loop (h : Hd) (sa : SReg) (n : BitVec 12)
  /-- LOOPI (R83). Creates a loop level with an immediate count. -/
  | loopi (h : Hd) (count : BitVec 16) (n : BitVec 12)
  /-- LEXIT (R87). Retires the k innermost loop levels. -/
  | lexit (h : Hd) (k : BitVec 3)
  /-- FENCE (R101). Waits until the store buffer is empty and earlier vector stores have issued. -/
  | fence (h : Hd)
  /-- CINV (R89). Empties the loop cache. -/
  | cinv (h : Hd)
  /-- EI (R115). Sets IE. -/
  | ei (h : Hd)
  /-- DI (R115). Clears IE. -/
  | di (h : Hd)
  /-- YIELD (R95). The task becomes READY, and the sequencer may switch. -/
  | yield (h : Hd)
  /-- TEND (R95). Ends the job: the task becomes FREE, the completion is written OK and a death notice is sent. -/
  | tend (h : Hd)
  /-- WFI (R98). Waits until an enabled line is pending. -/
  | wfi (h : Hd)
  /-- LWAIT (R222). Waits until the Loom jobs or tiles with a tag are signalled. -/
  | lwait (h : Hd) (job : Bool) (id : BitVec 16)
  /-- CWAIT (R351). Waits until a Carter channel has nothing queued or unsignalled. -/
  | cwait (h : Hd) (ch : ChanId)
  /-- RWAIT (R318). Waits until a row-counter copy exceeds s[a], or the ring's end is reached. -/
  | rwait (h : Hd) (sa : SReg) (ctr : BitVec 8) (away : Nat)
  /-- PIPE_WAIT_LONG (R320). An RWAIT reaches WAIT_LIMIT × 256 cc and raises an event once. -/
  | pipeWaitLong (c : CoreId) (t : TaskId)
  /-- CSRR (R175). Reads the core's own CSR at the end of X, clearing RC fields by R21. -/
  | csrr (h : Hd) (sd : SReg) (off : BitVec 20)
  /-- CSRW (R115). Writes the core's own CSR, acting at W or at the next nc edge. -/
  | csrw (h : Hd) (sa : SReg) (off : BitVec 20)
  /-- VLD (R142). Contiguous vector load in beats, with unpacking. -/
  | vld (h : Hd) (vd : VReg) (a : MAddr) (o : VOpt)
  /-- VST (R142). Contiguous vector store in beats, with packing through sat. -/
  | vst (h : Hd) (vs : VReg) (a : MAddr) (o : VOpt)
  /-- VGATHER (R144). Gathers elements from VSTART, with checks, restartable VELEM faults and bank-limited issue. -/
  | vgather (h : Hd) (vd : VReg) (p : PReg) (vi : VReg) (o : VOpt)
  /-- VSCATTER (R144). Scatters elements from VSTART, restartable. -/
  | vscatter (h : Hd) (vs : VReg) (p : PReg) (vi : VReg) (o : VOpt)
  /-- VALD (R142). Loads an accumulator from 3,072 B. -/
  | vald (h : Hd) (ak : AReg) (a : MAddr)
  /-- VAST (R142). Stores an accumulator to 3,072 B. -/
  | vast (h : Hd) (ak : AReg) (a : MAddr)
  /-- VADD (R147). Wrapping vector add. -/
  | vadd (h : Hd) (o : VOpt) (vd va : VReg) (b : VSrc)
  /-- VSUB (R147). Wrapping vector subtract. -/
  | vsub (h : Hd) (o : VOpt) (vd va : VReg) (b : VSrc)
  /-- VADDS (R147). Saturating vector add. -/
  | vadds (h : Hd) (o : VOpt) (vd va : VReg) (b : VSrc)
  /-- VSUBS (R147). Saturating vector subtract. -/
  | vsubs (h : Hd) (o : VOpt) (vd va : VReg) (b : VSrc)
  /-- VAND (R147). Bitwise vector and. -/
  | vand (h : Hd) (o : VOpt) (vd va : VReg) (b : VSrc)
  /-- VOR (R147). Bitwise vector or. -/
  | vor (h : Hd) (o : VOpt) (vd va : VReg) (b : VSrc)
  /-- VXOR (R147). Bitwise vector exclusive or. -/
  | vxor (h : Hd) (o : VOpt) (vd va : VReg) (b : VSrc)
  /-- VANDN (R147). a and not b. -/
  | vandn (h : Hd) (o : VOpt) (vd va : VReg) (b : VSrc)
  /-- VNOT (R147). Bitwise vector not. -/
  | vnot (h : Hd) (o : VOpt) (vd va : VReg)
  /-- VSLL (R62). Vector logical left shift. -/
  | vsll (h : Hd) (o : VOpt) (vd va : VReg) (b : VSrc)
  /-- VSRL (R62). Vector logical right shift. -/
  | vsrl (h : Hd) (o : VOpt) (vd va : VReg) (b : VSrc)
  /-- VSRA (R62). Vector arithmetic right shift. -/
  | vsra (h : Hd) (o : VOpt) (vd va : VReg) (b : VSrc)
  /-- VSSL (R62). Signed-count vector shift left, wrapping. -/
  | vssl (h : Hd) (o : VOpt) (vd va : VReg) (b : VSrc)
  /-- VSSLS (R62). Signed-count vector shift left, saturating. -/
  | vssls (h : Hd) (o : VOpt) (vd va : VReg) (b : VSrc)
  /-- VSSR (R62). Signed-count vector shift right. -/
  | vssr (h : Hd) (o : VOpt) (vd va : VReg) (b : VSrc)
  /-- VRSHR (R147). Vector rounding right shift. -/
  | vrshr (h : Hd) (o : VOpt) (vd va : VReg) (n : Fin 64) (rm : RMode)
  /-- VMIN (R147). Vector minimum. -/
  | vmin (h : Hd) (o : VOpt) (vd va : VReg) (b : VSrc)
  /-- VMAX (R147). Vector maximum. -/
  | vmax (h : Hd) (o : VOpt) (vd va : VReg) (b : VSrc)
  /-- VABS (R147). Vector absolute value, wrapping. -/
  | vabs (h : Hd) (o : VOpt) (vd va : VReg)
  /-- VABSS (R147). Vector absolute value, saturating. -/
  | vabss (h : Hd) (o : VOpt) (vd va : VReg)
  /-- VABSD (R147). Saturated absolute difference. -/
  | vabsd (h : Hd) (o : VOpt) (vd va : VReg) (b : VSrc)
  /-- VAVG (R147). Rounded average. -/
  | vavg (h : Hd) (o : VOpt) (vd va : VReg) (b : VSrc) (rm : RMode)
  /-- VCMPEQ (R147). Compare equal into a mask. -/
  | vcmpeq (h : Hd) (o : VOpt) (vd va : VReg) (b : VSrc)
  /-- VCMPNE (R147). Compare not equal into a mask. -/
  | vcmpne (h : Hd) (o : VOpt) (vd va : VReg) (b : VSrc)
  /-- VCMPLT (R147). Compare less into a mask. -/
  | vcmplt (h : Hd) (o : VOpt) (vd va : VReg) (b : VSrc)
  /-- VCMPLE (R147). Compare less or equal into a mask. -/
  | vcmple (h : Hd) (o : VOpt) (vd va : VReg) (b : VSrc)
  /-- VSEL (R147). Selects elements by a mask. -/
  | vsel (h : Hd) (o : VOpt) (vd va : VReg) (b : VSrc) (vm : VReg)
  /-- VSPAN (R147). Mask of elements below a count. -/
  | vspan (h : Hd) (o : VOpt) (vd : VReg) (sa : SReg)
  /-- VMUL (R147). Low bits of a vector product. -/
  | vmul (h : Hd) (o : VOpt) (vd va : VReg) (b : VSrc)
  /-- VMULS (R147). Saturating vector multiply. -/
  | vmuls (h : Hd) (o : VOpt) (vd va : VReg) (b : VSrc)
  /-- VQMUL (R147). Rounded fixed-point multiply. -/
  | vqmul (h : Hd) (o : VOpt) (vd va : VReg) (b : VSrc) (rm : RMode)
  /-- VADDW (R147). Widening add. -/
  | vaddw (h : Hd) (o : VOpt) (vd va : VReg) (b : VSrc)
  /-- VSUBW (R147). Widening subtract. -/
  | vsubw (h : Hd) (o : VOpt) (vd va : VReg) (b : VSrc)
  /-- VMULW (R147). Widening multiply. -/
  | vmulw (h : Hd) (o : VOpt) (vd va : VReg) (b : VSrc)
  /-- VNRSHR (R147). Narrowing rounding shift. -/
  | vnrshr (h : Hd) (o : VOpt) (vd va : VReg) (n : Fin 64) (rm : RMode)
  /-- VCVT (R128). Format conversion, widening or narrowing. -/
  | vcvt (h : Hd) (o : VOpt) (vd va : VReg) (srcFmt : Fmt) (zp : Option SReg)
  /-- VMAC (R148). Multiply-accumulate into an accumulator. -/
  | vmac (h : Hd) (o : VOpt) (ak : AReg) (va vb : VReg) (fmtB : Fmt)
  /-- VMACS (R147). Multiply-accumulate with a scalar. -/
  | vmacs (h : Hd) (o : VOpt) (ak : AReg) (va : VReg) (sb : SReg) (fmtB : Fmt)
  /-- VACLR (R147). Clears an accumulator. -/
  | vaclr (h : Hd) (ak : AReg)
  /-- VARSHR (R147). Accumulator rounding shift to a vector. -/
  | varshr (h : Hd) (o : VOpt) (vd : VReg) (ak : AReg) (n : Fin 64) (rm : RMode)
  /-- VRESCALE (R147). Rescales an accumulator to codes. -/
  | vrescale (h : Hd) (o : VOpt) (vd : VReg) (ak : AReg) (sm sn : SReg)
  /-- VFADD (R149). Floating-point add. -/
  | vfadd (h : Hd) (o : VOpt) (vd va : VReg) (b : VSrc)
  /-- VFSUB (R149). Floating-point subtract. -/
  | vfsub (h : Hd) (o : VOpt) (vd va : VReg) (b : VSrc)
  /-- VFMUL (R149). Floating-point multiply. -/
  | vfmul (h : Hd) (o : VOpt) (vd va : VReg) (b : VSrc)
  /-- VFMA (R149). Fused multiply-add. -/
  | vfma (h : Hd) (o : VOpt) (vd va : VReg) (b : VSrc) (vc : VReg)
  /-- VFMIN (R149). Floating-point minimum. -/
  | vfmin (h : Hd) (o : VOpt) (vd va : VReg) (b : VSrc)
  /-- VFMAX (R149). Floating-point maximum. -/
  | vfmax (h : Hd) (o : VOpt) (vd va : VReg) (b : VSrc)
  /-- VLERP (R155). Linear interpolation. -/
  | vlerp (h : Hd) (o : VOpt) (vd va : VReg) (b : VSrc) (sf : SReg) (rm : RMode)
  /-- VCUBIC (R156). Cubic interpolation over four rows. -/
  | vcubic (h : Hd) (o : VOpt) (vd vs : VReg) (sf : SReg) (rm : RMode)
  /-- VCLASS (R157). Two-threshold classification. -/
  | vclass (h : Hd) (o : VOpt) (vd vs : VReg) (sa sb : SReg)
  /-- VLANEUP (R150). Shifts elements up. -/
  | vlaneup (h : Hd) (o : VOpt) (vd vs : VReg) (k : VShift)
  /-- VLANEDN (R150). Shifts elements down. -/
  | vlanedn (h : Hd) (o : VOpt) (vd vs : VReg) (k : VShift)
  /-- VJOIN (R150). Joins two groups with a shift. -/
  | vjoin (h : Hd) (o : VOpt) (vd va : VReg) (k : VShift)
  /-- VPERM (R150). Permutes elements by indices. -/
  | vperm (h : Hd) (o : VOpt) (vd vs vi : VReg)
  /-- VWEAVE (R150). Interleaves two groups. -/
  | vweave (h : Hd) (o : VOpt) (vd va vb : VReg)
  /-- VSPLIT (R150). De-interleaves a group. -/
  | vsplit (h : Hd) (o : VOpt) (vd va : VReg)
  /-- VBCAST (R150). Broadcasts a scalar. -/
  | vbcast (h : Hd) (o : VOpt) (vd : VReg) (sa : SReg)
  /-- VMVVS (R150). Moves a vector element to a scalar. -/
  | vmvvs (h : Hd) (o : VOpt) (sd : SReg) (vs : VReg) (sb : SReg)
  /-- VMVSV (R150). Moves a scalar to a vector element. -/
  | vmvsv (h : Hd) (o : VOpt) (vd : VReg) (sa sb : SReg)
  /-- VPACK (R150). Packs the active elements. -/
  | vpack (h : Hd) (o : VOpt) (vd vs vm : VReg)
  /-- VHAD (R151). Hadamard rotation of blocks. -/
  | vhad (h : Hd) (o : VOpt) (vd vs : VReg) (block : BitVec 2) (n : BitVec 3) (rm : RMode) (sc : Option SReg)
  /-- VGROW (R158). Hysteresis growth step. -/
  | vgrow (h : Hd) (o : VOpt) (vd vs vn : VReg)
  /-- VMVSC (R131). Reads VSTART, VFAULT or the shape word. -/
  | vmvsc (h : Hd) (sd : SReg) (sel : VSel)
  /-- VMVCS (R131). Writes VSTART or VFAULT. -/
  | vmvcs (h : Hd) (fault : Bool) (sa : SReg)
  /-- VRSUM (R152). Sums the active elements to a scalar. -/
  | vrsum (h : Hd) (o : VOpt) (sd : SReg) (vs : VReg)
  /-- VRMAXI (R153). Running maximum with its index. -/
  | vrmaxi (h : Hd) (o : VOpt) (sd : SReg) (vs : VReg) (sb : SReg)
  /-- VRMINI (R153). Running minimum with its index. -/
  | vrmini (h : Hd) (o : VOpt) (sd : SReg) (vs : VReg) (sb : SReg)
  /-- VARSUM (R152). Exact sum of the accumulator lanes. -/
  | varsum (h : Hd) (o : VOpt) (sd : SReg) (ak : AReg)
  /-- VMCOUNT (R152). Counts the mask bits. -/
  | vmcount (h : Hd) (o : VOpt) (sd : SReg) (vm : VReg)
  /-- VMFIND (R152). Finds the first set mask bit. -/
  | vmfind (h : Hd) (o : VOpt) (sd : SReg) (vm : VReg)
  /-- VSCAN (R152). Saturated prefix sum. -/
  | vscan (h : Hd) (o : VOpt) (vd vs : VReg)
  /-- VCRC16 (R154). Per-line CRC-16 of a vector register. -/
  | vcrc16 (h : Hd) (vd vs : VReg) (sb : SReg) (ref : Bool)
  /-- LJOB (R219). Enqueues a Loom job descriptor. -/
  | ljob (h : Hd) (p : PReg) (imm : BitVec 16)
  /-- LTILE (R219). Enqueues a Loom tile. -/
  | ltile (h : Hd) (p : PReg) (imm : BitVec 16)
  /-- CSTART (R349). Queues a descriptor address on a Carter channel. -/
  | cstart (h : Hd) (ch : ChanId) (p : PReg) (imm : BitVec 16)
  /-- LOOM_SETUP (R221). The Loom reads the descriptor, activation descriptor and QSF, latches the window and checks the fields. -/
  | loomSetup (c : CoreId)
  /-- WEIGHT_LOAD (R212). A tile's weights load and expand into the back plane. -/
  | weightLoad (c : CoreId) (wait : Nat)
  /-- PLANE_SWAP (R225). The planes swap once the load is done and the previous tile has streamed. -/
  | planeSwap (c : CoreId) (stallLoad stallAcc : Nat)
  /-- TILE_STREAM (R218). The bands issue positions, with skipping, until the last position has entered. -/
  | tileStream (c : CoreId) (streamCc feed thr wait : Nat)
  /-- LOOM_DRAIN (R224). The last accumulator addition of a tile or job is completed. -/
  | loomDrain (c : CoreId)
  /-- OUTPUT_STAGE (R227). Accumulator rows are read, converted and written, with row scales. -/
  | outputStage (c : CoreId) (wait hold : Nat)
  /-- LOOM_JOB_COMPLETE (R222). The completion bytes are written and then signalled, releasing LWAIT and possibly setting line 6. -/
  | loomJobComplete (c : CoreId)
  /-- LOOM_ECC_UNCORR (R230). A poisoned read ends the job with ERR_ECC_UNCORR. -/
  | loomEccUncorr (c : CoreId)
  /-- LOOM_ABORT (R231). A write of ABORT ends every running and queued job with ERR_DISABLED. -/
  | loomAbort (c : CoreId)
  /-- AGEN_ZC_OVER (R284). A ZC group index overflow ends the job with ERR_BOUND. -/
  | agenZcOver (c : CoreId) (row : Nat)
  /-- TALLY_STEP_CLOSE (R244). A step becomes full and closes at the signalled completion of its last job. -/
  | tallyStepClose (c : CoreId) (slot : BitVec 8)
  /-- TALLY_CLOSE (R246). A write of GO closes the step of one slot, at once or at the last latched completion. -/
  | tallyClose (c : CoreId) (slot : BitVec 8)
  /-- TALLY_PROPOSAL (R245). At c + 12 the record, proposal, flags, line 8 and QSF copy are written. -/
  | tallyProposal (c : CoreId) (slot : BitVec 8)
  /-- UNTIMED_GRANT (R187). A bank phase free of timed accesses is granted to the highest-ranked untimed request. -/
  | untimedGrant (c : CoreId) (bank : Fin 32) (write : Bool) (others : BitVec 8) (lost : Nat)
  /-- SCRUB_LINE (R197). Every INTERVAL cc the scrubber checks one line and writes it back or poisons it. -/
  | scrubLine (c : CoreId) (errs : List Upset) (free : Bool)
  /-- ROW_REPAIR (R201). A row is moved to a spare in one cc, and the map changes. -/
  | rowRepair (c : CoreId) (bank : Fin 32) (row : Fin 32768)
  /-- GRAN_REPAIR_REQ (R200). A write with GO requests the repair of a row. -/
  | granRepairReq (c : CoreId) (bank : Fin 32) (row : Fin 32768)
  /-- REGION_FILL (R196). A class change of a region fills it with code 0 and new check bits. -/
  | regionFill (c : CoreId)
  /-- STREAM_PACKET (R298). A CoaXPress stream packet arrives and its pixels are stored, with a CRC check. -/
  | streamPacket (cam : CamId) (pixels : List (BitVec 16)) (crcOk : Bool)
  /-- IMAGE_HEADER (R307). A camera image header is decoded: the swath count advances, the plan activates and the previous swath ends. -/
  | imageHeader (cam : CamId) (xsize ysize : Nat) (src : Mono)
  /-- LINE_MARKER (R296). A line begins and is admitted to the pool or dropped. -/
  | lineMarker (cam : CamId) (edges : Nat)
  /-- PIECE_WRITE (R301). A free ring row receives a stripe piece and then its header. -/
  | pieceWrite (c : CoreId) (ring : Fin 16)
  /-- HEADER_WRITE_DONE (R301). The header write completes and FILL advances. -/
  | headerWriteDone (c : CoreId) (ring : Fin 16)
  /-- DRAM_COPY_WRITE (R311). The whole line is written to the DRAM ring. -/
  | dramCopyWrite (cam : CamId)
  /-- LINE_FREE (R296). The last write completion of a line crosses into xc and its blocks return. -/
  | lineFree (cam : CamId)
  /-- SWATH_TURNOVER (R315). REL equals END_ROWS, so the ring counters reset and the staged piece activates. -/
  | swathTurnover (c : CoreId) (ring : Fin 16) (held : Nat)
  /-- PIPE_RING_REL (R313). A write releases rows when REL ≤ v ≤ FILL. -/
  | pipeRingRel (c : CoreId) (ring : Fin 16) (v : Word)
  /-- PIPE_PUB (R317). A write publishes a row counter, covering the earlier Granary writes. -/
  | pipePub (c : CoreId) (j : Fin 16) (v : Word)
  /-- COUNTER_MESSAGE (R316). A counter change reaches a core's copy. -/
  | counterMessage (dest owner : CoreId) (kind : Bool) (j : Fin 16)
  /-- HOP_TRIG (R303). A write with GO queues a trigger packet or drops it. -/
  | hopTrig (cam : CamId) (falling : Bool)
  /-- TRIGGER_SEND (R303). A queued trigger packet is sent at an upconnection opportunity. -/
  | triggerSend (cam : CamId)
  /-- CONTROL_ACK (R291). A camera acknowledges a control command, which completes; the next queued command is sent. -/
  | controlAck (cam : CamId) (data : List Byte)
  /-- CONTROL_TIMEOUT (R291). A control command has no acknowledge within 4,096 xc and completes with ERR_TIMEOUT. -/
  | controlTimeout (cam : CamId)
  /-- DEVICE_EVENT_PACKET (R290). A camera event packet is acknowledged and sent as CAM_EVENT. -/
  | deviceEventPacket (cam : CamId) (data : List Byte)
  /-- DISCOVERY (R291). Firmware runs CoaXPress discovery and the receiver check on a binding. -/
  | discovery (cam : CamId) (up : BitVec 16) (master : CamId) (found : Bool)
  /-- HOP_LINK_DOWN (R304). A connection loses alignment and its camera's lines are dropped with cause LINK. -/
  | hopLinkDown (conn : CamId)
  /-- CONNECTION_SPARING (R305). Firmware resets, retires and rediscovers on healthy connections. -/
  | connectionSparing (conn : CamId) (resetOk : Bool)
  /-- SIEVE_SUBMIT (R333). A write queues a Sieve call, or it is refused when the queue is full. -/
  | sieveSubmit (c : CoreId) (desc : Word)
  /-- SIEVE_CALL (R340). The Sieve runs setup, scoring, sort, decode, suppression and records. -/
  | sieveCall (c : CoreId)
  /-- SIEVE_COMPLETE (R339). The completion is written, then DONE_CTR and SIEVE_DONE rise. -/
  | sieveComplete (c : CoreId)
  /-- SIEVE_ABORT (R339). A write of ABORT ends every call with ERR_DISABLED. -/
  | sieveAbort (c : CoreId)
  /-- RING_TAIL_WRITE (R345). A write of TAIL is accepted or sets RING_ERR. It may set the doorbell line. -/
  | ringTailWrite (ring : BitVec 14) (v : Word)
  /-- RING_HEAD_WRITE (R346). A HEAD write to a DATA ring sets HEAD and DONE. -/
  | ringHeadWrite (c : CoreId) (k : Fin 1024) (v : Word)
  /-- DESC_RING_TAKE (R349). A ring-mode channel takes the entry at HEAD. -/
  | descRingTake (c : CoreId) (ch : ChanId)
  /-- CARTER_SETUP (R358). The descriptor and list are read and checked in order. -/
  | carterSetup (c : CoreId) (ch : ChanId)
  /-- CARTER_READ_BEAT (R360). One 64 B read beat per nc goes to the highest-priority ready channel. -/
  | carterReadBeat (c : CoreId)
  /-- CARTER_WRITE_BEAT (R360). One 64 B write beat per nc. -/
  | carterWriteBeat (c : CoreId)
  /-- PACE_TEST (R361). The channel tests its paced ring level before a chunk and moves between RUN and HOLD. -/
  | paceTest (c : CoreId) (ch : ChanId)
  /-- READ_RESPONSE (R364). Read data returns to a Carter buffer, or a segment fails. -/
  | readResponse (c : CoreId) (tag : Nat)
  /-- WRITE_RESPONSE (R362). A write response arrives. PUT advances the target TAIL, and late errors are counted. -/
  | writeResponse (c : CoreId) (tag : Nat)
  /-- CARTER_TIMEOUT (R364). A request has no response after TIMEOUT × 1,024 nc and its segment fails. -/
  | carterTimeout (c : CoreId) (tag : Nat)
  /-- DESCRIPTOR_COMPLETE (R363). The completion bytes are written and then signalled, with CWAIT, line 7 and PUB. -/
  | descriptorComplete (c : CoreId) (ch : ChanId)
  /-- CHANNEL_DISABLE (R366). DIS set to 1 stops the channel and completes its descriptors with ERR_DISABLED. -/
  | channelDisable (c : CoreId) (ch : ChanId)
  /-- TOLLGATE_DECISION (R383). At a decision edge a Tollgate grants its output by slot, age or priority. -/
  | tollgateDecision (g : Gate) (others : BitVec 16)
  /-- DRAM_READ_DONE (R370). DRAM read data returns: clean, corrected or poisoned. -/
  | dramReadDone (ch : DramCh) (tag : Nat) (errs : List Upset)
  /-- DRAM_WRITE_ACCEPT (R379). The write queue holds a write, and its response is sent. -/
  | dramWriteAccept (ch : DramCh) (tag : Nat)
  /-- DRAM_WRITE_RETRY (R373). A CRC or parity failure is retried, or the request fails after 4 attempts. -/
  | dramWriteRetry (ch : DramCh) (who : DramUser) (parity : Bool)
  /-- DRAM_SCRUB_LINE (R371). Every INTERVAL mc the controller scrubs one line. -/
  | dramScrubLine (ch : DramCh) (errs : List Upset)
  /-- DRAM_TEMP_SAMPLE (R372). Every 1 ms a stack temperature sample sets the refresh rate and throttling. -/
  | dramTempSample (ch : DramCh) (temp : BitVec 8)
  /-- SOFT_PPR (R374). A row reaching CE_PPR corrected errors is soft-repaired. -/
  | softPpr (ch : DramCh) (row : Nat)
  /-- DRAM_RETIRE (R375). A write with GO requests retirement of a channel. -/
  | dramRetire (ch : DramCh)
  /-- CHANNEL_RETIRE (R375). Firmware starts a channel retirement and raises DRAM_CH_RETIRED. -/
  | channelRetire
  /-- GRANULE_MOVE (R377). One granule of the retired channel moves to its spare place. -/
  | granuleMove (readable : Bool)
  /-- DRAM_SPARE_DONE (R377). The move finishes. -/
  | dramSpareDone
  /-- RETIRED_CHANNEL_REFUSE (R376). A request to a retired granule is answered ERR_DISABLED ahead of the Tollgate. -/
  | retiredChannelRefuse (ch : DramCh) (tag : Nat)
  /-- TRY (R386). Acquires a lock if free. -/
  | tryLock (p : LockPath) (l : Fin 1024)
  /-- WAIT (R386). Acquires a lock or queues as a waiter. -/
  | waitLock (p : LockPath) (l : Fin 1024)
  /-- RELEASE (R386). Releases a held lock and hands it to the head waiter. -/
  | releaseLock (p : LockPath) (l : Fin 1024)
  /-- CLEAR_BROKEN (R389). Clears BROKEN of a held lock. -/
  | clearBroken (p : LockPath) (l : Fin 1024)
  /-- OWNER_DEATH (R388). A death notice releases the owner's locks as broken and removes its waiters. -/
  | ownerDeath
  /-- LOCK_OP_FOREIGN_WRITE (R539). A write to LOCK_OP by a path with no owner changes nothing and is counted. -/
  | lockOpForeignWrite (p : Path) (l : Fin 1024) (v : Word)
  /-- READ_PACKET (R415). A READ request is admitted or refused at its admission edge. -/
  | readPacket (p : PortId) (k : Packet)
  /-- WRITE_PACKET (R415). A WRITE request is admitted or refused at its admission edge. -/
  | writePacket (p : PortId) (k : Packet)
  /-- RING_PUT (R419). A RING_PUT writes an entry into its target ring, or is answered NACK. -/
  | ringPut (p : PortId) (k : Packet) (ring : BitVec 14)
  /-- LOCK_PACKET (R420). A LOCK packet runs a lock operation with owner KIND 4. -/
  | lockPacket (p : PortId) (k : Packet) (op : BitVec 3) (l : Fin 1024)
  /-- READ_RESP (R401). A read response returns lines and status to the requester. -/
  | readResp (p : PortId) (k : Packet)
  /-- WRITE_RESP (R401). A write response returns its status. -/
  | writeResp (p : PortId) (k : Packet)
  /-- RING_RESP (R419). A ring response advances the fabric ring, schedules a retry, or stops it. -/
  | ringResp (p : PortId) (k : Packet)
  /-- LOCK_RESP (R420). A lock result is written to FAB_LOCK_RESP. -/
  | lockResp (p : PortId) (k : Packet) (i : Fin 8) (result : BitVec 2) (broken : Bool)
  /-- WINDOW_REQUEST_DONE (R417). An admitted request finishes and leaves OUTSTANDING; a closing window becomes CLOSED. -/
  | windowRequestDone (w : BitVec 8) (tag : Nat)
  /-- FAB_WIN_OPEN (R418). A write of OPEN opens a CLOSED window. -/
  | fabWinOpen (w : BitVec 8)
  /-- FAB_WIN_CLOSE (R417). A write of CLOSE makes an open window CLOSING. -/
  | fabWinClose (w : BitVec 8)
  /-- PACKET_FORWARD (R408). A packet for another device is routed, checked and forwarded. -/
  | packetForward (p : PortId) (k : Packet)
  /-- FAB_RING_SEND (R419). An enabled fabric ring sends its HEAD entry as a RING_PUT. -/
  | fabRingSend (f : Fin 8192)
  /-- FAB_RING_RETRY (R419). 1,024 fc after NACK_RING_FULL, the entry is sent again. -/
  | fabRingRetry (f : Fin 8192)
  /-- FAB_RING_TIMEOUT (R419). No response within RING_TO stops the ring. -/
  | fabRingTimeout (f : Fin 8192)
  /-- FAB_LOCK_REQ (R420). A write sends a LOCK packet to a peer, or gives REFUSED at once. -/
  | fabLockReq (i : Fin 8) (v : Word)
  /-- FAB_PEER_LOST_SET (R421). Declares a peer lost: its locks are released and requests refused. -/
  | fabPeerLostSet (addr : BitVec 16)
  /-- FAB_PEER_LOST_CLEAR (R421). Ends a lost-peer declaration. -/
  | fabPeerLostClear (addr : BitVec 16)
  /-- LINK_REPLAY (R397). An uncorrectable codeword causes a replay from the first unacknowledged flit. -/
  | linkReplay (p : PortId)
  /-- LANE_FAIL (R398). A failed lane is retired and the port re-stripes onto three lanes. -/
  | laneFail (p : PortId) (lane : Fin 4)
  /-- FAB_PORT_DOWN (R399). A port goes down: its queued and later packets are dropped and it is retrained or retired. -/
  | fabPortDown (p : PortId) (cause : Fin 4)
  /-- CREDIT_RETURN (R403). A credit flit returns credits to a sender. -/
  | creditReturn (p : PortId) (buf : Fin 4) (n : Nat)
  /-- ENUM_START (R410). SETTLE ms after its ports are up, the root starts enumeration. -/
  | enumStart
  /-- FAB_ENUM_GO (R411). A write of GO starts or restarts enumeration, or is ignored. -/
  | fabEnumGo
  /-- WALK (R413). A WALK probe is forwarded, answered or ends an axis walk. -/
  | walk (p : PortId) (k : Ctl)
  /-- WALK_END (R413). A WALK_END is forwarded, or gives the root a side count. -/
  | walkEnd (p : PortId) (k : Ctl)
  /-- ASSIGN (R413). A device takes its address and spreads the ASSIGN on. -/
  | assign (p : PortId) (k : Ctl)
  /-- HELLO (R413). A neighbour's HELLO sets NEIGHBOUR and is checked. -/
  | hello (p : PortId) (k : Ctl)
  /-- ENUM_DONE (R413). The broadcast done notice makes each device write FAB_SHAPE. -/
  | enumDone (p : Option PortId) (k : Ctl)
  /-- ENUM_FAIL (R411). The failure broadcast ends enumeration. -/
  | enumFail (p : Option PortId) (k : Ctl)
  /-- GOODBYE (R421). A departing device's broadcast declares it lost. -/
  | goodbye (p : PortId) (k : Ctl)
  /-- FAB_VOTE_FAIL (R414). Three differing copies stop the Drover or the route entry. -/
  | fabVoteFail (route : Option (Fin 4096))
  /-- HOST_UNIT_RECEIVE (R428). A received protocol unit is checked for CRC, session and SEQ, then accepted or discarded. -/
  | hostUnitReceive (frame : List Byte) (srcMac : BitVec 48) (protOk : Bool)
  /-- ACK_TIMER (R428). 64 hc after an accepted unit with nothing to send, an ACKONLY unit is sent. -/
  | ackTimer
  /-- RETRANSMIT (R428). A unit unacknowledged for RTO is sent again with those after it. -/
  | retransmit
  /-- PAUSE_FRAME (R424). A received PAUSE frame is discarded. -/
  | pauseFrame
  /-- ARP_REQUEST (R425). An ARP request for the IPv4 address is answered. -/
  | arpRequest (mac : BitVec 48) (target : Word) (protOk : Bool)
  /-- NEIGHBOUR_SOLICITATION (R425). A neighbour solicitation for the IPv6 address is answered. -/
  | neighbourSolicitation (mac : BitVec 48) (target : BitVec 128) (protOk : Bool)
  /-- OPEN (R429). Opens a session, or is refused while one is open. -/
  | openSession
  /-- CLOSE (R429). Ends the session after earlier messages are answered. -/
  | closeSession
  /-- SESSION_IDLE_TIMEOUT (R429). IDLE_TO ms with no unit accepted ends the session. -/
  | sessionIdleTimeout
  /-- HOST_LINK_DOWN (R429). A link down for 100 ms ends the session. -/
  | hostLinkDown
  /-- HOST_KILL (R429). A write of KILL ends the session. -/
  | hostKill
  /-- READ (R433). A host read of DRAM, Granary or CSR space. -/
  | hostRead
  /-- WRITE (R433). A host write of DRAM, Granary or CSR space. -/
  | hostWrite
  /-- DOORBELL (R434). After earlier writes respond, writes VALUE to a ring's TAIL. -/
  | doorbell
  /-- LOCK (R431). The host runs a lock operation as owner KIND 3. -/
  | hostLock
  /-- CAM_CMD (R291). Queues a control command to a camera. -/
  | camCmd
  /-- ATTEST (R441). Generates an ML-KEM key pair and returns a signed attestation report. -/
  | attest
  /-- KEY (R441). Decapsulates the ciphertext and installs the MACsec keys. -/
  | key
  /-- RING_DATA (R436). The V6 sends host ring entries in turn. -/
  | ringData
  /-- CAM_EVENT (R431). The V6 sends a camera event packet to the host. -/
  | camEvent
  /-- EVENT_GRANT (R437). The event arbiter grants one event per nc and assigns EVSEQ. -/
  | eventGrant
  /-- LEDGER_COPY (R439). The Ledger copies the next record into the host event ring. -/
  | ledgerCopy
  /-- LEDGER_SPILL (R506). A page of records and journal entries is written to flash. -/
  | ledgerSpill
  /-- LEDGER_DUMP (R510). A write of GO copies flash pages to memory. -/
  | ledgerDump (first : BitVec 18) (count : BitVec 12)
  /-- FUSE_PROGRAM (R470). One fuse operation programs one cell of up to 64 bits after a hold-up check. -/
  | fuseProgram (senseMv : Nat)
  /-- SEC_SVN_RAISE (R473). A write with GO raises the fused SVN floor, or is refused. -/
  | secSvnRaise (v : BitVec 7)
  /-- SEC_LC_REQ (R476). A write with GO requests a life-cycle transition. -/
  | secLcReq (target : BitVec 3) (p : Path)
  /-- ENDED_TRANSITION (R478). Zeroises SECRET, programs LC and resets. -/
  | endedTransition
  /-- SEC_KEYGEN (R479). A write with GO generates the device key and programs the banks. -/
  | secKeygen (senseMv : Nat)
  /-- SUBTREE_REBUILD (R480). At start-up the key is checked and the cached subtrees rebuilt until READY. -/
  | subtreeRebuild
  /-- SIGNATURE (R486). The security block signs one message with the next leaf. -/
  | signature
  /-- LEAF_RESERVATION (R483). A record with the next NEXT_LEAF is written, with a SEG bit as needed. -/
  | leafReservation (senseMv : Nat)
  /-- SEC_LEAF_RESUME (R484). At start-up the resume point is computed from the records and SEG. -/
  | secLeafResume
  /-- ASSAY_NOTICE (R493). NOTICE before a start time the driver is warned and line 12 set. -/
  | assayNotice (c : CoreId) (kc : BitVec 64)
  /-- ASSAY_START (R494). The core is idle with enough headroom, and the slice starts. -/
  | assayStart
  /-- ASSAY_SKIPPED (R494). GRACE ends first and the slice is skipped. -/
  | assaySkipped
  /-- ASSAY_SLICE_END (R498). The slice ends with pass or fail, repair or core retirement. -/
  | assaySliceEnd (f : Finding)
  /-- ASSAY_REQ (R497). A write with GO requests an external slice. -/
  | assayReq (p : Path) (core : BitVec 3)
  /-- ASSAY_RETIRE (R499). A write with GO retires a core at the next kc edge. -/
  | assayRetire (core : BitVec 3)
  /-- ASSAY_FUSE_GO (R508). A write of GO opens a fuse window. -/
  | assayFuseGo
  /-- FUSE_WINDOW (R508). A fuse window programs the RETIRE and REPAIR banks for unfused entries. -/
  | fuseWindow (senseMv : Nat)
  /-- LINK_UP (R403). A Septale port finishes training: STATE reads UP and each end grants the other all 1,024 credits, or LINK_ERR is set when the FEC modes differ. -/
  | linkUp (p : PortId) (peerFec : Bool)
  /-- HOST_PHY_LINK_UP (R443). The 10GBASE-T1 PHY gains link and HOST_STAT.LINK becomes 1. -/
  | hostPhyLinkUp (leader : Bool)
  /-- WORD_ALIGNMENT (R304). A CoaXPress receiver reaches word alignment on its stream and HOP_CONN_STAT.UP becomes 1. -/
  | wordAlignment (conn : CamId)
  /-- RAIL_BAND_RETURN (R522). VCORE, VSRAM, VIOD or VIO has been back in band for 1 ms and the power-on reset held by its monitor is released. -/
  | railBandReturn (j : Fin 12)
  /-- CHECKER_VISIT (R460). Once in every 2^20 kc the checker votes a mirrored register, rewrites a minority copy, or stops the function when all three copies differ. -/
  | checkerVisit (off : BitVec 28)
  /-- ASSAY_START_TIME (R494). A core's scheduled start time arrives: STATE goes from NOTICE to WAIT and the GRACE wait begins, or the start moves behind a running slice or is skipped for a retired or masked core. -/
  | assayStartTime (c : CoreId)
  /-- NOP (R164). A bundle whose slots are all NOP passes F, D, X and W, taking its 4 cc and its loop-end test. -/
  | nop (h : Hd)
  /-- RESERVED_ENCODING (R168). A bundle with a reserved FORM, CLASS or OP code raises ILLEGAL at its first D edge. -/
  | reservedEncoding (c : CoreId) (bundle : BitVec 256)
  /-- SMB_OTHER_COMMAND (R527). An SMBus Block Read with a command code other than 0x01..0x07 is answered with a NACK of its data phase. -/
  | smbOtherCommand (code : BitVec 8)
deriving DecidableEq, Repr

end Sys2Proof
end

