-- ==== Sys2Proof/Decode.lean ====
section
/-! DEFINITION. The commands that a word spells by the opcode table's bits. The table gives no row any bits: the part takes its
commands from outside and has no instruction words of its own. -/

namespace Sys2Proof

/-- No row of the opcode table has bits, so no word spells a command. -/
def decodeTableWord (_nbits _w : Nat) : Option Instr := none

end Sys2Proof
end

