-- ==== Sys2Proof/Machine/Cells.lean ====
section
/-! DEFINITION. Sparse data by address: lists of (address, value) pairs in one canonical form, addresses strictly
rising and no entry equal to what an unlisted address reads as. Byte memories are such lists (Host.Cell). -/

namespace Sys2Proof.Machine

/-- What address `a` holds; an unlisted address holds `d`. -/
def cellGet {α : Type} (d : α) : List (Nat × α) → Nat → α
  | [], _ => d
  | (k, v) :: m, a => if k = a then v else cellGet d m a

/-- Puts an entry before the first greater address. -/
def cellIns {α : Type} : List (Nat × α) → Nat → α → List (Nat × α)
  | [], a, x => [(a, x)]
  | (k, v) :: m, a, x => if a < k then (a, x) :: (k, v) :: m else (k, v) :: cellIns m a x

/-- Makes address `a` hold `x`; writing the default removes the entry. -/
def cellPut {α : Type} [DecidableEq α] (d : α) (m : List (Nat × α)) (a : Nat) (x : α) : List (Nat × α) :=
  let m' := m.filter (fun kv => kv.1 != a)
  if x = d then m' else cellIns m' a x

/-- The canonical form: addresses strictly rising, no entry equal to the default. -/
def cellsWf {α : Type} [DecidableEq α] (d : α) : List (Nat × α) → Bool
  | [] => true
  | (_, v) :: [] => decide (v ≠ d)
  | (k, v) :: (k', v') :: m => decide (v ≠ d) && decide (k < k') && cellsWf d ((k', v') :: m)

/-- Drops every entry with `lo ≤ address < hi`: the range then reads as the default. -/
def cellClear {α : Type} (m : List (Nat × α)) (lo hi : Nat) : List (Nat × α) :=
  m.filter (fun kv => !(decide (lo ≤ kv.1) && decide (kv.1 < hi)))

/-- A list of consecutive cells as entries from address `a` up, defaults left out. -/
def cellRun {α : Type} [DecidableEq α] (d : α) : Nat → List α → List (Nat × α)
  | _, [] => []
  | a, x :: xs => if x = d then cellRun d (a + 1) xs else (a, x) :: cellRun d (a + 1) xs

/-- Makes the addresses from `a` up hold the values of a list. -/
def cellFill {α : Type} [DecidableEq α] (d : α) (m : List (Nat × α)) (a : Nat) (xs : List α) : List (Nat × α) :=
  m.filter (fun kv => decide (kv.1 < a)) ++ cellRun d a xs ++ m.filter (fun kv => decide (a + xs.length ≤ kv.1))

/-- A byte memory. -/
abbrev Bytes := List Host.Cell

/-- The canonical form of a byte memory whose unlisted bytes read as `d`. -/
def Memory.wf (d : Byte) (m : Bytes) : Bool := cellsWf d m

/-- `n` bytes from `a` up, in address order; `d` is what an unlisted byte reads as. -/
def bytesGet (d : Byte) (m : Bytes) (a : Nat) : Nat → List Byte
  | 0 => []
  | n + 1 => cellGet d m a :: bytesGet d m (a + 1) n

/-- Stores a list of bytes from `a` up. -/
def bytesPut (d : Byte) (m : Bytes) (a : Nat) : List Byte → Bytes
  | [] => m
  | b :: bs => bytesPut d (cellPut d m a b) (a + 1) bs

/-- The little-endian value of a list of bytes (R4). -/
def leNat : List Byte → Nat
  | [] => 0
  | b :: bs => b.toNat + 256 * leNat bs

/-- The `n` little-endian bytes of a value (R4). -/
def leBytes : Nat → Nat → List Byte
  | 0, _ => []
  | n + 1, v => BitVec.ofNat 8 v :: leBytes n (v / 256)

/-- The bits [lsb + width − 1 : lsb] of a value. -/
def bitsOf (v lsb width : Nat) : Nat := (v / 2 ^ lsb) % 2 ^ width

/-- `v` with the bits [lsb + width − 1 : lsb] replaced by `x`. -/
def setBits (v lsb width x : Nat) : Nat :=
  v - bitsOf v lsb width * 2 ^ lsb + (x % 2 ^ width) * 2 ^ lsb

/-- Byte `i` of a little-endian value. -/
def byteOf (v i : Nat) : Byte := BitVec.ofNat 8 (v / 256 ^ i)

/-- The signed value of the low `w` bits. -/
def sgn (w v : Nat) : Int :=
  let x := v % 2 ^ w
  if w ≠ 0 ∧ 2 ^ (w - 1) ≤ x then (x : Int) - 2 ^ w else x

/-- The low `w` bits of an integer. -/
def lowBits (w : Nat) (x : Int) : Nat := (x % (2 ^ w : Int)).toNat

/-- One bit as a number. -/
def bit01 (b : Bool) : Nat := if b then 1 else 0

/-- The numbers below `n` that satisfy a test, rising. -/
def numsWhere (n : Nat) (p : Nat → Bool) : List Nat := (List.range n).filter p

/-- The lowest number below `n` that satisfies a test. -/
def firstWhere (n : Nat) (p : Nat → Bool) : Option Nat := (List.range n).find? p

/-- Changes the first element that satisfies a test. -/
def modFirst {α : Type} (t : α → Bool) (f : α → α) : List α → List α
  | [] => []
  | x :: xs => if t x then f x :: xs else x :: modFirst t f xs

end Sys2Proof.Machine
end

