-- ==== Sys2Proof/Machine/Num.lean ====
section
/-! DEFINITION. Number formats, exact values, rounding and conversion (02 R33..R59). Values are exact fractions, so
that every operation is computed exactly and rounded once. -/

namespace Sys2Proof.Machine

/-- An exact value in the sense of R38: not a number, an infinity, or sign and magnitude `num / den`. -/
inductive Val where
  | nan
  | inf (neg : Bool)
  | fin (neg : Bool) (num den : Nat)
deriving DecidableEq, Repr

/-- Width of a code in bits (R33). -/
def fmtBits : Fmt → Nat
  | .u4 | .s4 => 4
  | .u8 | .s8 | .e4m3 | .e5m2 => 8
  | .u12 => 12
  | .u16 | .s16 | .fp16 | .bf16 => 16
  | .s32 | .fp32 => 32
  | .s48 => 48
  | .c21 => 21
  | .rsvd => 0

/-- The FMT code of a format (R33). -/
def fmtCode : Fmt → Nat
  | .u4 => 0 | .s4 => 1 | .u8 => 2 | .s8 => 3 | .u12 => 4 | .u16 => 5 | .s16 => 6 | .s32 => 7
  | .e4m3 => 8 | .e5m2 => 9 | .fp16 => 10 | .bf16 => 11 | .fp32 => 12 | .s48 => 13 | .c21 => 14 | .rsvd => 15

/-- The format of an FMT code (R33). -/
def fmtOf : Nat → Fmt
  | 0 => .u4 | 1 => .s4 | 2 => .u8 | 3 => .s8 | 4 => .u12 | 5 => .u16 | 6 => .s16 | 7 => .s32
  | 8 => .e4m3 | 9 => .e5m2 | 10 => .fp16 | 11 => .bf16 | 12 => .fp32 | 13 => .s48 | 14 => .c21 | _ => .rsvd

/-- Integer formats (R33). -/
def fmtInt : Fmt → Bool
  | .u4 | .s4 | .u8 | .s8 | .u12 | .u16 | .s16 | .s32 | .s48 => true
  | _ => false

/-- Signed integer formats (R33). -/
def fmtSigned : Fmt → Bool
  | .s4 | .s8 | .s16 | .s32 | .s48 => true
  | _ => false

/-- Floating-point formats (R38). -/
def fmtFloat : Fmt → Bool
  | .e4m3 | .e5m2 | .fp16 | .bf16 | .fp32 | .c21 => true
  | _ => false

/-- The smallest code value of an integer format (R58, lo_code). -/
def loCode (f : Fmt) : Int := if fmtSigned f then -(2 ^ (fmtBits f - 1) : Int) else 0

/-- The largest code value of an integer format (R58, hi_code). -/
def hiCode (f : Fmt) : Int := if fmtSigned f then 2 ^ (fmtBits f - 1) - 1 else 2 ^ fmtBits f - 1

/-- Exponent bits of a floating-point format (R38). -/
def expBits : Fmt → Nat
  | .e4m3 => 4 | .e5m2 | .fp16 => 5 | _ => 8

/-- Fraction bits of a floating-point format (R38). -/
def fracBits : Fmt → Nat
  | .e4m3 => 3 | .e5m2 => 2 | .fp16 => 10 | .bf16 => 7 | .c21 => 12 | _ => 23

/-- Exponent bias of a floating-point format (R38). -/
def expBias : Fmt → Nat
  | .e4m3 => 7 | .e5m2 | .fp16 => 15 | _ => 127

/-- The magnitude code of the largest finite value (R38). -/
def maxCode : Fmt → Nat
  | .e4m3 => 0x7E | f => (2 ^ expBits f - 1) * 2 ^ fracBits f - 1

/-- The canonical NaN (R38, R40). -/
def nanCode : Fmt → Nat
  | .e4m3 => 0x7F
  | f => (2 ^ expBits f - 1) * 2 ^ fracBits f + 2 ^ (fracBits f - 1)

/-- The code of an infinity; E4M3 has none (R38). -/
def infCode (f : Fmt) (neg : Bool) : Nat :=
  (if neg then 2 ^ (expBits f + fracBits f) else 0) + (2 ^ expBits f - 1) * 2 ^ fracBits f

/-- Numerator of the magnitude that a magnitude code stands for, over `2 ^ (bias + fraction bits)` (R38). -/
def magNum (f : Fmt) (mag : Nat) : Nat :=
  let e := mag / 2 ^ fracBits f
  let m := mag % 2 ^ fracBits f
  if e = 0 then m * 2 else (2 ^ fracBits f + m) * 2 ^ e

/-- Denominator of every magnitude of a format. -/
def magDen (f : Fmt) : Nat := 2 ^ (expBias f + fracBits f)

/-- The value of an integer. -/
def valInt (x : Int) : Val := .fin (decide (x < 0)) x.natAbs 1

/-- The value of a code (R33, R38). -/
def decodeVal (f : Fmt) (code : Nat) : Val :=
  if fmtFloat f then
    let mag := code % 2 ^ (expBits f + fracBits f)
    let neg := decide (code / 2 ^ (expBits f + fracBits f) % 2 = 1)
    if f = .e4m3 then
      if mag = 0x7F then .nan else .fin neg (magNum f mag) (magDen f)
    else if mag / 2 ^ fracBits f = 2 ^ expBits f - 1 then
      if mag % 2 ^ fracBits f = 0 then .inf neg else .nan
    else .fin neg (magNum f mag) (magDen f)
  else if fmtSigned f then valInt (sgn (fmtBits f) code)
  else valInt (code % 2 ^ fmtBits f : Nat)

/-- The sign, negative or not. -/
def valNeg : Val → Bool
  | .nan => false | .inf n => n | .fin n _ _ => n

/-- The value with its sign turned. -/
def negVal : Val → Val
  | .nan => .nan | .inf n => .inf (!n) | .fin n a b => .fin (!n) a b

/-- The signed numerator of a magnitude. -/
def signNum (neg : Bool) (n : Nat) : Int := if neg then -(n : Int) else n

/-- The exact sum, with IEEE 754's infinities, NaNs and signs of zero under RNE (R40, R46). -/
def addVal : Val → Val → Val
  | .nan, _ => .nan
  | _, .nan => .nan
  | .inf a, .inf b => if a = b then .inf a else .nan
  | .inf a, _ => .inf a
  | _, .inf b => .inf b
  | .fin a n d, .fin b m e =>
    let t := signNum a n * e + signNum b m * d
    .fin (if t = 0 then a && b else decide (t < 0)) t.natAbs (d * e)

/-- The exact product (R40, R57). -/
def mulVal : Val → Val → Val
  | .nan, _ => .nan
  | _, .nan => .nan
  | .inf a, .inf b => .inf (a != b)
  | .inf a, .fin b m _ => if m = 0 then .nan else .inf (a != b)
  | .fin a n _, .inf b => if n = 0 then .nan else .inf (a != b)
  | .fin a n d, .fin b m e => .fin (a != b) (n * m) (d * e)

/-- Strictly less, −0 equal to +0; false when either is NaN. -/
def ltVal : Val → Val → Bool
  | .nan, _ => false
  | _, .nan => false
  | .inf a, .inf b => a && !b
  | .inf a, _ => a
  | _, .inf b => !b
  | .fin a n d, .fin b m e => decide (signNum a n * e < signNum b m * d)

/-- Equal, −0 equal to +0; false when either is NaN. -/
def eqVal : Val → Val → Bool
  | .inf a, .inf b => a == b
  | .fin a n d, .fin b m e => decide (signNum a n * e = signNum b m * d)
  | _, _ => false

/-- A NaN. -/
def isNanVal : Val → Bool
  | .nan => true | _ => false

/-- `rnd` of R58 on the exact quotient `x / d`, `d > 0`. -/
def rndQ (x : Int) (d : Nat) (rm : RMode) : Int :=
  let f := x / (d : Int)
  let r := x - f * d
  if r = 0 then f
  else match rm with
    | .rtz => if 0 < x then f else f + 1
    | .floor => f
    | .rna => if 2 * r < d then f else if (d : Int) < 2 * r then f + 1 else if 0 < x then f + 1 else f
    | .rne => if 2 * r < d then f else if (d : Int) < 2 * r then f + 1 else if f % 2 = 0 then f else f + 1

/-- `rshr` of R58: the rounding right shift of an integer. -/
def rshrI (x : Int) (n : Nat) (rm : RMode) : Int := rndQ x (2 ^ n) rm

/-- Integer clamp (R58). -/
def clampi (x lo hi : Int) : Int := min (max x lo) hi

/-- `floor (log2 (n / d))`, for positive `n` and `d`. -/
def ilog2 (n d : Nat) : Int :=
  let l : Int := (Nat.log2 n : Int) - Nat.log2 d
  let fits : Bool := if 0 ≤ l then decide (d * 2 ^ l.toNat ≤ n) else decide (d ≤ n * 2 ^ (-l).toNat)
  if fits then l else l - 1

/-- The magnitude code nearest to `n / d` in a floating-point format without an upper bound (R44, R51). -/
def roundMag (f : Fmt) (n d : Nat) : Nat :=
  if n = 0 then 0 else
    let e := max (ilog2 n d) (1 - (expBias f : Int))
    let q := e - fracBits f
    let sig := if 0 ≤ q then rndQ n (d * 2 ^ q.toNat) .rne else rndQ (n * 2 ^ (-q).toNat) d .rne
    (e + expBias f - 1).toNat * 2 ^ fracBits f + sig.toNat

/-- The sign bit of a code. -/
def signBit (f : Fmt) (neg : Bool) : Nat := if neg then 2 ^ (expBits f + fracBits f) else 0

/-- The FP32 code of a value: IEEE 754 binary32 with RNE (R46). -/
def encodeFp32 : Val → Nat
  | .nan => nanCode .fp32
  | .inf n => infCode .fp32 n
  | .fin neg n d =>
    let c := roundMag .fp32 n d
    if infCode .fp32 false ≤ c then infCode .fp32 neg else signBit .fp32 neg + c

/-- A converted code, and whether its element saturated or was a NaN turned into an integer (R48, R52). -/
structure Conv where
  code : Nat
  sat : Bool
  nan : Bool
deriving DecidableEq, Repr

/-- The infinity bits of CORE_ARITH_CTRL: E5M2, FP16, BF16 (R64). -/
abbrev ArithCtl := BitVec 3

/-- `inf_selected` of R58. -/
def infSelected (ctl : ArithCtl) : Fmt → Bool
  | .e5m2 => ctl.getLsbD 0
  | .fp16 => ctl.getLsbD 1
  | .bf16 => ctl.getLsbD 2
  | _ => false

/-- `inf_allowed` of R58. -/
def infAllowed (ctl : ArithCtl) (f : Fmt) : Bool := f == .fp32 || f == .c21 || infSelected ctl f

/-- Rounding and saturation of `x / d` to an integer format (R47, R58). -/
def satInt (f : Fmt) (x : Int) (d : Nat) : Conv :=
  if (2 * hiCode f + 1) * d ≤ 2 * x then ⟨lowBits (fmtBits f) (hiCode f), true, false⟩
  else if 2 * x ≤ (2 * loCode f - 1) * d then ⟨lowBits (fmtBits f) (loCode f), true, false⟩
  else ⟨lowBits (fmtBits f) (rndQ x d .rne), false, false⟩

/-- `sat` of R58 for a floating-point format (R47..R51). -/
def satFloat (ctl : ArithCtl) (f : Fmt) : Val → Conv
  | .nan => ⟨nanCode f, false, false⟩
  | .inf n =>
    if infAllowed ctl f then ⟨infCode f n, false, false⟩ else ⟨signBit f n + maxCode f, true, false⟩
  | .fin neg n d =>
    if f = .fp32 then ⟨encodeFp32 (.fin neg n d), false, false⟩
    else if (magNum f (maxCode f) + magNum f (maxCode f + 1)) * d ≤ 2 * n * magDen f then
      ⟨if infSelected ctl f then infCode f neg else signBit f neg + maxCode f, true, false⟩
    else ⟨signBit f neg + roundMag f n d, false, false⟩

/-- `to_code` of R58: a value in code units, and the zero point of an integer format. -/
def toCode (ctl : ArithCtl) (f : Fmt) (zp : Int) (t : Val) : Conv :=
  if fmtInt f then
    match t with
    | .nan => ⟨lowBits (fmtBits f) (clampi zp (loCode f) (hiCode f)), false, true⟩
    | .inf n => ⟨lowBits (fmtBits f) (if n then loCode f else hiCode f), true, false⟩
    | .fin neg n d => satInt f (signNum neg n + zp * d) d
  else satFloat ctl f t

/-- `rescale` of R58, R59: one rounding, after the zero point. -/
def rescale (ctl : ArithCtl) (f : Fmt) (x : Int) (m n : Nat) (zp : Int) : Conv :=
  let t := x * (m : Int)
  toCode ctl f zp (.fin (decide (t < 0)) t.natAbs (2 ^ n))

/-- `expand_c21` of R58 (R55, R56). -/
def expandC21 (f : Fmt) (code : Nat) (zp : Int) (scale : Nat) : Conv :=
  let v := decodeVal f code
  let d := if fmtInt f then
      match v with
      | .fin neg n _ => valInt (signNum neg n - zp)
      | x => x
    else v
  satFloat 0 .c21 (mulVal d (decodeVal .fp32 scale))

/-- The FP32 code of a C21 code (R42). -/
def c21ToFp32 (code : Nat) : Nat := code * 2 ^ 11

/-- A floating-point result written in its own format (R46, R149): FP32 by IEEE 754, others by conversion. -/
def fpResult (ctl : ArithCtl) (f : Fmt) (v : Val) : Conv := satFloat ctl f v

/-- The FP32 sum of two FP32 codes, rounded RNE (R46). -/
def addFp32 (a b : Nat) : Nat := encodeFp32 (addVal (decodeVal .fp32 a) (decodeVal .fp32 b))

/-- The FP32 product of two FP32 codes, rounded RNE (R46). -/
def mulFp32 (a b : Nat) : Nat := encodeFp32 (mulVal (decodeVal .fp32 a) (decodeVal .fp32 b))

/-- The order of the minimum and maximum: by value, −0 below +0 (R149). -/
def belowVal (a b : Val) : Bool := ltVal a b || (eqVal a b && valNeg a && !valNeg b)

/-- The minimum or maximum of two codes: the other operand when exactly one is NaN, the canonical NaN when both are
(R149). -/
def minMaxCode (f : Fmt) (pickB : Val → Val → Bool) (x y : Nat) : Nat :=
  let a := decodeVal f x
  let b := decodeVal f y
  if isNanVal a && isNanVal b then nanCode f else if isNanVal a then y else if isNanVal b then x
    else if pickB a b then y else x

/-- The interpretation of a zero point held in 16 bits (R236). -/
def zpOf (f : Fmt) (x : Nat) : Int := if fmtSigned f then sgn 16 x else (x % 2 ^ 16 : Nat)

end Sys2Proof.Machine
end

