-- ==== Sys2Proof/Machine/Flags.lean ====
section
/-! DEFINITION. Integer edge results and the flags they raise (02 R60..R63), once for every width: the sequencer uses
them at 32 bits, the vector unit at the element width. -/

namespace Sys2Proof.Machine

/-- A result code with the edge cases it met: OV, DZ, and whether it saturated (R48, R60). -/
structure IRes where
  code : Nat
  ov : Bool
  dz : Bool
  sat : Bool
deriving DecidableEq, Repr

/-- A result that met no edge. -/
def IRes.plain (code : Nat) : IRes := ⟨code, false, false, false⟩

/-- The most negative value of an operand width (R60). -/
def intLo (signed : Bool) (w : Nat) : Int := if signed then -(2 ^ (w - 1) : Int) else 0

/-- The largest value of an operand width (R60). -/
def intHi (signed : Bool) (w : Nat) : Int := if signed then 2 ^ (w - 1) - 1 else 2 ^ w - 1

/-- The value of a code at a width. -/
def intVal (signed : Bool) (w code : Nat) : Int := if signed then sgn w code else (code % 2 ^ w : Nat)

/-- The wrapping form: the low bits of the true result, OV outside the range (R60). -/
def wrapRes (signed : Bool) (w : Nat) (t : Int) : IRes :=
  ⟨lowBits w t, decide (t < intLo signed w) || decide (intHi signed w < t), false, false⟩

/-- The saturating form: the nearer bound, OV and a saturation outside the range (R60). -/
def satRes (signed : Bool) (w : Nat) (t : Int) : IRes :=
  let out := decide (t < intLo signed w) || decide (intHi signed w < t)
  ⟨lowBits w (clampi t (intLo signed w) (intHi signed w)), out, false, out⟩

/-- The quotient of a division, edges first (R60, R61); `saturating` is DIVS's form. -/
def divRes (signed saturating : Bool) (w a b : Nat) : IRes :=
  let x := intVal signed w a
  let y := intVal signed w b
  if y = 0 then
    ⟨if signed then lowBits w (if 0 ≤ x then intHi true w else intLo true w) else 2 ^ w - 1, false, true, false⟩
  else
    let q := Int.tdiv x y
    if saturating then satRes signed w q else wrapRes signed w q

/-- The remainder of a division; it takes the sign of the dividend (R60, R61). -/
def remRes (signed : Bool) (w a b : Nat) : IRes :=
  let x := intVal signed w a
  let y := intVal signed w b
  if y = 0 then ⟨a % 2 ^ w, false, true, false⟩ else IRes.plain (lowBits w (Int.tmod x y))

/-- Logical left shift by an unsigned count (R62). -/
def sllRes (w a c : Nat) : IRes := IRes.plain (if w ≤ c then 0 else (a * 2 ^ c) % 2 ^ w)

/-- Logical right shift by an unsigned count (R62). -/
def srlRes (w a c : Nat) : IRes := IRes.plain (if w ≤ c then 0 else (a % 2 ^ w) / 2 ^ c)

/-- Arithmetic right shift by an unsigned count (R62). -/
def sraRes (w a c : Nat) : IRes :=
  IRes.plain (lowBits w (if w ≤ c then (if sgn w a < 0 then -1 else 0) else sgn w a / 2 ^ c))

/-- Arithmetic left shift, wrapping: OV when the value changes sign or a lost bit differs from the result's sign
(R62), which is when the exact product leaves the width; a count of the width or more gives 0, with OV for a
value that is not 0. -/
def salRes (w a c : Nat) : IRes :=
  if w ≤ c then ⟨0, decide (sgn w a ≠ 0), false, false⟩ else wrapRes true w (sgn w a * 2 ^ c)

/-- Arithmetic left shift, saturating (R62). -/
def salsRes (w a c : Nat) : IRes :=
  if w ≤ c then
    if sgn w a = 0 then IRes.plain 0
    else ⟨lowBits w (if sgn w a < 0 then intLo true w else intHi true w), true, false, true⟩
  else satRes true w (sgn w a * 2 ^ c)

/-- A signed-count shift to the left; a negative count shifts right (R62). `c` is the count's 32-bit code. -/
def sslRes (saturating : Bool) (w a c : Nat) : IRes :=
  let n := sgn 32 c
  if n < 0 then sraRes w a n.natAbs else if saturating then salsRes w a n.natAbs else salRes w a n.natAbs

/-- A signed-count shift to the right; a negative count shifts left, wrapping (R62). -/
def ssrRes (w a c : Nat) : IRes :=
  let n := sgn 32 c
  if n < 0 then salRes w a n.natAbs else sraRes w a n.natAbs

/-- Absolute value (R60). -/
def absRes (saturating signed : Bool) (w a : Nat) : IRes :=
  let t : Int := (intVal signed w a).natAbs
  if saturating then satRes signed w t else wrapRes signed w t

/-- Negation (R60). -/
def negRes (saturating : Bool) (w a : Nat) : IRes :=
  let t : Int := -(sgn w a)
  if saturating then satRes true w t else wrapRes true w t

/-- The polynomial step of R116: one byte into a running CRC. -/
def crcByte (c b poly w : Nat) (ref : Bool) : Nat :=
  let m := 2 ^ w - 1
  let poly := poly &&& m
  let step (x : Nat) : Nat :=
    if ref then (if x % 2 = 1 then (x / 2) ^^^ poly else x / 2)
    else if (x / 2 ^ (w - 1)) % 2 = 1 then ((x * 2) ^^^ poly) &&& m else (x * 2) &&& m
  let c0 := if ref then (c &&& m) ^^^ b else (c &&& m) ^^^ (b * 2 ^ (w - 8))
  (step (step (step (step (step (step (step (step c0)))))))) &&& m

/-- The width of a CRC selector (R171). -/
def crcWidth : CrcW → Nat
  | .w8 => 8 | .w16 => 16 | .w32 => 32

/-- A CRC over bytes, in order (R116). -/
def crcBytes (w : Nat) (ref : Bool) (poly : Nat) : Nat → List Nat → Nat
  | c, [] => c
  | c, b :: bs => crcBytes w ref poly (crcByte c b poly w ref) bs

/-- Leading zero bits of a 32-bit value (R117). -/
def clz32 (x : Nat) : Nat := if x % 2 ^ 32 = 0 then 32 else 31 - Nat.log2 (x % 2 ^ 32)

/-- Set bits below bit `n` (R117). -/
def popcount : Nat → Nat → Nat
  | 0, _ => 0
  | n + 1, x => x % 2 + popcount n (x / 2)

/-- The low `n` bits in reverse order (R117). -/
def revBits : Nat → Nat → Nat
  | 0, _ => 0
  | n + 1, x => (x % 2) * 2 ^ n + revBits n (x / 2)

/-- The signed sum of element `k` of a Hadamard block (R151). -/
def hadSum (x : Nat → Int) (b k : Nat) : Int :=
  (List.range b).foldl (fun t i => if popcount 7 (i &&& k) % 2 = 0 then t + x i else t - x i) 0

end Sys2Proof.Machine
end

