-- ==== Sys2Proof/Config.lean ====
section
/-! DEFINITION. What the part's maker or another standard fixes and the spec does not state, and the free values:
constants without a body, so that no proof can rest on their values (log 2, 5, 7, 9). -/

namespace Sys2Proof

/-- A value the spec leaves open: the `n`-th one drawn, of width `w` (log 2). -/
opaque Config.free (n w : Nat) : BitVec w

/-- The C21 value delivered where a border repeats an element of a map without rows (R267 gives none; log 2). -/
opaque Config.noRowElem (m j : Nat) : BitVec 21

/-- The quotient, over 2^63, of a rescale whose shift lies beyond the 63 that R58 gives a meaning to (log 2, 12). -/
opaque Config.rescaleOver (x : Int) (m n : Nat) : Int

/-- Rising edges of a domain that pass while the block idles for the `n`-th time (R20; log 7). -/
opaque Config.edges (d : Dom) (n : Nat) : Nat

/-- Errors that arise in the memory cells while the block idles for the `n`-th time (R193, R370; log 8). -/
opaque Config.upsets (n : Nat) : List Upset

/-- The silicon step of GLOBAL_PART_ID, "per silicon" (R22; log 5). -/
opaque Config.siliconStep : BitVec 64

/-- The fused station address of HOST_MAC_ADDR, of which R537 fixes the bits that the register masks (log 5). -/
opaque Config.macAddr : BitVec 64

/-- The fused device identity of FAB_DEVICE_ID (R469; log 5). -/
opaque Config.deviceId : BitVec 64

/-- The nonce drawn at the reset that State.reset stands after (R477; log 5). -/
opaque Config.firstNonce : BitVec 64

/-- The magic of the LAYOUT area, "written at manufacture" (R447; log 5). -/
opaque Config.layoutMagic : Word

/-- The fused firmware key FW_PK (R469; log 5). -/
opaque Config.fwPk : BitVec 512

/-- The fused security version floor (R469; log 5). -/
opaque Config.svnFloor : Nat

/-- The programmed life-cycle bits (R469, R474; log 5). -/
opaque Config.lcBits : BitVec 5

/-- The SECRET bank (R469; log 5). -/
opaque Config.secret : BitVec 1024

/-- The DEV_PK bank (R469; log 5). -/
opaque Config.devPk : BitVec 512

/-- The KEY_CHECK bank (R469; log 5). -/
opaque Config.keyCheck : BitVec 256

/-- The SEG bits programmed (R469, R481; log 5). -/
opaque Config.segBits : Nat

/-- The FCAL_DIG bank (R469; log 5). -/
opaque Config.fcalDig : BitVec 256

/-- SHAKE256 with a 256-bit output (log 9). -/
opaque Config.shake256 (m : List Byte) : BitVec 256

/-- SHAKE256 with a 352-bit output, as the MACsec key derivation takes it (R441; log 9). -/
opaque Config.shake352 (m : List Byte) : BitVec 352

/-- Verification of XMSS-SHAKE256_20_256 over a message, with FW_PK (R471; log 9). -/
opaque Config.xmssVerify (pk : BitVec 512) (msg sig : List Byte) : Bool

/-- The root of the top layer of XMSS^MT-SHAKE256_40/4_256 from the seeds (R479; log 9). -/
opaque Config.xmssMtRoot (secret : BitVec 1024) : BitVec 256

/-- The 9,893 bytes of an XMSS^MT signature of a message with one leaf (R479; log 9). -/
opaque Config.xmssMtSign (secret : BitVec 1024) (leaf : Nat) (msg : List Byte) : List Byte

/-- The object identifier that opens PK_DIGEST's message (R479; log 9). -/
opaque Config.xmssMtOid : List Byte

/-- KMAC256 with a 256-bit output (R482; log 9). -/
opaque Config.kmac256 (key : BitVec 256) (msg : List Byte) : BitVec 256

/-- The 1,568 byte encapsulation key of an ML-KEM-1024 key pair from its random draw (R441; log 9). -/
opaque Config.mlkemEncapKey (draw : BitVec 512) : List Byte

/-- The shared secret that ML-KEM-1024 decapsulation gives (R441; log 9). -/
opaque Config.mlkemDecaps (draw : BitVec 512) (ciphertext : List Byte) : BitVec 256

/-- The row of a DRAM stack in which the controller places a channel address (R369, R374; log 5). -/
opaque Config.dramRow (ch ca : Nat) : Nat

/-- The bank group of a stack's devices that holds a row (R374, R537; log 5). -/
opaque Config.dramGroup (ch row : Nat) : Fin 4

end Sys2Proof
end

