-- ==== Sys2Proof/Machine/StateCore.lean ====
section
/-! DEFINITION. The parts of one core's state that are no CSR word: task contexts, the bundle in flight, the vector
unit, the Granary, the Loom, the Tally, the Sieve and the Carter (03, 04, 06, 07, 08, 11, 12). -/

namespace Sys2Proof.Machine

/-- A name of an architectural register of the running task or the core (R73, R96, R144). -/
inductive RName where
  | s (r : SReg) | p (k : PReg) | pb (k : PReg) | pl (k : PReg) | lc (d : Fin 4) | le (d : Fin 4) | dsp | sr
  | v (r : VReg) | a (k : AReg) | vstart | vfault
deriving DecidableEq, Repr

/-- The units that count arithmetic edge cases (R58, R69). -/
inductive ArUnit where
  | seq | vec | loom
deriving DecidableEq, Repr

/-- The slot classes of R164. -/
inductive Slot where
  | nop | sx | sm | sc | va | vp | vr | vl | vs | lm | cr
deriving DecidableEq, Repr

/-- An RSTK entry (R91): return address, SR to restore, KIND (true for an interrupt or fault entry). -/
structure RetEntry where
  addr : Word
  sr : BitVec 16
  intr : Bool
deriving DecidableEq, Repr

/-- What a WAITING task waits for (R95, R98, R107). -/
inductive WaitFor where
  | none
  | loom (job : Bool) (tag : BitVec 16)
  | carter (ch : ChanId)
  | irq
  | row (value : Word) (ctr : BitVec 8)
  | reti
deriving DecidableEq, Repr

/-- The states of a task context, in the codes of CORE_TASK_CFG.STATE (R95, R123). -/
inductive TaskSt where
  | free | ready | running | waiting | halted
deriving DecidableEq, Repr

/-- A task context (R78) with what the core keeps for it: the captured CORE_ARITH_CTRL (R94), the ring entry its
job came from (R348), a halt request not yet acted on (R123), whether an RWAIT was reported (R320), the lock
operation outstanding (R390), and what it waited for at each entry made into it from another task (R108, R109). -/
structure Task where
  s : Vector Word 32
  p : Vector Word 8
  pb : Vector Word 8
  pl : Vector Word 8
  lc : Vector Word 4
  le : Vector Word 4
  ls : Vector Word 4
  dsp : Word
  rstk : List RetEntry
  sr : BitVec 16
  pc : Word
  st : TaskSt
  wait : WaitFor
  arith : BitVec 3
  job : Option (Nat × Nat)
  haltReq : Bool
  longTold : Bool
  lockOut : Option (BitVec 10)
  waits : List WaitFor
deriving DecidableEq, Repr

/-- The part of loaded data that a register takes: its first bit, its width, and whether it is sign-extended (R100). -/
structure LdPart where
  lsb : Nat
  width : Nat
  signed : Bool
deriving DecidableEq, Repr

/-- One element of a vector access: its number, the bit address it starts at in the Granary, the cc after X at which
it issues, and for a store its code. -/
structure VElem where
  j : Nat
  bit : Nat
  cc : Nat
  code : Nat
deriving DecidableEq, Repr

/-- Where the data of a vector load goes: a register group with its element format and lane width, or an
accumulator. -/
inductive VDest where
  | regs (vd : VReg) (count : Nat) (fmt : Fmt) (lane : Nat)
  | acc (ak : AReg)
deriving DecidableEq, Repr

/-- The writes of an operation, held until its bundle's W edge (R73, R110). -/
inductive Fx where
  | s (r : SReg) (x : Word)
  | p (k : PReg) (x : Word)
  | pb (k : PReg) (x : Word)
  | pl (k : PReg) (x : Word)
  | lc (d : Fin 4) (x : Word)
  | le (d : Fin 4) (x : Word)
  | dsp (x : Word)
  | sr (x : BitVec 16)
  | ie (b : Bool)
  | v (r : VReg) (x : VWord)
  | a (k : AReg) (x : AccWord)
  | vstart (x : Word)
  | vfault (x : Word)
  | arith (u : ArUnit) (ov dz : Bool) (sat nan : Nat)
  | sload (dst : List (SReg × LdPart)) (parts : List (Nat × Nat × Option (List Byte)))
  | store (off : Nat) (bs : List Byte)
  | vload (d : VDest) (width : Nat) (each : Bool) (es : List VElem)
  | vstore (width : Nat) (each : Bool) (es : List VElem)
  | jump (pc : Word)
  | level (count : Word) (last start : Word)
  | lexit (k : Nat)
  | rpush (e : RetEntry)
  | rpop
  | cinv
  | yield
  | tend
  | loom (tile : Bool) (addr : Word)
  | carter (ch : ChanId) (addr : Word)
  | csrw (off : BitVec 20) (x : Word)
  | csrr (sd : SReg) (off : BitVec 20)
  | reti
deriving DecidableEq, Repr

/-- The slots and buses of the vector unit, in the order of CORE_VEC_STAT (R133, R160). -/
inductive VUnit where
  | va0 | va1 | vp | vr | x | y | z
deriving DecidableEq, Repr

/-- What an operation comes to at X: its writes, a precise fault (with the address it reports, if it reports one), a
vector element fault, whose completed writes stand, or a RETI whose frame at a Granary offset reads uncorrectable (R109,
R110, R144). -/
inductive OpOut where
  | ok (fx : List Fx)
  | fault (cause : BitVec 5) (addr : Option Word) (half : Bool)
  | velem (fx : List Fx) (addr : Word)
  | frame (off : Nat) (addr : Word)
deriving DecidableEq, Repr

/-- What an operation brings to D: slot class, whether its encoding or the state makes it ILLEGAL (R168), the registers it
reads and writes (R73, R96), whether a condition of R75 beside the scoreboard holds it, what it waits for (R98), the cc that its task
has been WAITING for that since it was last in D (R323), the length of a long operation (R97), whether it is a control transfer or loop operation (R86), whether it must be alone in its
bundle (R109), the registers of its largest group and whether it is a gather or a scatter (R134, R145, R166), the units that must
be idle before it (R101), and its outcome. -/
structure Op where
  slot : Slot
  illegal : Bool := false
  reads : List RName := []
  writes : List RName := []
  hold : Bool := false
  wait : Option WaitFor := none
  away : Nat := 0
  long : Nat := 1
  xfer : Bool := false
  alone : Bool := false
  group : Nat := 1
  indexed : Bool := false
  after : List VUnit := []
  out : OpOut
deriving DecidableEq, Repr

/-- The bundle whose commands are arriving: its operations in slot order, and whether the scoreboard or a condition of R75
held one of them when its command came. -/
structure Bundle where
  ops : List Op
  held : Bool
deriving DecidableEq, Repr

/-- A scalar load in flight (R96, R100, R111): the registers it writes with their values, and whether its data was
uncorrectable; `failed` once that is reported. -/
structure SLoad where
  task : TaskId
  pc : Word
  dst : List (SReg × Word)
  bad : Bool
  failed : Bool
deriving DecidableEq, Repr

/-- A vector load in flight (R142, R146): the registers it writes, and the lowest active element that a unit which read
uncorrectable holds a byte of; `failed` once that is reported. -/
structure VLoad where
  task : TaskId
  pc : Word
  regs : List (VReg × VWord)
  acc : Option (AReg × AccWord)
  bad : Option Nat
  failed : Bool
deriving DecidableEq, Repr

/-- The record of a fault not yet entered (R110, R111, R121). -/
structure FaultRec where
  cause : BitVec 5
  task : TaskId
  deferred : Bool
  half : Bool
  addr : Option Word
  pc : Word
deriving DecidableEq, Repr

/-- The power states of the vector unit, in the codes of CORE_VEC_STAT.PWR (R160). -/
inductive VPwr where
  | down | waking | on
deriving DecidableEq, Repr

/-- A byte that a vector store beat replaced at a cc of its core: what a load that issues at that cc or before still sees
there, and whether its unit read uncorrectable (R137, R184). -/
structure Late where
  cc : Nat
  addr : Nat
  old : Byte
  bad : Bool
deriving DecidableEq, Repr

/-- The sequencer of a core (R72..R124): its tasks and all it keeps beside the CSR words: the running and the last
task, the double-fault stop, the cc of the core's clock at which the next bundle may enter F (log 7), the bundle whose
commands are arriving, whether the next bundle has reached D and is held there, loads in flight, the store buffer (Granary offset and bytes, oldest
first), the fault not yet entered, whether a TIMER_CMP write has not matched yet, the prefetch buffer (line, data, and
whether each of its two bundles came back uncorrectable), and the loop cache (base, bundles, bundles held). -/
structure Seq where
  tasks : Vector Task 8
  running : Option TaskId
  last : TaskId
  double : Bool
  cinvReq : Bool
  cc : Nat
  bundle : Option Bundle
  inD : Bool
  loads : List SLoad
  sbuf : List (Nat × List Byte)
  fault : Option FaultRec
  timerArmed : Bool
  pre : List (Nat × Line × Bool × Bool)
  lcBase : Nat
  lcLen : Nat
  lcHeld : List (Nat × BitVec 256)
deriving DecidableEq, Repr

/-- The vector unit of a core (R125, R134..R139): its registers, power state, loads in flight, the slots and buses taken with
the cc at which each is free, the bytes that stores replaced of late, and the bank phases its contiguous beats take (cc, bank,
whether the write phase). -/
structure Vec where
  v : Vector VWord 32
  a : Vector AccWord 4
  vstart : Word
  vfault : Word
  pwr : VPwr
  loads : List VLoad
  units : List (VUnit × Nat)
  late : List Late
  beats : List (Nat × Nat × Bool)
deriving DecidableEq, Repr

/-- The Granary of a core (R181..R203): contents, poisoned 8 B words, 8 B words with a correctable error (log 8), the stored
CRC-16 of weight-class lines (R192), scrub queue, corrected-error tracker (bank and row as one number, count), repair maps
(bank, row, spare) oldest first, of which a row's last entry serves it (R199), repairs asked for, regions to fill. -/
structure Gran where
  bytes : Bytes
  poison : List (Nat × Bool)
  flaws : List (Nat × Bool)
  crc : List (Nat × BitVec 16)
  scrubQ : List Nat
  tracker : List (Nat × Nat)
  repairs : List (Nat × Nat × Nat)
  repairReq : List (Nat × Nat)
  fill : List Nat
deriving DecidableEq, Repr

/-- How far a Loom job has come (R224): in the queue, set up, or with nothing left but its completion. -/
inductive LoomPhase where
  | queued | active | ended
deriving DecidableEq, Repr

/-- The fields of a QSF entry that a job holds a copy of (R238..R240). -/
structure Qsf where
  m : Nat
  sh : Nat
  zp : Nat
  es : Nat
deriving DecidableEq, Repr

/-- A job in the Loom (R219..R231): its number, whether LTILE named it, the issuing task and Granary offset, the task's
captured CORE_ARITH_CTRL, its window and descriptors, the QSF entries it read, SKIP_EN and whether it observes its Tally
slot, the tiles loaded, swapped in, streamed and drained, whether its output is written and its Tally latch taken, its
code, what it counted, and what is to end it: a poisoned read, or a ZC row (R230, R284). `flags` are the ARITH classes its
edge cases raised (R68). -/
structure LoomJob where
  id : Nat
  tile : Bool
  task : TaskId
  addr : Nat
  arith : BitVec 3
  phase : LoomPhase
  winBase : Nat
  winLen : Nat
  desc : BitVec 512
  act : BitVec 512
  qsfA : Qsf
  qsfW : List Qsf
  qsfO : List Qsf
  skip : Bool
  observes : Bool
  latched : Bool
  loaded : Nat
  swapped : Nat
  streamed : Nat
  drained : Nat
  code : Nat
  sat : Nat
  nan : Nat
  bad : Bool
  zcRow : Option Nat
  flags : BitVec 4
deriving DecidableEq, Repr

/-- The Loom of a core: its jobs in queue order, the tile in each plane (job, tile number), the planes' C21 codes (K element
× 128 + column), their NONFIN flags, the accumulator bank's FP32 codes (row × 128 + column), and the TAG shown (R207, R212,
R215, R234). -/
structure Loom where
  jobs : List LoomJob
  nextId : Nat
  back : Option (Nat × Nat)
  front : Option (Nat × Nat)
  backW : List (Nat × BitVec 21)
  frontW : List (Nat × BitVec 21)
  backNonfin : Bool
  frontNonfin : Bool
  acc : List (Nat × Word)
  tag : BitVec 16
deriving DecidableEq, Repr

/-- A Tally slot's step and window (R242..R249): whether a step is open, full and closed, its extremes as FP32 codes, its
counts, the jobs latched into it and those of them completed, the limits and configuration in force at its close, and the
window's (max, min) pairs, oldest first. -/
structure TallySlot where
  isOpen : Bool
  full : Bool
  closed : Bool
  mx : Option Word
  mn : Option Word
  sat : Nat
  tot : Nat
  latched : Nat
  done : Nat
  cfg : Nat
  lim : Nat
  smin : Nat
  smax : Nat
  window : List (Word × Word)
deriving DecidableEq, Repr

/-- A Sieve call in the queue (R333): descriptor address and latched window; once run, what its completion holds. -/
structure SieveCall where
  addr : Word
  winBase : Nat
  winLen : Nat
  run : Bool
  code : Nat
  kept : Nat
  passed : Nat
  ctr : Nat
deriving DecidableEq, Repr

/-- A segment of a running Carter descriptor (R354, R359, R364): source and destination address words, length, the next
byte to read and to write, the pieces in the staging buffers by their offset, and its first error. -/
structure Seg where
  src : BitVec 64
  dst : BitVec 64
  len : Nat
  rd : Nat
  wr : Nat
  buf : List (Nat × Line)
  err : Nat
deriving DecidableEq, Repr

/-- A descriptor a channel has taken (R349, R350, R358): its local address, the ring slot it came from, its window, and,
once set up, its bytes and segments; `code` is a code that setup found. `run` and `tested` are the pacing state (R361);
`chunks` the staging buffers it holds, each by segment, chunk number and bytes written (R359); `slots` the ring slots a PUT has
written (R355). -/
structure DescRun where
  addr : Nat
  ring : Option (Nat × Nat)
  winBase : Nat
  winLen : Nat
  isSetUp : Bool
  desc : BitVec 512
  segs : List Seg
  code : Nat
  run : Bool
  tested : Bool
  chunks : List (Nat × Nat × Nat)
  slots : List Nat
deriving DecidableEq, Repr

/-- A Carter channel (R349, R366): queued descriptors (Granary offset, window base and length), the running one, and the
TAG shown. -/
structure Chan where
  queue : List (Nat × Nat × Nat)
  run : Option DescRun
  tag : BitVec 16
deriving DecidableEq, Repr

/-- The Carter of a core (R344..R366): channels, the held copies of JOB ring heads (by ring), ring completions written out
of order (ring × 2^32 + index), the channels that the last read and the last write beat of each PRIO went to (R360), and the writes that
outlived their descriptor (transaction tag, descriptor TAG, ring of a PUT). -/
structure Carter where
  chans : List (Nat × Chan)
  held : List (Nat × Line)
  doneOut : List (Nat × Bool)
  rdLast : Vector Nat 8
  wrLast : Vector Nat 8
  late : List (Nat × BitVec 16 × Option Nat)
deriving DecidableEq, Repr

/-- One core. `copies` are its copies of the 192 row counters (R316); `watchArmed` its watches not yet fired (R319). -/
structure Core where
  seq : Seq
  vec : Vec
  gran : Gran
  loom : Loom
  tally : List (Nat × TallySlot)
  sieve : List SieveCall
  carter : Carter
  copies : List (Nat × Word)
  watchArmed : Vector Bool 4
deriving DecidableEq, Repr

/-- A task context before any job start (log 4): every register 0, TASK of SR its own number. -/
def Task.reset (t : Nat) : Task :=
  { s := Vector.replicate 32 0, p := Vector.replicate 8 0, pb := Vector.replicate 8 0, pl := Vector.replicate 8 0,
    lc := Vector.replicate 4 0, le := Vector.replicate 4 0, ls := Vector.replicate 4 0, dsp := 0, rstk := [],
    sr := BitVec.ofNat 16 (t * 128), pc := 0, st := .free, wait := .none, arith := 0, job := none, haltReq := false,
    longTold := false, lockOut := none, waits := [] }

/-- The eight task contexts before any job start. -/
def tasksReset : Vector Task 8 := Vector.ofFn (fun t => Task.reset t.val)

/-- A core held in reset (R95, R119, R125, R160; log 4). -/
def Core.reset : Core :=
  { seq := { tasks := tasksReset, running := none, last := 0, double := false, cinvReq := false, cc := 0,
             bundle := none, inD := false, loads := [], sbuf := [], fault := none, timerArmed := false, pre := [], lcBase := 0,
             lcLen := 0, lcHeld := [] },
    vec := { v := Vector.replicate 32 0, a := Vector.replicate 4 0, vstart := 0, vfault := 0, pwr := .down,
             loads := [], units := [], late := [], beats := [] },
    gran := { bytes := [], poison := [], flaws := [], crc := [], scrubQ := [], tracker := [], repairs := [], repairReq := [], fill := [] },
    loom := { jobs := [], nextId := 0, back := none, front := none, backW := [], frontW := [], backNonfin := false,
              frontNonfin := false, acc := [], tag := 0 },
    tally := [], sieve := [],
    carter := { chans := [], held := [], doneOut := [], rdLast := Vector.replicate 8 0, wrLast := Vector.replicate 8 0, late := [] },
    copies := [], watchArmed := Vector.replicate 4 false }

/-- A Tally slot with no step open and an empty window. -/
def TallySlot.idle : TallySlot :=
  { isOpen := false, full := false, closed := false, mx := none, mn := none, sat := 0, tot := 0, latched := 0,
    done := 0, cfg := 0, lim := 0, smin := 0, smax := 0, window := [] }

/-- A Carter channel with nothing queued or running. -/
def Chan.idle : Chan := { queue := [], run := none, tag := 0 }

end Sys2Proof.Machine
end

