-- ==== Sys2Proof/Machine/StateIo.lean ====
section
/-! DEFINITION. The parts of the state outside the cores that are no CSR word: DRAM, requests in flight, locks, the
Hopper, the fabric, the host port, the event arbiter and Ledger, the management controller, the security block and
the Assay engine (10, 13..19). -/

namespace Sys2Proof.Machine

/-- The DRAM (R369..R377): contents, poisoned lines (line number), lines with a correctable error (log 8), lines queued for a scrub write-back by channel, the
corrected-error trackers by channel, rows repaired (channel, row, hard),
retirements asked for (channel, reason), the channel moved to the spare reserve, the channels retired without a move, and the failed
attempts of the accesses that no request in flight stands for (R373, channel × 16 + Tollgate input). -/
structure Dram where
  bytes : Bytes
  poison : List (Nat × Bool)
  flaws : List (Nat × Bool)
  scrubQ : List (Nat × List Nat)
  tracker : List (Nat × List (Nat × Nat))
  repairs : List (Nat × Nat × Bool)
  retireQ : List (Nat × Nat)
  moved : Option Nat
  lost : List Nat
  fails : List (Nat × Nat)
deriving DecidableEq, Repr

/-- Who a request belongs to (R378): a Carter channel's segment at an offset, or a peer's request through a window, with
its arrival port, requester and tag. -/
inductive ReqFrom where
  | carter (c : CoreId) (ch : ChanId) (seg off : Nat)
  | peer (port : PortId) (win : BitVec 8) (requester : BitVec 16) (tag : BitVec 16)
deriving DecidableEq, Repr

/-- Where a part of a request stands (R380, R185, R379): before its Tollgate, granted by it, or performed. -/
inductive ReqStage where
  | atGate | granted | done
deriving DecidableEq, Repr

/-- One line (or one word of a CSR COPY) of a request: its address and length, a write's data or what a read brought, its
stage, the cc it has waited for its bank (R187) and the failed attempts at a DRAM (R373). -/
structure ReqPart where
  addr : Nat
  len : Nat
  data : List Byte
  stage : ReqStage
  age : Nat
  tries : Nat
deriving DecidableEq, Repr

/-- A read or write request in flight: its transaction tag, requester, parts, whether it went to a peer (`remote`; its
parts then hold the address word), whether a read came back poisoned, the error that answers it, and whether its
response is to be discarded (R364, R366). -/
structure MemReq where
  tag : Nat
  sender : ReqFrom
  write : Bool
  remote : Bool
  parts : List ReqPart
  bad : Bool
  err : Nat
  dead : Bool
deriving DecidableEq, Repr

/-- A lock (R385): its owner while held, BROKEN, GEN and its waiters in order. -/
structure Lock where
  owner : Option Owner
  broken : Bool
  gen : BitVec 16
  waiters : List Owner
deriving DecidableEq, Repr

/-- A lock that nobody has taken. -/
def Lock.idle : Lock := { owner := none, broken := false, gen := 0, waiters := [] }

/-- An event on its way to the arbiter (R437, R438): code, SOURCE, domain and count of its raising, arguments, and the
arbiter input it waits at. -/
structure Ev where
  code : Nat
  source : Nat
  dom : Nat
  tick : Nat
  args : List Nat
  input : Nat
deriving DecidableEq, Repr

/-- A stripe piece still to write for a line: the core, and whether its pixels are in and its header is to follow. -/
structure PieceTodo where
  core : CoreId
  pixels : Bool
deriving DecidableEq, Repr

/-- A row of a camera in the Hopper (R296..R301): its place in the swath, the swath by the camera's own count and as its header
shows it, header facts, the delivered format (DELIV) and codes, the plan in force, whether the line is
still arriving, blocks held (none for a lost row), pieces still to write, and the DRAM copy still to write. -/
structure PoolRow where
  row : Nat
  swath : Nat
  shown : Nat
  deliv : Nat
  plan : Nat
  tick : Nat
  xsize : Nat
  pixels : List (BitVec 16)
  isOpen : Bool
  crcErr : Bool
  lenErr : Bool
  last : Bool
  conns : BitVec 16
  lostTotal : Nat
  loss : Nat
  blocks : Nat
  todo : List PieceTodo
  dram : Bool
deriving DecidableEq, Repr

/-- A loss run (R299): its swath as the events show it, first row, length, the swath (by the camera's own count) and row of its
last line, and whether it has closed. -/
structure LossRun where
  swath : Nat
  first : Nat
  len : Nat
  endSwath : Nat
  endRow : Nat
  closed : Bool
deriving DecidableEq, Repr

/-- A control command for a camera (R291, R431). -/
structure CamCmd where
  msg : Nat
  write : Bool
  addr : BitVec 64
  data : List Byte
  len : Nat
deriving DecidableEq, Repr

/-- A camera binding beside its registers (R291..R305): the image header in force, the image headers ever received and those
before the binding (R302), the next row, the lines lost,
the rows held, the loss runs, whether the last line was lost, whether a full run queue drops every line (R299), whether the
link is lost (R304), the connections that carry the camera, whether the discovery to come is a sparing's (R305), the triggers and
control commands waiting, the command outstanding, and whether the DRAM copy of the swath is valid (R308). -/
structure Cam where
  hdrX : Nat
  hdrY : Nat
  hdrSrc : Option Mono
  swath : Nat
  bound : Nat
  nextRow : Nat
  lostTotal : Nat
  rows : List PoolRow
  runs : List LossRun
  lastLost : Bool
  runFull : Bool
  linkLost : Bool
  conns : BitVec 16
  sparing : Bool
  trigQ : List Bool
  cmdQ : List CamCmd
  cmdOut : Option CamCmd
  dramOk : Bool
deriving DecidableEq, Repr

/-- A camera binding that nothing has used. -/
def Cam.idle : Cam :=
  { hdrX := 0, hdrY := 0, hdrSrc := none, swath := 0, bound := 0, nextRow := 0, lostTotal := 0, rows := [], runs := [],
    lastLost := false, runFull := false, linkLost := false, conns := 0, sparing := false, trigQ := [], cmdQ := [], cmdOut := none, dramOk := false }

/-- What the Hopper keeps for a core's ring that takes a camera's pieces (R308, R312..R315): the camera, its plan and the swath it
serves, the rows of each later swath whose end is known, and whether the piece was found valid. -/
structure PipeRing where
  cam : Option CamId
  plan : Nat
  swath : Nat
  ends : List (Nat × Nat)
  valid : Bool
deriving DecidableEq, Repr

/-- A ring that no camera feeds. -/
def PipeRing.idle : PipeRing := { cam := none, plan := 0, swath := 0, ends := [], valid := false }

/-- What the part has sent out (log 3): a fabric packet, a LOCK or LOCK_RESP packet with its operation or result, a CONTROL
packet by its port, type and fields, credits returned for a receive buffer, a host frame (destination station, network address and port, encapsulation, VLAN identifier, MACsec AN and PN, unit), an
ARP or neighbour answer with the same VLAN identifier and protection, a PHY-side or camera-side signal, an SMBus answer (`none` a NACK), a regulator command, and a pin. -/
inductive Out where
  | packet (port : Nat) (k : Packet)
  | lock (port : Nat) (k : Packet) (op lock : Nat)
  | lockResp (port : Nat) (k : Packet) (result : Nat) (broken : Bool)
  | ringPut (port : Nat) (k : Packet) (ring : Nat)
  | control (port : Nat) (ctype : Nat) (minus : Bool) (arg : Nat) (line : Option (BitVec 64 × BitVec 16 × BitVec 8)) (src : Nat)
  | credits (port buf n : Nat)
  | host (dst : BitVec 48) (net : List Byte) (encap : Nat) (vid : Option Nat) (sec : Option (Nat × Nat)) (bytes : List Byte)
  | neighbour (dst : BitVec 48) (v6 : Bool) (vid : Option Nat) (sec : Option (Nat × Nat))
  | smb (data : Option (List Byte))
  | trigger (cam : CamId) (falling : Bool)
  | camera (cam : CamId) (cmd : CamCmd)
  | camAck (cam : CamId)
  | vout (up : Bool)
  | pin (name : String) (high : Bool)
  | jtag (w : Word)
deriving DecidableEq, Repr

/-- A packet waiting for the credits of a receive buffer at the far end of a port (R403): its port and buffer, its cost, whether
it is forwarded, the port and buffer it arrived in, and what leaves. -/
structure OutPkt where
  port : Nat
  buf : Nat
  cost : Nat
  fwd : Bool
  arrived : Option (Nat × Nat)
  out : Out
deriving DecidableEq, Repr

/-- A fabric ring beside its registers (R419): the TAG of the RING_PUT awaiting its response, and whether the entry waits
to be sent again after NACK_RING_FULL. -/
structure FabRing where
  sent : Option Nat
  again : Bool
deriving DecidableEq, Repr

/-- A fabric ring with nothing in flight. -/
def FabRing.idle : FabRing := { sent := none, again := false }

/-- The Drover beside its registers (R404..R421): whether a vote stopped it, route entries whose vote failed, peers declared
lost, lock ports with an operation outstanding (port, TAG + 1), peers whose lock operation is outstanding here (address × 1024 +
lock, TAG + 1), fabric rings in flight, packets waiting for credits, oldest first, the walk under way (axis, minus side), what the walks found (per axis: plus count, minus count,
ring), the axis along which the device's address came, and the root identity, shape and origin its ASSIGN carried. -/
structure Fab where
  stopped : Bool
  badRoutes : List Nat
  lost : List Nat
  lockOut : List (Nat × Nat)
  peerLocks : List (Nat × Nat)
  rings : List (Nat × FabRing)
  outQ : List OutPkt
  walk : Option (Nat × Bool)
  counts : Vector (Nat × Nat × Bool) 3
  heldAxis : Option Nat
  rootId : BitVec 64
  shape : BitVec 16
deriving DecidableEq, Repr

/-- The Drover after reset. -/
def Fab.reset : Fab :=
  { stopped := false, badRoutes := [], lost := [], lockOut := [], peerLocks := [], rings := [], outQ := [], walk := none,
    counts := Vector.replicate 3 (0, 0, false), heldAxis := none, rootId := 0, shape := 0 }

/-- A message of the session (R430, R431): its OP, DLEN and TAG, the words of its operation, and its data. -/
structure HMsg where
  op : Nat
  dlen : Nat
  tag : Nat
  words : List Byte
  data : List Byte
deriving DecidableEq, Repr

/-- A unit sent and not yet acknowledged (R428): its SEQ, its messages, and the host rings whose entries it carries with
how many (R436). -/
structure TxUnit where
  seq : Nat
  msgs : List Byte
  rings : List (Nat × Nat)
deriving DecidableEq, Repr

/-- MACsec keys of a session (R441): SAK and salt for each direction, and the AN. -/
structure MacKeys where
  rx : BitVec 352
  tx : BitVec 352
  an : Nat
deriving DecidableEq, Repr

/-- The host port beside its registers (R426..R442): the session number, the station the session's frames go to and its network address and port, the next
SEQ of each direction, the units unacknowledged and those waiting for room, whether an acceptance has not been
acknowledged, the messages waiting, the TAG of the LOCK being performed, the lock that the host waits for with the TAG of that
LOCK, the camera event packets to send on, the camera commands not yet answered, the MACsec keys and PN, the draw of the ephemeral key pair, whether
the rekey event was raised, and the host ring whose turn is next. -/
structure HostPort where
  session : Nat
  peer : BitVec 48
  net : List Byte
  rxNext : Nat
  txNext : Nat
  unacked : List TxUnit
  backlog : List (List Byte × List (Nat × Nat))
  owesAck : Bool
  inbox : List HMsg
  lockTag : Option Nat
  lockWait : Option (Nat × Nat)
  camEvents : List (Nat × List Byte)
  camOut : Nat
  keys : Option MacKeys
  pn : Nat
  kem : Option (BitVec 512)
  rekeyTold : Bool
  turn : Nat
deriving DecidableEq, Repr

/-- The host port with no session yet. -/
def HostPort.reset : HostPort :=
  { session := 0, peer := 0, net := [], rxNext := 0, txNext := 0, unacked := [], backlog := [], owesAck := false, inbox := [],
    lockTag := none, lockWait := none, camEvents := [], camOut := 0, keys := none, pn := 0, kem := none, rekeyTold := false, turn := 0 }

end Sys2Proof.Machine
end

