-- ==== Sys2Proof/Machine/StateSys.lean ====
section
/-! DEFINITION. The parts of the state of the Ledger, the management controller, the security block and the Assay engine
that are no CSR word (16..19). -/

namespace Sys2Proof.Machine

/-- What a journal entry makes permanent (R500, R508): a bit of the RETIRE bank, a Granary row's spare, or a DRAM row for hard
repair. -/
inductive JKind where
  | retire (bit : Nat)
  | repair (core bank row spare : Nat)
  | dramRow (ch row : Nat)
deriving DecidableEq, Repr

/-- A journal entry (R505): what it records, its event's record, and whether it has been spilled and fused. -/
structure JEntry where
  kind : JKind
  line : Line
  spilled : Bool
  fused : Bool
deriving DecidableEq, Repr

/-- An event record in the Ledger's ring (R438, R504). -/
structure Record where
  seq : Nat
  sev : Nat
  line : Line
deriving DecidableEq, Repr

/-- The event arbiter and the Ledger (R437, R439, R503..R506): whether BOOT_RESET has been raised, the next EVSEQ, the ring oldest
first, the next EVSEQ to copy and to spill, the runs overwritten before their spill (first EVSEQ, length), the journal in order,
the start-up number, and the next page number. -/
structure Ledger where
  started : Bool
  next : Nat
  ring : List Record
  copyNext : Nat
  spillNext : Nat
  gaps : List (Nat × Nat)
  journal : List JEntry
  boot : Nat
  pseq : Nat
deriving DecidableEq, Repr

/-- A flash command (R447): erase of a sector, or program of a page. -/
inductive FlashCmd where
  | erase (addr : Nat)
  | program (addr : Nat) (data : List Byte)
deriving DecidableEq, Repr

/-- A flash store (R459, R466): its area, lines and source; once it has begun, the commands still to issue, each with whether it
ends a copy. -/
structure Store where
  area : Nat
  lines : Nat
  src : Nat
  begun : Bool
  cmds : List (FlashCmd × Bool)
deriving DecidableEq, Repr

/-- The management controller (16, 19): what holds the device in reset (RESET_N low, supplies below their band, a thermal trip),
whether the input supply has failed, whether a boot phase has stopped for good, whether start-up waits after a configuration conflict, image facts (IMG_SEQ and
SVN of the running image, and its digest as loaded), the digest of the FCAL area as read, images that failed (slot, IMG_SEQ, check), the applied copy's SEQ and DIGEST, the applied user
calibration (ITEM, INDEX, value) and its DIGEST, the stores in order, the configuration copies to repair, the applied copy's bytes, the ROM's page buffer, each regulator's last reading
(mV, mA), the power request P, and SMB_ALERT_N low. -/
structure Mgmt where
  resetLow : Bool
  railLow : List Nat
  tripped : Bool
  supplyFailed : Bool
  halted : Bool
  waiting : Bool
  imgSeq : Nat
  imgSvn : Nat
  imgDigest : BitVec 256
  fcalDigest : BitVec 256
  failed : List (Nat × Nat × Nat)
  cfgSeq : Nat
  cfgDigest : BitVec 256
  ucal : List (Nat × Nat × Int)
  ucalDigest : BitVec 256
  stores : List Store
  repair : List Nat
  cfgBytes : List Byte
  pageBuf : List Byte
  vr : Vector (Nat × Nat) 4
  p : Nat
  alert : Bool
deriving DecidableEq, Repr

/-- The management controller while the device is first held in reset. -/
def Mgmt.reset : Mgmt :=
  { resetLow := true, railLow := [], tripped := false, supplyFailed := false, halted := false, waiting := false,
    imgSeq := 0, imgSvn := 0, imgDigest := 0, fcalDigest := 0, failed := [], cfgSeq := 0, cfgDigest := 0, ucal := [], ucalDigest := 0,
    stores := [], repair := [], cfgBytes := [], pageBuf := List.replicate 256 0, vr := Vector.replicate 4 (0, 0), p := 0, alert := false }

/-- A fuse operation (R470): bits of the SVN_FLOOR bank, or one cell of the LC bits. -/
inductive FuseOp where
  | svn (floor : Nat)
  | lc (cell : Fin 3) (target : Nat)
deriving DecidableEq, Repr

/-- The fuse banks of R469; LC by its three cells, SEG by the bits programmed, REPAIR by its entries. -/
structure Fuses where
  fwPk : BitVec 512
  svn : Nat
  lc : Vector (BitVec 5) 3
  secret : BitVec 1024
  devPk : BitVec 512
  keyCheck : BitVec 256
  seg : Nat
  fcalDig : BitVec 256
  retire : BitVec 60
  repair : List (Nat × Nat × Nat × Nat)
deriving DecidableEq, Repr

/-- The banks of the part that State.reset stands for (log 5). -/
def Fuses.reset : Fuses :=
  { fwPk := Config.fwPk, svn := Config.svnFloor, lc := Vector.replicate 3 Config.lcBits, secret := Config.secret,
    devPk := Config.devPk, keyCheck := Config.keyCheck, seg := Config.segBits, fcalDig := Config.fcalDig, retire := 0,
    repair := [] }

/-- A signature request (R486): the host's TAG and session, the report's bytes 0..279, and what follows the signature. -/
structure SignReq where
  tag : Nat
  session : Nat
  report : List Byte
  tail : List Byte
deriving DecidableEq, Repr

/-- The security block (17): its fuses, the fuse operations in order, the target of a transition under way, what waits on hold-up
energy (0 the fuse operation at the head, 1 a leaf reservation, 2 key generation, 3 a fuse window), signature requests in order,
the number of the newest record, whether a reservation is asked for, and whether the resume point has been found. -/
structure Sec where
  fuses : Fuses
  ops : List FuseOp
  target : Option Nat
  deferred : List Nat
  signQ : List SignReq
  recSeq : Option Nat
  reserve : Bool
  resumed : Bool
deriving DecidableEq, Repr

/-- The security block of the part that State.reset stands for. -/
def Sec.reset : Sec :=
  { fuses := Fuses.reset, ops := [], target := none, deferred := [], signQ := [], recSeq := none, reserve := false,
    resumed := false }

/-- The Assay engine (R490..R499): cores given notice whose start time is to come, cores whose start time has moved to the end
of the running slice, whether the slice was requested from outside, and the driver's MATRIX_EN. -/
structure Assay where
  noticed : List Nat
  moved : List Nat
  external : Bool
  matrixEn : Bool
deriving DecidableEq, Repr

/-- The Assay engine with nothing scheduled. -/
def Assay.idle : Assay := { noticed := [], moved := [], external := false, matrixEn := false }

/-- A mirrored register (R460): how its second and third copies differ from the first, as exclusive-or masks. -/
abbrev Mirror := List (Nat × (Word × Word))

end Sys2Proof.Machine
end

