-- ==== Sys2Proof/RegMap.lean ====
section
/-! DEFINITION. The register map: every CSR of the part, its address, and the type, class and reset value of each
field, as the register tables of the chapters give them (R6..R8; R457 and R537 for the values that come from
configuration and fuses). A name is the register's own; a field is named REGISTER_FIELD. -/

namespace Sys2Proof

/-- The field types of R6. -/
inductive FTy where
  | ro | rw | w1c | w1s | wo | rc
deriving DecidableEq, Repr

/-- The field classes of R8. -/
inductive FCls where
  | live | staged | locked
deriving DecidableEq, Repr

/-- The blocks that hold registers; `tg` is a Tollgate's set (R393), `dramCh` a channel's (R392). -/
inductive Blk where
  | global | core | dram | dramCh | fabric | host | hopper | lock | event | sec | assay | mgmt | tg
deriving DecidableEq, Repr

/-- A register family: the block, the offset in it, the spacing and number of its instances, and whether it has
64 bits. `rst` is the reset value of the whole register. -/
structure RegFam where
  blk : Blk
  off : Nat
  stride : Nat
  count : Nat
  wide : Bool
  rst : BitVec 64
deriving DecidableEq, Repr

/-- A field: its register family, place and width, type and class. -/
structure Fld where
  reg : RegFam
  lsb : Nat
  width : Nat
  ty : FTy
  cls : FCls
deriving DecidableEq, Repr

/-- The base of Tollgate `u` (R393, R422, R443): 0..7 DRAM channels, 8..13 Granary read ports, 14..19 Granary write
ports, 20..25 fabric output ports, 26 the event arbiter. -/
def gateBase (u : Nat) : Nat :=
  if u < 8 then 0x0200_0000 + 0x1_1000 + u * 0x1_0000
  else if u < 14 then 0x0100_0000 + (u - 8) * 0x10_0000 + 0xC000
  else if u < 20 then 0x0100_0000 + (u - 14) * 0x10_0000 + 0xC400
  else if u < 26 then 0x0300_0000 + 0x3000 + (u - 20) * 0x400
  else 0x0700_0000 + 0x0100

/-- The base of unit `u` of a block, as an offset in the CSR space. -/
def Blk.base (b : Blk) (u : Nat) : Nat :=
  match b with
  | .global => 0x0000_0000
  | .core => 0x0100_0000 + u * 0x10_0000
  | .dram => 0x0200_0000
  | .dramCh => 0x0200_0000 + 0x1_0000 + u * 0x1_0000
  | .fabric => 0x0300_0000
  | .host => 0x0400_0000
  | .hopper => 0x0500_0000
  | .lock => 0x0600_0000
  | .event => 0x0700_0000
  | .sec => 0x0800_0000
  | .assay => 0x0900_0000
  | .mgmt => 0x0A00_0000
  | .tg => gateBase u

/-- The CSR offset of instance `i` of a family in unit `u` of its block. -/
def RegFam.addr (r : RegFam) (u i : Nat) : Nat := r.blk.base u + r.off + i * r.stride

namespace Reg

/-- GLOBAL_PART_ID (01). -/
def GLOBAL_PART_ID : RegFam := ⟨.global, 0x0, 0x0, 1, false, 0x62400600 ||| (Config.siliconStep &&& 0xFF)⟩
def GLOBAL_PART_ID_PART : Fld := ⟨GLOBAL_PART_ID, 16, 16, .ro, .live⟩
def GLOBAL_PART_ID_CORES_BUILT : Fld := ⟨GLOBAL_PART_ID, 8, 8, .ro, .live⟩
def GLOBAL_PART_ID_STEP : Fld := ⟨GLOBAL_PART_ID, 0, 8, .ro, .live⟩
/-- GLOBAL_UNITS (01). -/
def GLOBAL_UNITS : RegFam := ⟨.global, 0x8, 0x0, 1, false, 0x3FFF3F⟩
def GLOBAL_UNITS_CORE_OK : Fld := ⟨GLOBAL_UNITS, 0, 6, .ro, .live⟩
def GLOBAL_UNITS_DRAM_OK : Fld := ⟨GLOBAL_UNITS, 8, 8, .ro, .live⟩
def GLOBAL_UNITS_PORT_OK : Fld := ⟨GLOBAL_UNITS, 16, 6, .ro, .live⟩
/-- GLOBAL_CFG_BUSY (01). -/
def GLOBAL_CFG_BUSY : RegFam := ⟨.global, 0x10, 0x0, 1, true, 0⟩
def GLOBAL_CFG_BUSY_OFFSET : Fld := ⟨GLOBAL_CFG_BUSY, 2, 26, .rc, .live⟩
def GLOBAL_CFG_BUSY_VALID : Fld := ⟨GLOBAL_CFG_BUSY, 31, 1, .rc, .live⟩
def GLOBAL_CFG_BUSY_COUNT : Fld := ⟨GLOBAL_CFG_BUSY, 32, 16, .rc, .live⟩
/-- GLOBAL_TICK_CC (01). -/
def GLOBAL_TICK_CC : RegFam := ⟨.global, 0x100, 0x0, 1, true, 0⟩
def GLOBAL_TICK_CC_COUNT : Fld := ⟨GLOBAL_TICK_CC, 0, 64, .ro, .live⟩
/-- GLOBAL_TICK_NC (01). -/
def GLOBAL_TICK_NC : RegFam := ⟨.global, 0x108, 0x0, 1, true, 0⟩
def GLOBAL_TICK_NC_COUNT : Fld := ⟨GLOBAL_TICK_NC, 0, 64, .ro, .live⟩
/-- GLOBAL_TICK_FC (01). -/
def GLOBAL_TICK_FC : RegFam := ⟨.global, 0x110, 0x0, 1, true, 0⟩
def GLOBAL_TICK_FC_COUNT : Fld := ⟨GLOBAL_TICK_FC, 0, 64, .ro, .live⟩
/-- GLOBAL_TICK_MC (01). -/
def GLOBAL_TICK_MC : RegFam := ⟨.global, 0x118, 0x0, 1, true, 0⟩
def GLOBAL_TICK_MC_COUNT : Fld := ⟨GLOBAL_TICK_MC, 0, 64, .ro, .live⟩
/-- GLOBAL_TICK_HC (01). -/
def GLOBAL_TICK_HC : RegFam := ⟨.global, 0x120, 0x0, 1, true, 0⟩
def GLOBAL_TICK_HC_COUNT : Fld := ⟨GLOBAL_TICK_HC, 0, 64, .ro, .live⟩
/-- GLOBAL_TICK_XC (01). -/
def GLOBAL_TICK_XC : RegFam := ⟨.global, 0x128, 0x0, 1, true, 0⟩
def GLOBAL_TICK_XC_COUNT : Fld := ⟨GLOBAL_TICK_XC, 0, 64, .ro, .live⟩
/-- GLOBAL_TICK_KC (01). -/
def GLOBAL_TICK_KC : RegFam := ⟨.global, 0x130, 0x0, 1, true, 0⟩
def GLOBAL_TICK_KC_COUNT : Fld := ⟨GLOBAL_TICK_KC, 0, 64, .ro, .live⟩
/-- CORE_ARITH_CTRL (02). -/
def CORE_ARITH_CTRL : RegFam := ⟨.core, 0x800, 0x0, 1, false, 0⟩
def CORE_ARITH_CTRL_E5M2_INF : Fld := ⟨CORE_ARITH_CTRL, 0, 1, .rw, .staged⟩
def CORE_ARITH_CTRL_FP16_INF : Fld := ⟨CORE_ARITH_CTRL, 1, 1, .rw, .staged⟩
def CORE_ARITH_CTRL_BF16_INF : Fld := ⟨CORE_ARITH_CTRL, 2, 1, .rw, .staged⟩
/-- CORE_ARITH_FLAGS (02). -/
def CORE_ARITH_FLAGS : RegFam := ⟨.core, 0x808, 0x0, 1, false, 0⟩
def CORE_ARITH_FLAGS_OV : Fld := ⟨CORE_ARITH_FLAGS, 0, 1, .w1c, .live⟩
def CORE_ARITH_FLAGS_DZ : Fld := ⟨CORE_ARITH_FLAGS, 1, 1, .w1c, .live⟩
def CORE_ARITH_FLAGS_SAT : Fld := ⟨CORE_ARITH_FLAGS, 2, 1, .w1c, .live⟩
def CORE_ARITH_FLAGS_NAN : Fld := ⟨CORE_ARITH_FLAGS, 3, 1, .w1c, .live⟩
/-- CORE_EXC_EN (02). -/
def CORE_EXC_EN : RegFam := ⟨.core, 0x810, 0x0, 1, false, 0⟩
def CORE_EXC_EN_OV : Fld := ⟨CORE_EXC_EN, 0, 1, .rw, .live⟩
def CORE_EXC_EN_DZ : Fld := ⟨CORE_EXC_EN, 1, 1, .rw, .live⟩
def CORE_EXC_EN_SAT : Fld := ⟨CORE_EXC_EN, 2, 1, .rw, .live⟩
def CORE_EXC_EN_NAN : Fld := ⟨CORE_EXC_EN, 3, 1, .rw, .live⟩
/-- CORE_EXC_CAUSE (02). -/
def CORE_EXC_CAUSE : RegFam := ⟨.core, 0x818, 0x0, 1, false, 0⟩
def CORE_EXC_CAUSE_CLASS : Fld := ⟨CORE_EXC_CAUSE, 0, 4, .rc, .live⟩
def CORE_EXC_CAUSE_UNIT : Fld := ⟨CORE_EXC_CAUSE, 4, 2, .rc, .live⟩
def CORE_EXC_CAUSE_VALID : Fld := ⟨CORE_EXC_CAUSE, 31, 1, .rc, .live⟩
/-- CORE_SAT_CNT_SEQ (02). -/
def CORE_SAT_CNT_SEQ : RegFam := ⟨.core, 0x820, 0x0, 1, false, 0⟩
def CORE_SAT_CNT_SEQ_COUNT : Fld := ⟨CORE_SAT_CNT_SEQ, 0, 32, .rc, .live⟩
/-- CORE_SAT_CNT_VEC (02). -/
def CORE_SAT_CNT_VEC : RegFam := ⟨.core, 0x828, 0x0, 1, false, 0⟩
def CORE_SAT_CNT_VEC_COUNT : Fld := ⟨CORE_SAT_CNT_VEC, 0, 32, .rc, .live⟩
/-- CORE_SAT_CNT_LOOM (02). -/
def CORE_SAT_CNT_LOOM : RegFam := ⟨.core, 0x830, 0x0, 1, false, 0⟩
def CORE_SAT_CNT_LOOM_COUNT : Fld := ⟨CORE_SAT_CNT_LOOM, 0, 32, .rc, .live⟩
/-- CORE_NAN_CNT_VEC (02). -/
def CORE_NAN_CNT_VEC : RegFam := ⟨.core, 0x838, 0x0, 1, false, 0⟩
def CORE_NAN_CNT_VEC_COUNT : Fld := ⟨CORE_NAN_CNT_VEC, 0, 32, .rc, .live⟩
/-- CORE_NAN_CNT_LOOM (02). -/
def CORE_NAN_CNT_LOOM : RegFam := ⟨.core, 0x840, 0x0, 1, false, 0⟩
def CORE_NAN_CNT_LOOM_COUNT : Fld := ⟨CORE_NAN_CNT_LOOM, 0, 32, .rc, .live⟩
/-- CORE_SEQ_CTRL (03). -/
def CORE_SEQ_CTRL : RegFam := ⟨.core, 0x1000, 0x0, 1, false, 0x4⟩
def CORE_SEQ_CTRL_RUN : Fld := ⟨CORE_SEQ_CTRL, 0, 1, .rw, .live⟩
def CORE_SEQ_CTRL_CINV : Fld := ⟨CORE_SEQ_CTRL, 1, 1, .wo, .live⟩
def CORE_SEQ_CTRL_LCACHE_EN : Fld := ⟨CORE_SEQ_CTRL, 2, 1, .rw, .locked⟩
/-- CORE_SEQ_STAT (03). -/
def CORE_SEQ_STAT : RegFam := ⟨.core, 0x1008, 0x0, 1, false, 0⟩
def CORE_SEQ_STAT_ACTIVE : Fld := ⟨CORE_SEQ_STAT, 0, 1, .ro, .live⟩
def CORE_SEQ_STAT_DOUBLE : Fld := ⟨CORE_SEQ_STAT, 1, 1, .ro, .live⟩
def CORE_SEQ_STAT_TASK : Fld := ⟨CORE_SEQ_STAT, 2, 3, .ro, .live⟩
def CORE_SEQ_STAT_LDEPTH : Fld := ⟨CORE_SEQ_STAT, 5, 3, .ro, .live⟩
def CORE_SEQ_STAT_RSTK_DEPTH : Fld := ⟨CORE_SEQ_STAT, 8, 7, .ro, .live⟩
def CORE_SEQ_STAT_SB_USED : Fld := ⟨CORE_SEQ_STAT, 15, 4, .ro, .live⟩
/-- CORE_SEQ_FAULT (03). -/
def CORE_SEQ_FAULT : RegFam := ⟨.core, 0x1010, 0x0, 1, false, 0⟩
def CORE_SEQ_FAULT_CAUSE : Fld := ⟨CORE_SEQ_FAULT, 0, 5, .rc, .live⟩
def CORE_SEQ_FAULT_TASK : Fld := ⟨CORE_SEQ_FAULT, 5, 3, .rc, .live⟩
def CORE_SEQ_FAULT_DEFERRED : Fld := ⟨CORE_SEQ_FAULT, 8, 1, .rc, .live⟩
def CORE_SEQ_FAULT_HALF : Fld := ⟨CORE_SEQ_FAULT, 9, 1, .rc, .live⟩
def CORE_SEQ_FAULT_VALID : Fld := ⟨CORE_SEQ_FAULT, 31, 1, .rc, .live⟩
/-- CORE_SEQ_FADDR (03). -/
def CORE_SEQ_FADDR : RegFam := ⟨.core, 0x1018, 0x0, 1, false, 0⟩
def CORE_SEQ_FADDR_ADDR : Fld := ⟨CORE_SEQ_FADDR, 0, 32, .ro, .live⟩
/-- CORE_SEQ_FPC (03). -/
def CORE_SEQ_FPC : RegFam := ⟨.core, 0x1020, 0x0, 1, false, 0⟩
def CORE_SEQ_FPC_PC : Fld := ⟨CORE_SEQ_FPC, 0, 32, .ro, .live⟩
/-- CORE_STALL_SCB (03). -/
def CORE_STALL_SCB : RegFam := ⟨.core, 0x1040, 0x0, 1, true, 0⟩
def CORE_STALL_SCB_COUNT : Fld := ⟨CORE_STALL_SCB, 0, 64, .rc, .live⟩
/-- CORE_STALL_SB (03). -/
def CORE_STALL_SB : RegFam := ⟨.core, 0x1048, 0x0, 1, true, 0⟩
def CORE_STALL_SB_COUNT : Fld := ⟨CORE_STALL_SB, 0, 64, .rc, .live⟩
/-- CORE_STALL_VWAKE (03). -/
def CORE_STALL_VWAKE : RegFam := ⟨.core, 0x1050, 0x0, 1, true, 0⟩
def CORE_STALL_VWAKE_COUNT : Fld := ⟨CORE_STALL_VWAKE, 0, 64, .rc, .live⟩
/-- CORE_STALL_WAIT (03). -/
def CORE_STALL_WAIT : RegFam := ⟨.core, 0x1058, 0x0, 1, true, 0⟩
def CORE_STALL_WAIT_COUNT : Fld := ⟨CORE_STALL_WAIT, 0, 64, .rc, .live⟩
/-- CORE_STALL_FETCH (03). -/
def CORE_STALL_FETCH : RegFam := ⟨.core, 0x1060, 0x0, 1, true, 0⟩
def CORE_STALL_FETCH_COUNT : Fld := ⟨CORE_STALL_FETCH, 0, 64, .rc, .live⟩
/-- CORE_STALL_LONG (03). -/
def CORE_STALL_LONG : RegFam := ⟨.core, 0x1068, 0x0, 1, true, 0⟩
def CORE_STALL_LONG_COUNT : Fld := ⟨CORE_STALL_LONG, 0, 64, .rc, .live⟩
/-- CORE_SEQ_BUNDLES (03). -/
def CORE_SEQ_BUNDLES : RegFam := ⟨.core, 0x1070, 0x0, 1, true, 0⟩
def CORE_SEQ_BUNDLES_COUNT : Fld := ⟨CORE_SEQ_BUNDLES, 0, 64, .rc, .live⟩
/-- CORE_TIMER_CMP (03). -/
def CORE_TIMER_CMP : RegFam := ⟨.core, 0x1078, 0x0, 1, true, 0xFFFFFFFFFFFFFFFF⟩
def CORE_TIMER_CMP_CMP : Fld := ⟨CORE_TIMER_CMP, 0, 64, .rw, .live⟩
/-- CORE_TASK_CFG_t (03). -/
def CORE_TASK_CFG : RegFam := ⟨.core, 0x1100, 0x20, 8, false, 0⟩
def CORE_TASK_CFG_PRIO : Fld := ⟨CORE_TASK_CFG, 0, 3, .rw, .staged⟩
def CORE_TASK_CFG_STATE : Fld := ⟨CORE_TASK_CFG, 4, 3, .ro, .live⟩
def CORE_TASK_CFG_HALT_REQ : Fld := ⟨CORE_TASK_CFG, 8, 1, .w1s, .live⟩
def CORE_TASK_CFG_RELEASE : Fld := ⟨CORE_TASK_CFG, 9, 1, .w1s, .live⟩
/-- CORE_TASK_GBASE_t (03). -/
def CORE_TASK_GBASE : RegFam := ⟨.core, 0x1108, 0x20, 8, false, 0⟩
def CORE_TASK_GBASE_BASE : Fld := ⟨CORE_TASK_GBASE, 0, 14, .rw, .locked⟩
/-- CORE_TASK_GLEN_t (03). -/
def CORE_TASK_GLEN : RegFam := ⟨.core, 0x1110, 0x20, 8, false, 0⟩
def CORE_TASK_GLEN_LEN : Fld := ⟨CORE_TASK_GLEN, 0, 15, .rw, .locked⟩
/-- CORE_TASK_DSL_t (03). -/
def CORE_TASK_DSL : RegFam := ⟨.core, 0x1118, 0x20, 8, false, 0⟩
def CORE_TASK_DSL_LIMIT : Fld := ⟨CORE_TASK_DSL, 2, 30, .rw, .locked⟩
/-- CORE_IRQ_PEND (03). -/
def CORE_IRQ_PEND : RegFam := ⟨.core, 0x1200, 0x0, 1, false, 0⟩
def CORE_IRQ_PEND_PEND : Fld := ⟨CORE_IRQ_PEND, 0, 16, .w1c, .live⟩
/-- CORE_IRQ_EN (03). -/
def CORE_IRQ_EN : RegFam := ⟨.core, 0x1208, 0x0, 1, false, 0x3⟩
def CORE_IRQ_EN_FIXED : Fld := ⟨CORE_IRQ_EN, 0, 2, .ro, .live⟩
def CORE_IRQ_EN_EN : Fld := ⟨CORE_IRQ_EN, 4, 12, .rw, .live⟩
/-- CORE_IRQ_SET (03). -/
def CORE_IRQ_SET : RegFam := ⟨.core, 0x1210, 0x0, 1, false, 0⟩
def CORE_IRQ_SET_SET : Fld := ⟨CORE_IRQ_SET, 4, 12, .wo, .live⟩
/-- CORE_IRQ_VEC_i (03). -/
def CORE_IRQ_VEC : RegFam := ⟨.core, 0x1300, 0x8, 16, true, 0⟩
def CORE_IRQ_VEC_HANDLER : Fld := ⟨CORE_IRQ_VEC, 5, 27, .rw, .live⟩
def CORE_IRQ_VEC_TASK : Fld := ⟨CORE_IRQ_VEC, 32, 3, .rw, .live⟩
/-- CORE_VEC_CTRL (04). -/
def CORE_VEC_CTRL : RegFam := ⟨.core, 0x1400, 0x0, 1, false, 0x10002⟩
def CORE_VEC_CTRL_HALF : Fld := ⟨CORE_VEC_CTRL, 0, 1, .rw, .locked⟩
def CORE_VEC_CTRL_PD_EN : Fld := ⟨CORE_VEC_CTRL, 1, 1, .rw, .live⟩
def CORE_VEC_CTRL_WAKE : Fld := ⟨CORE_VEC_CTRL, 2, 1, .wo, .live⟩
def CORE_VEC_CTRL_IDLE : Fld := ⟨CORE_VEC_CTRL, 8, 16, .rw, .live⟩
/-- CORE_VEC_STAT (04). -/
def CORE_VEC_STAT : RegFam := ⟨.core, 0x1408, 0x0, 1, false, 0⟩
def CORE_VEC_STAT_PWR : Fld := ⟨CORE_VEC_STAT, 0, 2, .ro, .live⟩
def CORE_VEC_STAT_SLOT_BUSY : Fld := ⟨CORE_VEC_STAT, 2, 4, .ro, .live⟩
def CORE_VEC_STAT_BUS_BUSY : Fld := ⟨CORE_VEC_STAT, 6, 3, .ro, .live⟩
def CORE_VEC_STAT_HALF_ACTIVE : Fld := ⟨CORE_VEC_STAT, 9, 1, .ro, .live⟩
/-- CORE_VEC_WAKES (04). -/
def CORE_VEC_WAKES : RegFam := ⟨.core, 0x1410, 0x0, 1, false, 0⟩
def CORE_VEC_WAKES_COUNT : Fld := ⟨CORE_VEC_WAKES, 0, 32, .rc, .live⟩
/-- CORE_VEC_ON_CC (04). -/
def CORE_VEC_ON_CC : RegFam := ⟨.core, 0x1418, 0x0, 1, true, 0⟩
def CORE_VEC_ON_CC_COUNT : Fld := ⟨CORE_VEC_ON_CC, 0, 64, .rc, .live⟩
/-- CORE_VEC_GCONF (04). -/
def CORE_VEC_GCONF : RegFam := ⟨.core, 0x1420, 0x0, 1, true, 0⟩
def CORE_VEC_GCONF_COUNT : Fld := ⟨CORE_VEC_GCONF, 0, 64, .rc, .live⟩
/-- GRAN_STAT (06). -/
def GRAN_STAT : RegFam := ⟨.core, 0x2000, 0x0, 1, false, 0⟩
def GRAN_STAT_READY : Fld := ⟨GRAN_STAT, 0, 1, .ro, .live⟩
def GRAN_STAT_FILL_BUSY : Fld := ⟨GRAN_STAT, 1, 1, .ro, .live⟩
def GRAN_STAT_SCRUB_QLEN : Fld := ⟨GRAN_STAT, 2, 5, .ro, .live⟩
/-- GRAN_ARB (06). -/
def GRAN_ARB : RegFam := ⟨.core, 0x2008, 0x0, 1, false, 0x8⟩
def GRAN_ARB_EXT_AGE : Fld := ⟨GRAN_ARB, 0, 8, .rw, .live⟩
/-- GRAN_SCRUB_CTRL (06). -/
def GRAN_SCRUB_CTRL : RegFam := ⟨.core, 0x2010, 0x0, 1, false, 0x4001⟩
def GRAN_SCRUB_CTRL_EN : Fld := ⟨GRAN_SCRUB_CTRL, 0, 1, .rw, .live⟩
def GRAN_SCRUB_CTRL_INTERVAL : Fld := ⟨GRAN_SCRUB_CTRL, 4, 16, .rw, .live⟩
/-- GRAN_SCRUB_POS (06). -/
def GRAN_SCRUB_POS : RegFam := ⟨.core, 0x2018, 0x0, 1, false, 0⟩
def GRAN_SCRUB_POS_LINE : Fld := ⟨GRAN_SCRUB_POS, 0, 20, .ro, .live⟩
def GRAN_SCRUB_POS_PASSES : Fld := ⟨GRAN_SCRUB_POS, 20, 12, .ro, .live⟩
/-- GRAN_REPAIR_CTRL (06). -/
def GRAN_REPAIR_CTRL : RegFam := ⟨.core, 0x2020, 0x0, 1, false, 0x41⟩
def GRAN_REPAIR_CTRL_AUTO : Fld := ⟨GRAN_REPAIR_CTRL, 0, 1, .rw, .live⟩
def GRAN_REPAIR_CTRL_CE_THRESH : Fld := ⟨GRAN_REPAIR_CTRL, 4, 8, .rw, .live⟩
/-- GRAN_REPAIR_REQ (06). -/
def GRAN_REPAIR_REQ : RegFam := ⟨.core, 0x2028, 0x0, 1, false, 0⟩
def GRAN_REPAIR_REQ_ROW : Fld := ⟨GRAN_REPAIR_REQ, 0, 15, .wo, .live⟩
def GRAN_REPAIR_REQ_BANK : Fld := ⟨GRAN_REPAIR_REQ, 15, 5, .wo, .live⟩
def GRAN_REPAIR_REQ_GO : Fld := ⟨GRAN_REPAIR_REQ, 20, 1, .wo, .live⟩
/-- GRAN_CE_CNT (06). -/
def GRAN_CE_CNT : RegFam := ⟨.core, 0x2030, 0x0, 1, false, 0⟩
def GRAN_CE_CNT_COUNT : Fld := ⟨GRAN_CE_CNT, 0, 32, .rc, .live⟩
/-- GRAN_UE_CNT (06). -/
def GRAN_UE_CNT : RegFam := ⟨.core, 0x2038, 0x0, 1, false, 0⟩
def GRAN_UE_CNT_COUNT : Fld := ⟨GRAN_UE_CNT, 0, 32, .rc, .live⟩
/-- GRAN_CRC_FAIL_CNT (06). -/
def GRAN_CRC_FAIL_CNT : RegFam := ⟨.core, 0x2040, 0x0, 1, false, 0⟩
def GRAN_CRC_FAIL_CNT_COUNT : Fld := ⟨GRAN_CRC_FAIL_CNT, 0, 32, .rc, .live⟩
/-- GRAN_SCRUB_QDROP (06). -/
def GRAN_SCRUB_QDROP : RegFam := ⟨.core, 0x2048, 0x0, 1, false, 0⟩
def GRAN_SCRUB_QDROP_COUNT : Fld := ⟨GRAN_SCRUB_QDROP, 0, 32, .rc, .live⟩
/-- GRAN_UE_ADDR (06). -/
def GRAN_UE_ADDR : RegFam := ⟨.core, 0x2050, 0x0, 1, false, 0⟩
def GRAN_UE_ADDR_LINE : Fld := ⟨GRAN_UE_ADDR, 0, 20, .rc, .live⟩
def GRAN_UE_ADDR_VALID : Fld := ⟨GRAN_UE_ADDR, 31, 1, .rc, .live⟩
/-- GRAN_LOOM_WAIT (06). -/
def GRAN_LOOM_WAIT : RegFam := ⟨.core, 0x2058, 0x0, 1, true, 0⟩
def GRAN_LOOM_WAIT_COUNT : Fld := ⟨GRAN_LOOM_WAIT, 0, 64, .rc, .live⟩
/-- GRAN_EXT_WAIT (06). -/
def GRAN_EXT_WAIT : RegFam := ⟨.core, 0x2060, 0x0, 1, true, 0⟩
def GRAN_EXT_WAIT_COUNT : Fld := ⟨GRAN_EXT_WAIT, 0, 64, .rc, .live⟩
/-- GRAN_PCLASS_k (06). -/
def GRAN_PCLASS : RegFam := ⟨.core, 0x2080, 0x8, 8, false, 0⟩
def GRAN_PCLASS_CLASS : Fld := ⟨GRAN_PCLASS, 0, 32, .rw, .locked⟩
/-- GRAN_SPARE_k (06). -/
def GRAN_SPARE : RegFam := ⟨.core, 0x2100, 0x8, 8, false, 0x40404040⟩
def GRAN_SPARE_FREE0 : Fld := ⟨GRAN_SPARE, 0, 8, .ro, .live⟩
def GRAN_SPARE_FREE1 : Fld := ⟨GRAN_SPARE, 8, 8, .ro, .live⟩
def GRAN_SPARE_FREE2 : Fld := ⟨GRAN_SPARE, 16, 8, .ro, .live⟩
def GRAN_SPARE_FREE3 : Fld := ⟨GRAN_SPARE, 24, 8, .ro, .live⟩
/-- GRAN_RING_BASE_r (06). -/
def GRAN_RING_BASE : RegFam := ⟨.core, 0x2200, 0x10, 16, false, 0⟩
def GRAN_RING_BASE_BASE : Fld := ⟨GRAN_RING_BASE, 6, 20, .rw, .staged⟩
/-- GRAN_RING_SHAPE_r (06). -/
def GRAN_RING_SHAPE : RegFam := ⟨.core, 0x2208, 0x10, 16, false, 0⟩
def GRAN_RING_SHAPE_PITCH : Fld := ⟨GRAN_RING_SHAPE, 0, 12, .rw, .staged⟩
def GRAN_RING_SHAPE_ROWS : Fld := ⟨GRAN_RING_SHAPE, 12, 13, .rw, .staged⟩
def GRAN_RING_SHAPE_VALID : Fld := ⟨GRAN_RING_SHAPE, 31, 1, .ro, .live⟩
/-- LOOM_CTRL (07). -/
def LOOM_CTRL : RegFam := ⟨.core, 0x3000, 0x0, 1, false, 0x5⟩
def LOOM_CTRL_EN : Fld := ⟨LOOM_CTRL, 0, 1, .rw, .live⟩
def LOOM_CTRL_ABORT : Fld := ⟨LOOM_CTRL, 1, 1, .wo, .live⟩
def LOOM_CTRL_SKIP_EN : Fld := ⟨LOOM_CTRL, 2, 1, .rw, .staged⟩
def LOOM_CTRL_THR : Fld := ⟨LOOM_CTRL, 8, 4, .rw, .live⟩
/-- LOOM_STAT (07). -/
def LOOM_STAT : RegFam := ⟨.core, 0x3008, 0x0, 1, false, 0⟩
def LOOM_STAT_BUSY : Fld := ⟨LOOM_STAT, 0, 1, .ro, .live⟩
def LOOM_STAT_QLEN : Fld := ⟨LOOM_STAT, 1, 3, .ro, .live⟩
def LOOM_STAT_NONFIN : Fld := ⟨LOOM_STAT, 4, 1, .ro, .live⟩
def LOOM_STAT_TAG : Fld := ⟨LOOM_STAT, 16, 16, .ro, .live⟩
/-- LOOM_JOBS_DONE (07). -/
def LOOM_JOBS_DONE : RegFam := ⟨.core, 0x3010, 0x0, 1, false, 0⟩
def LOOM_JOBS_DONE_COUNT : Fld := ⟨LOOM_JOBS_DONE, 0, 32, .rc, .live⟩
/-- LOOM_STREAM_CC (07). -/
def LOOM_STREAM_CC : RegFam := ⟨.core, 0x3018, 0x0, 1, true, 0⟩
def LOOM_STREAM_CC_COUNT : Fld := ⟨LOOM_STREAM_CC, 0, 64, .rc, .live⟩
/-- LOOM_SKIP_GROUPS (07). -/
def LOOM_SKIP_GROUPS : RegFam := ⟨.core, 0x3020, 0x0, 1, true, 0⟩
def LOOM_SKIP_GROUPS_COUNT : Fld := ⟨LOOM_SKIP_GROUPS, 0, 64, .rc, .live⟩
/-- LOOM_STALL_LOAD (07). -/
def LOOM_STALL_LOAD : RegFam := ⟨.core, 0x3028, 0x0, 1, true, 0⟩
def LOOM_STALL_LOAD_COUNT : Fld := ⟨LOOM_STALL_LOAD, 0, 64, .rc, .live⟩
/-- LOOM_STALL_FEED (07). -/
def LOOM_STALL_FEED : RegFam := ⟨.core, 0x3030, 0x0, 1, true, 0⟩
def LOOM_STALL_FEED_COUNT : Fld := ⟨LOOM_STALL_FEED, 0, 64, .rc, .live⟩
/-- LOOM_STALL_ACC (07). -/
def LOOM_STALL_ACC : RegFam := ⟨.core, 0x3038, 0x0, 1, true, 0⟩
def LOOM_STALL_ACC_COUNT : Fld := ⟨LOOM_STALL_ACC, 0, 64, .rc, .live⟩
/-- LOOM_THR_CC (07). -/
def LOOM_THR_CC : RegFam := ⟨.core, 0x3040, 0x0, 1, true, 0⟩
def LOOM_THR_CC_COUNT : Fld := ⟨LOOM_THR_CC, 0, 64, .rc, .live⟩
/-- LOOM_TEST_SEL (07). -/
def LOOM_TEST_SEL : RegFam := ⟨.core, 0x3048, 0x0, 1, false, 0⟩
def LOOM_TEST_SEL_COL : Fld := ⟨LOOM_TEST_SEL, 0, 7, .rw, .locked⟩
def LOOM_TEST_SEL_INDEX : Fld := ⟨LOOM_TEST_SEL, 7, 11, .rw, .locked⟩
def LOOM_TEST_SEL_WHAT : Fld := ⟨LOOM_TEST_SEL, 18, 2, .rw, .locked⟩
/-- LOOM_TEST_DATA (07). -/
def LOOM_TEST_DATA : RegFam := ⟨.core, 0x3050, 0x0, 1, false, 0⟩
def LOOM_TEST_DATA_DATA : Fld := ⟨LOOM_TEST_DATA, 0, 32, .ro, .live⟩
/-- TALLY_CLOSE (08). -/
def TALLY_CLOSE : RegFam := ⟨.core, 0x3800, 0x0, 1, false, 0⟩
def TALLY_CLOSE_SLOT : Fld := ⟨TALLY_CLOSE, 0, 8, .wo, .live⟩
def TALLY_CLOSE_GO : Fld := ⟨TALLY_CLOSE, 8, 1, .wo, .live⟩
/-- TALLY_WAIT_CC (08). -/
def TALLY_WAIT_CC : RegFam := ⟨.core, 0x3808, 0x0, 1, true, 0⟩
def TALLY_WAIT_CC_COUNT : Fld := ⟨TALLY_WAIT_CC, 0, 64, .rc, .live⟩
/-- TALLY_MISFIT_PEND_k (08). -/
def TALLY_MISFIT_PEND : RegFam := ⟨.core, 0x3810, 0x8, 8, false, 0⟩
def TALLY_MISFIT_PEND_PEND : Fld := ⟨TALLY_MISFIT_PEND, 0, 32, .w1c, .live⟩
/-- TALLY_SLACK_PEND_k (08). -/
def TALLY_SLACK_PEND : RegFam := ⟨.core, 0x3850, 0x8, 8, false, 0⟩
def TALLY_SLACK_PEND_PEND : Fld := ⟨TALLY_SLACK_PEND, 0, 32, .w1c, .live⟩
/-- TALLY_SLOT_CFG (08). -/
def TALLY_SLOT_CFG : RegFam := ⟨.core, 0x4000, 0x40, 256, false, 0x77300⟩
def TALLY_SLOT_CFG_EN : Fld := ⟨TALLY_SLOT_CFG, 0, 1, .rw, .live⟩
def TALLY_SLOT_CFG_FREEZE : Fld := ⟨TALLY_SLOT_CFG, 1, 1, .rw, .live⟩
def TALLY_SLOT_CFG_ZPM : Fld := ⟨TALLY_SLOT_CFG, 2, 1, .rw, .locked⟩
def TALLY_SLOT_CFG_IRQ_MISFIT : Fld := ⟨TALLY_SLOT_CFG, 3, 1, .rw, .live⟩
def TALLY_SLOT_CFG_IRQ_SLACK : Fld := ⟨TALLY_SLOT_CFG, 4, 1, .rw, .live⟩
def TALLY_SLOT_CFG_COPY : Fld := ⟨TALLY_SLOT_CFG, 5, 1, .rw, .live⟩
def TALLY_SLOT_CFG_FMT : Fld := ⟨TALLY_SLOT_CFG, 8, 4, .rw, .locked⟩
def TALLY_SLOT_CFG_WIN : Fld := ⟨TALLY_SLOT_CFG, 12, 4, .rw, .locked⟩
def TALLY_SLOT_CFG_EMAX : Fld := ⟨TALLY_SLOT_CFG, 16, 3, .rw, .locked⟩
/-- TALLY_SLOT_LIM (08). -/
def TALLY_SLOT_LIM : RegFam := ⟨.core, 0x4004, 0x40, 256, false, 0x1100100⟩
def TALLY_SLOT_LIM_MISFIT_FRAC : Fld := ⟨TALLY_SLOT_LIM, 0, 16, .rw, .live⟩
def TALLY_SLOT_LIM_MARGIN : Fld := ⟨TALLY_SLOT_LIM, 16, 8, .rw, .live⟩
def TALLY_SLOT_LIM_STEP_JOBS : Fld := ⟨TALLY_SLOT_LIM, 24, 8, .rw, .live⟩
/-- TALLY_SLOT_SMIN (08). -/
def TALLY_SLOT_SMIN : RegFam := ⟨.core, 0x4008, 0x40, 256, false, 0x33800000⟩
def TALLY_SLOT_SMIN_SMIN : Fld := ⟨TALLY_SLOT_SMIN, 0, 32, .rw, .live⟩
/-- TALLY_SLOT_SMAX (08). -/
def TALLY_SLOT_SMAX : RegFam := ⟨.core, 0x400C, 0x40, 256, false, 0x7F7FFFFF⟩
def TALLY_SLOT_SMAX_SMAX : Fld := ⟨TALLY_SLOT_SMAX, 0, 32, .rw, .live⟩
/-- TALLY_SLOT_SCALE (08). -/
def TALLY_SLOT_SCALE : RegFam := ⟨.core, 0x4010, 0x40, 256, false, 0x3F800000⟩
def TALLY_SLOT_SCALE_SCALE : Fld := ⟨TALLY_SLOT_SCALE, 0, 32, .rw, .staged⟩
/-- TALLY_SLOT_ZP (08). -/
def TALLY_SLOT_ZP : RegFam := ⟨.core, 0x4014, 0x40, 256, false, 0⟩
def TALLY_SLOT_ZP_ZP : Fld := ⟨TALLY_SLOT_ZP, 0, 16, .rw, .staged⟩
/-- TALLY_SLOT_PROP (08). -/
def TALLY_SLOT_PROP : RegFam := ⟨.core, 0x4018, 0x40, 256, false, 0⟩
def TALLY_SLOT_PROP_PROP : Fld := ⟨TALLY_SLOT_PROP, 0, 32, .ro, .live⟩
/-- TALLY_SLOT_PSTAT (08). -/
def TALLY_SLOT_PSTAT : RegFam := ⟨.core, 0x401C, 0x40, 256, false, 0⟩
def TALLY_SLOT_PSTAT_PZP : Fld := ⟨TALLY_SLOT_PSTAT, 0, 16, .ro, .live⟩
def TALLY_SLOT_PSTAT_DIRECT : Fld := ⟨TALLY_SLOT_PSTAT, 16, 1, .ro, .live⟩
def TALLY_SLOT_PSTAT_LIMIT : Fld := ⟨TALLY_SLOT_PSTAT, 17, 1, .ro, .live⟩
def TALLY_SLOT_PSTAT_MSH_CLIP : Fld := ⟨TALLY_SLOT_PSTAT, 18, 1, .ro, .live⟩
def TALLY_SLOT_PSTAT_EMPTY : Fld := ⟨TALLY_SLOT_PSTAT, 19, 1, .ro, .live⟩
def TALLY_SLOT_PSTAT_OPEN : Fld := ⟨TALLY_SLOT_PSTAT, 20, 1, .ro, .live⟩
/-- TALLY_SLOT_OMAX (08). -/
def TALLY_SLOT_OMAX : RegFam := ⟨.core, 0x4020, 0x40, 256, false, 0⟩
def TALLY_SLOT_OMAX_MAX : Fld := ⟨TALLY_SLOT_OMAX, 0, 32, .ro, .live⟩
/-- TALLY_SLOT_OMIN (08). -/
def TALLY_SLOT_OMIN : RegFam := ⟨.core, 0x4024, 0x40, 256, false, 0⟩
def TALLY_SLOT_OMIN_MIN : Fld := ⟨TALLY_SLOT_OMIN, 0, 32, .ro, .live⟩
/-- TALLY_SLOT_OSAT (08). -/
def TALLY_SLOT_OSAT : RegFam := ⟨.core, 0x4028, 0x40, 256, true, 0⟩
def TALLY_SLOT_OSAT_COUNT : Fld := ⟨TALLY_SLOT_OSAT, 0, 48, .ro, .live⟩
/-- TALLY_SLOT_OTOT (08). -/
def TALLY_SLOT_OTOT : RegFam := ⟨.core, 0x4030, 0x40, 256, true, 0⟩
def TALLY_SLOT_OTOT_COUNT : Fld := ⟨TALLY_SLOT_OTOT, 0, 48, .ro, .live⟩
/-- TALLY_SLOT_QSF (08). -/
def TALLY_SLOT_QSF : RegFam := ⟨.core, 0x4038, 0x40, 256, false, 0⟩
def TALLY_SLOT_QSF_IDX : Fld := ⟨TALLY_SLOT_QSF, 0, 12, .rw, .live⟩
def TALLY_SLOT_QSF_Q : Fld := ⟨TALLY_SLOT_QSF, 12, 6, .rw, .live⟩
/-- TALLY_SLOT_STEPS (08). -/
def TALLY_SLOT_STEPS : RegFam := ⟨.core, 0x403C, 0x40, 256, false, 0⟩
def TALLY_SLOT_STEPS_COUNT : Fld := ⟨TALLY_SLOT_STEPS, 0, 32, .rc, .live⟩
/-- QSF_MULT_i (08). -/
def QSF_MULT : RegFam := ⟨.core, 0x80000, 0x10, 4096, false, 0⟩
def QSF_MULT_M : Fld := ⟨QSF_MULT, 0, 32, .rw, .live⟩
/-- QSF_SHZP_i (08). -/
def QSF_SHZP : RegFam := ⟨.core, 0x80004, 0x10, 4096, false, 0⟩
def QSF_SHZP_SH : Fld := ⟨QSF_SHZP, 0, 6, .rw, .live⟩
def QSF_SHZP_ZP : Fld := ⟨QSF_SHZP, 16, 16, .rw, .live⟩
/-- QSF_ESCALE_i (08). -/
def QSF_ESCALE : RegFam := ⟨.core, 0x80008, 0x10, 4096, false, 0⟩
def QSF_ESCALE_ES : Fld := ⟨QSF_ESCALE, 0, 32, .rw, .live⟩
/-- AGEN_CTRL (09). -/
def AGEN_CTRL : RegFam := ⟨.core, 0x3100, 0x0, 1, false, 0x1⟩
def AGEN_CTRL_MATRIX_EN : Fld := ⟨AGEN_CTRL, 0, 1, .rw, .locked⟩
/-- AGEN_ZC_ABSENT (09). -/
def AGEN_ZC_ABSENT : RegFam := ⟨.core, 0x3108, 0x0, 1, true, 0⟩
def AGEN_ZC_ABSENT_COUNT : Fld := ⟨AGEN_ZC_ABSENT, 0, 64, .rc, .live⟩
/-- AGEN_ZC_OVER_CNT (09). -/
def AGEN_ZC_OVER_CNT : RegFam := ⟨.core, 0x3110, 0x0, 1, false, 0⟩
def AGEN_ZC_OVER_CNT_COUNT : Fld := ⟨AGEN_ZC_OVER_CNT, 0, 32, .rc, .live⟩
/-- HOP_CTRL (10). -/
def HOP_CTRL : RegFam := ⟨.hopper, 0x0, 0x0, 1, false, 0x2⟩
def HOP_CTRL_EN : Fld := ⟨HOP_CTRL, 0, 1, .rw, .live⟩
def HOP_CTRL_SPARE_AUTO : Fld := ⟨HOP_CTRL, 1, 1, .rw, .live⟩
/-- HOP_POOL_STAT (10). -/
def HOP_POOL_STAT : RegFam := ⟨.hopper, 0x8, 0x0, 1, false, 0x20002000⟩
def HOP_POOL_STAT_FREE : Fld := ⟨HOP_POOL_STAT, 0, 14, .ro, .live⟩
def HOP_POOL_STAT_MINFREE : Fld := ⟨HOP_POOL_STAT, 16, 14, .rc, .live⟩
def HOP_POOL_STAT_RSV_ERR : Fld := ⟨HOP_POOL_STAT, 31, 1, .w1c, .live⟩
/-- HOP_TRIG (10). -/
def HOP_TRIG : RegFam := ⟨.hopper, 0x10, 0x0, 1, false, 0⟩
def HOP_TRIG_CAM : Fld := ⟨HOP_TRIG, 0, 4, .wo, .live⟩
def HOP_TRIG_EDGE : Fld := ⟨HOP_TRIG, 4, 1, .wo, .live⟩
def HOP_TRIG_GO : Fld := ⟨HOP_TRIG, 5, 1, .wo, .live⟩
/-- HOP_CAM_CFG_c (10). -/
def HOP_CAM_CFG : RegFam := ⟨.hopper, 0x100, 0x20, 16, false, 0x3000⟩
def HOP_CAM_CFG_EN : Fld := ⟨HOP_CAM_CFG, 0, 1, .rw, .locked⟩
def HOP_CAM_CFG_FIRST : Fld := ⟨HOP_CAM_CFG, 4, 4, .rw, .locked⟩
def HOP_CAM_CFG_NCONN : Fld := ⟨HOP_CAM_CFG, 8, 3, .rw, .locked⟩
def HOP_CAM_CFG_SPEED : Fld := ⟨HOP_CAM_CFG, 12, 2, .rw, .locked⟩
def HOP_CAM_CFG_SRC : Fld := ⟨HOP_CAM_CFG, 16, 2, .rw, .locked⟩
def HOP_CAM_CFG_DELIV : Fld := ⟨HOP_CAM_CFG, 20, 2, .rw, .locked⟩
def HOP_CAM_CFG_ALIGN : Fld := ⟨HOP_CAM_CFG, 22, 1, .rw, .locked⟩
def HOP_CAM_CFG_PLAN : Fld := ⟨HOP_CAM_CFG, 24, 5, .rw, .locked⟩
/-- HOP_CAM_POOL_c (10). -/
def HOP_CAM_POOL : RegFam := ⟨.hopper, 0x108, 0x20, 16, false, 0x20000000⟩
def HOP_CAM_POOL_RSV : Fld := ⟨HOP_CAM_POOL, 0, 14, .rw, .live⟩
def HOP_CAM_POOL_CAP : Fld := ⟨HOP_CAM_POOL, 16, 14, .rw, .live⟩
/-- HOP_CAM_STAT_c (10). -/
def HOP_CAM_STAT : RegFam := ⟨.hopper, 0x110, 0x20, 16, false, 0⟩
def HOP_CAM_STAT_STATE : Fld := ⟨HOP_CAM_STAT, 0, 3, .ro, .live⟩
def HOP_CAM_STAT_USED : Fld := ⟨HOP_CAM_STAT, 3, 14, .ro, .live⟩
def HOP_CAM_STAT_RUNS : Fld := ⟨HOP_CAM_STAT, 17, 7, .ro, .live⟩
def HOP_CAM_STAT_TRIG_DROP : Fld := ⟨HOP_CAM_STAT, 24, 8, .rc, .live⟩
/-- HOP_CONN_STAT_n (10). -/
def HOP_CONN_STAT : RegFam := ⟨.hopper, 0x400, 0x20, 16, false, 0x2⟩
def HOP_CONN_STAT_UP : Fld := ⟨HOP_CONN_STAT, 0, 1, .ro, .live⟩
def HOP_CONN_STAT_OK : Fld := ⟨HOP_CONN_STAT, 1, 1, .ro, .live⟩
def HOP_CONN_STAT_MASTER : Fld := ⟨HOP_CONN_STAT, 2, 1, .ro, .live⟩
def HOP_CONN_STAT_SPEED_ACT : Fld := ⟨HOP_CONN_STAT, 4, 2, .ro, .live⟩
def HOP_CONN_STAT_CAM : Fld := ⟨HOP_CONN_STAT, 8, 4, .ro, .live⟩
/-- HOP_CONN_LOST_n (10). -/
def HOP_CONN_LOST : RegFam := ⟨.hopper, 0x408, 0x20, 16, false, 0⟩
def HOP_CONN_LOST_COUNT : Fld := ⟨HOP_CONN_LOST, 0, 32, .rc, .live⟩
/-- HOP_CONN_CRC_n (10). -/
def HOP_CONN_CRC : RegFam := ⟨.hopper, 0x410, 0x20, 16, false, 0⟩
def HOP_CONN_CRC_COUNT : Fld := ⟨HOP_CONN_CRC, 0, 32, .rc, .live⟩
/-- PIPE_RING_FILL_r (11). -/
def PIPE_RING_FILL : RegFam := ⟨.core, 0x9000, 0x10, 16, false, 0⟩
def PIPE_RING_FILL_FILL : Fld := ⟨PIPE_RING_FILL, 0, 32, .ro, .live⟩
/-- PIPE_RING_REL_r (11). -/
def PIPE_RING_REL : RegFam := ⟨.core, 0x9004, 0x10, 16, false, 0⟩
def PIPE_RING_REL_REL : Fld := ⟨PIPE_RING_REL, 0, 32, .rw, .live⟩
/-- PIPE_RING_END_r (11). -/
def PIPE_RING_END : RegFam := ⟨.core, 0x9008, 0x10, 16, false, 0⟩
def PIPE_RING_END_ROWS : Fld := ⟨PIPE_RING_END, 0, 32, .ro, .live⟩
/-- PIPE_RING_STAT_r (11). -/
def PIPE_RING_STAT : RegFam := ⟨.core, 0x900C, 0x10, 16, false, 0⟩
def PIPE_RING_STAT_END : Fld := ⟨PIPE_RING_STAT, 0, 1, .ro, .live⟩
def PIPE_RING_STAT_REL_ERR : Fld := ⟨PIPE_RING_STAT, 1, 1, .w1c, .live⟩
def PIPE_RING_STAT_PLAN_INV : Fld := ⟨PIPE_RING_STAT, 2, 1, .ro, .live⟩
/-- PIPE_PUB_j (11). -/
def PIPE_PUB : RegFam := ⟨.core, 0x9100, 0x4, 16, false, 0⟩
def PIPE_PUB_COUNT : Fld := ⟨PIPE_PUB, 0, 32, .rw, .live⟩
/-- PIPE_WATCH_i (11). -/
def PIPE_WATCH : RegFam := ⟨.core, 0x9140, 0x8, 4, true, 0⟩
def PIPE_WATCH_ROW : Fld := ⟨PIPE_WATCH, 0, 32, .rw, .live⟩
def PIPE_WATCH_CTR : Fld := ⟨PIPE_WATCH, 32, 8, .rw, .live⟩
def PIPE_WATCH_EN : Fld := ⟨PIPE_WATCH, 40, 1, .rw, .live⟩
/-- PIPE_CTRL (11). -/
def PIPE_CTRL : RegFam := ⟨.core, 0x9160, 0x0, 1, false, 0⟩
def PIPE_CTRL_WAIT_LIMIT : Fld := ⟨PIPE_CTRL, 0, 24, .rw, .live⟩
/-- PIPE_WAIT_RING (11). -/
def PIPE_WAIT_RING : RegFam := ⟨.core, 0x9168, 0x0, 1, true, 0⟩
def PIPE_WAIT_RING_COUNT : Fld := ⟨PIPE_WAIT_RING, 0, 64, .rc, .live⟩
/-- PIPE_WAIT_PEER (11). -/
def PIPE_WAIT_PEER : RegFam := ⟨.core, 0x9170, 0x0, 1, true, 0⟩
def PIPE_WAIT_PEER_COUNT : Fld := ⟨PIPE_WAIT_PEER, 0, 64, .rc, .live⟩
/-- PIPE_HOLD_XC (11). -/
def PIPE_HOLD_XC : RegFam := ⟨.core, 0x9178, 0x0, 1, true, 0⟩
def PIPE_HOLD_XC_COUNT : Fld := ⟨PIPE_HOLD_XC, 0, 64, .rc, .live⟩
/-- SIEVE_SUBMIT (11). -/
def SIEVE_SUBMIT : RegFam := ⟨.core, 0x9400, 0x0, 1, false, 0⟩
def SIEVE_SUBMIT_DESC : Fld := ⟨SIEVE_SUBMIT, 6, 26, .wo, .live⟩
/-- SIEVE_CTRL (11). -/
def SIEVE_CTRL : RegFam := ⟨.core, 0x9408, 0x0, 1, false, 0⟩
def SIEVE_CTRL_ABORT : Fld := ⟨SIEVE_CTRL, 0, 1, .wo, .live⟩
/-- SIEVE_STAT (11). -/
def SIEVE_STAT : RegFam := ⟨.core, 0x9410, 0x0, 1, false, 0⟩
def SIEVE_STAT_QLEN : Fld := ⟨SIEVE_STAT, 0, 3, .ro, .live⟩
def SIEVE_STAT_BUSY : Fld := ⟨SIEVE_STAT, 3, 1, .ro, .live⟩
def SIEVE_STAT_REFUSED : Fld := ⟨SIEVE_STAT, 16, 16, .rc, .live⟩
/-- SIEVE_DONE (11). -/
def SIEVE_DONE : RegFam := ⟨.core, 0x9418, 0x0, 1, false, 0⟩
def SIEVE_DONE_COUNT : Fld := ⟨SIEVE_DONE, 0, 32, .rc, .live⟩
/-- CARTER_CH_CFG_ch (12). -/
def CARTER_CH_CFG : RegFam := ⟨.core, 0xB000, 0x20, 64, false, 0x10000000⟩
def CARTER_CH_CFG_SRC : Fld := ⟨CARTER_CH_CFG, 0, 1, .rw, .locked⟩
def CARTER_CH_CFG_RING : Fld := ⟨CARTER_CH_CFG, 4, 10, .rw, .locked⟩
def CARTER_CH_CFG_PRIO : Fld := ⟨CARTER_CH_CFG, 16, 3, .rw, .live⟩
def CARTER_CH_CFG_MAXBUF : Fld := ⟨CARTER_CH_CFG, 24, 7, .rw, .live⟩
/-- CARTER_CH_CTRL_ch (12). -/
def CARTER_CH_CTRL : RegFam := ⟨.core, 0xB008, 0x20, 64, false, 0⟩
def CARTER_CH_CTRL_DIS : Fld := ⟨CARTER_CH_CTRL, 0, 1, .rw, .live⟩
/-- CARTER_CH_STAT_ch (12). -/
def CARTER_CH_STAT : RegFam := ⟨.core, 0xB010, 0x20, 64, false, 0⟩
def CARTER_CH_STAT_STATE : Fld := ⟨CARTER_CH_STAT, 0, 3, .ro, .live⟩
def CARTER_CH_STAT_QLEN : Fld := ⟨CARTER_CH_STAT, 4, 3, .ro, .live⟩
def CARTER_CH_STAT_BUFS : Fld := ⟨CARTER_CH_STAT, 8, 7, .ro, .live⟩
def CARTER_CH_STAT_TAG : Fld := ⟨CARTER_CH_STAT, 16, 16, .ro, .live⟩
/-- CARTER_CH_DONE_ch (12). -/
def CARTER_CH_DONE : RegFam := ⟨.core, 0xB018, 0x20, 64, false, 0⟩
def CARTER_CH_DONE_COUNT : Fld := ⟨CARTER_CH_DONE, 0, 32, .rc, .live⟩
/-- CARTER_CTRL (12). -/
def CARTER_CTRL : RegFam := ⟨.core, 0xB800, 0x0, 1, false, 0x10001⟩
def CARTER_CTRL_EN : Fld := ⟨CARTER_CTRL, 0, 1, .rw, .live⟩
def CARTER_CTRL_ERR_IRQ : Fld := ⟨CARTER_CTRL, 1, 1, .rw, .live⟩
def CARTER_CTRL_TIMEOUT : Fld := ⟨CARTER_CTRL, 8, 16, .rw, .live⟩
/-- CARTER_STAT (12). -/
def CARTER_STAT : RegFam := ⟨.core, 0xB808, 0x0, 1, false, 0x800⟩
def CARTER_STAT_BUF_FREE : Fld := ⟨CARTER_STAT, 0, 12, .ro, .live⟩
def CARTER_STAT_RING_ERR : Fld := ⟨CARTER_STAT, 16, 1, .w1c, .live⟩
/-- CARTER_LATE_ERR (12). -/
def CARTER_LATE_ERR : RegFam := ⟨.core, 0xB810, 0x0, 1, false, 0⟩
def CARTER_LATE_ERR_COUNT : Fld := ⟨CARTER_LATE_ERR, 0, 32, .rc, .live⟩
/-- CARTER_BUF_WAIT (12). -/
def CARTER_BUF_WAIT : RegFam := ⟨.core, 0xB818, 0x0, 1, true, 0⟩
def CARTER_BUF_WAIT_COUNT : Fld := ⟨CARTER_BUF_WAIT, 0, 64, .rc, .live⟩
/-- CARTER_TAG_WAIT (12). -/
def CARTER_TAG_WAIT : RegFam := ⟨.core, 0xB820, 0x0, 1, true, 0⟩
def CARTER_TAG_WAIT_COUNT : Fld := ⟨CARTER_TAG_WAIT, 0, 64, .rc, .live⟩
/-- CARTER_PACE_WAIT (12). -/
def CARTER_PACE_WAIT : RegFam := ⟨.core, 0xB828, 0x0, 1, true, 0⟩
def CARTER_PACE_WAIT_COUNT : Fld := ⟨CARTER_PACE_WAIT, 0, 64, .rc, .live⟩
/-- CARTER_RING_BASE_k (12). -/
def CARTER_RING_BASE : RegFam := ⟨.core, 0xA0000, 0x20, 1024, true, 0⟩
def CARTER_RING_BASE_ADDR : Fld := ⟨CARTER_RING_BASE, 6, 34, .rw, .locked⟩
/-- CARTER_RING_CFG_k (12). -/
def CARTER_RING_CFG : RegFam := ⟨.core, 0xA0008, 0x20, 1024, false, 0⟩
def CARTER_RING_CFG_KIND : Fld := ⟨CARTER_RING_CFG, 0, 2, .rw, .locked⟩
def CARTER_RING_CFG_LOG2SZ : Fld := ⟨CARTER_RING_CFG, 4, 4, .rw, .locked⟩
def CARTER_RING_CFG_IRQ : Fld := ⟨CARTER_RING_CFG, 8, 1, .rw, .live⟩
/-- CARTER_RING_TAIL_k (12). -/
def CARTER_RING_TAIL : RegFam := ⟨.core, 0xA0010, 0x20, 1024, false, 0⟩
def CARTER_RING_TAIL_TAIL : Fld := ⟨CARTER_RING_TAIL, 0, 32, .rw, .live⟩
/-- CARTER_RING_HEAD_k (12). -/
def CARTER_RING_HEAD : RegFam := ⟨.core, 0xA0014, 0x20, 1024, false, 0⟩
def CARTER_RING_HEAD_HEAD : Fld := ⟨CARTER_RING_HEAD, 0, 32, .rw, .live⟩
/-- CARTER_RING_DONE_k (12). -/
def CARTER_RING_DONE : RegFam := ⟨.core, 0xA0018, 0x20, 1024, false, 0⟩
def CARTER_RING_DONE_DONE : Fld := ⟨CARTER_RING_DONE, 0, 32, .ro, .live⟩
/-- DRAM_MAP (13). -/
def DRAM_MAP : RegFam := ⟨.dram, 0x0, 0x0, 1, false, 0⟩
def DRAM_MAP_SPARE_RSV : Fld := ⟨DRAM_MAP, 0, 1, .rw, .locked⟩
def DRAM_MAP_RSV_USED : Fld := ⟨DRAM_MAP, 1, 1, .ro, .live⟩
/-- DRAM_CTRL (13). -/
def DRAM_CTRL : RegFam := ⟨.dram, 0x8, 0x0, 1, false, 0x5E5B0841⟩
def DRAM_CTRL_AUTO : Fld := ⟨DRAM_CTRL, 0, 1, .rw, .live⟩
def DRAM_CTRL_CE_PPR : Fld := ⟨DRAM_CTRL, 4, 4, .rw, .live⟩
def DRAM_CTRL_UE_RETIRE : Fld := ⟨DRAM_CTRL, 8, 8, .rw, .live⟩
def DRAM_CTRL_T_THROT : Fld := ⟨DRAM_CTRL, 16, 8, .rw, .live⟩
def DRAM_CTRL_T_CRIT : Fld := ⟨DRAM_CTRL, 24, 8, .rw, .live⟩
/-- DRAM_SPARE_STAT (13). -/
def DRAM_SPARE_STAT : RegFam := ⟨.dram, 0x10, 0x0, 1, false, 0⟩
def DRAM_SPARE_STAT_CH : Fld := ⟨DRAM_SPARE_STAT, 0, 3, .ro, .live⟩
def DRAM_SPARE_STAT_BUSY : Fld := ⟨DRAM_SPARE_STAT, 3, 1, .ro, .live⟩
def DRAM_SPARE_STAT_DONE : Fld := ⟨DRAM_SPARE_STAT, 4, 1, .ro, .live⟩
def DRAM_SPARE_STAT_POS : Fld := ⟨DRAM_SPARE_STAT, 6, 26, .ro, .live⟩
/-- DRAM_RETIRE (13). -/
def DRAM_RETIRE : RegFam := ⟨.dram, 0x18, 0x0, 1, false, 0⟩
def DRAM_RETIRE_CH : Fld := ⟨DRAM_RETIRE, 0, 3, .wo, .live⟩
def DRAM_RETIRE_GO : Fld := ⟨DRAM_RETIRE, 8, 1, .wo, .live⟩
/-- DRAM_CH_STAT (13). -/
def DRAM_CH_STAT : RegFam := ⟨.dramCh, 0x0, 0x0, 1, false, 0x40001⟩
def DRAM_CH_STAT_OK : Fld := ⟨DRAM_CH_STAT, 0, 1, .ro, .live⟩
def DRAM_CH_STAT_REF2X : Fld := ⟨DRAM_CH_STAT, 1, 1, .ro, .live⟩
def DRAM_CH_STAT_THROT : Fld := ⟨DRAM_CH_STAT, 2, 1, .ro, .live⟩
def DRAM_CH_STAT_CRIT : Fld := ⟨DRAM_CH_STAT, 3, 1, .ro, .live⟩
def DRAM_CH_STAT_TEMP : Fld := ⟨DRAM_CH_STAT, 8, 8, .ro, .live⟩
def DRAM_CH_STAT_PPR_FREE : Fld := ⟨DRAM_CH_STAT, 16, 8, .ro, .live⟩
/-- DRAM_CH_CE_CNT (13). -/
def DRAM_CH_CE_CNT : RegFam := ⟨.dramCh, 0x8, 0x0, 1, false, 0⟩
def DRAM_CH_CE_CNT_COUNT : Fld := ⟨DRAM_CH_CE_CNT, 0, 32, .rc, .live⟩
/-- DRAM_CH_UE_CNT (13). -/
def DRAM_CH_UE_CNT : RegFam := ⟨.dramCh, 0x10, 0x0, 1, false, 0⟩
def DRAM_CH_UE_CNT_COUNT : Fld := ⟨DRAM_CH_UE_CNT, 0, 32, .rc, .live⟩
/-- DRAM_CH_UE_ADDR (13). -/
def DRAM_CH_UE_ADDR : RegFam := ⟨.dramCh, 0x18, 0x0, 1, true, 0⟩
def DRAM_CH_UE_ADDR_LINE : Fld := ⟨DRAM_CH_UE_ADDR, 6, 31, .rc, .live⟩
def DRAM_CH_UE_ADDR_VALID : Fld := ⟨DRAM_CH_UE_ADDR, 63, 1, .rc, .live⟩
/-- DRAM_CH_RETRY_CNT (13). -/
def DRAM_CH_RETRY_CNT : RegFam := ⟨.dramCh, 0x20, 0x0, 1, false, 0⟩
def DRAM_CH_RETRY_CNT_CRC : Fld := ⟨DRAM_CH_RETRY_CNT, 0, 16, .rc, .live⟩
def DRAM_CH_RETRY_CNT_PAR : Fld := ⟨DRAM_CH_RETRY_CNT, 16, 16, .rc, .live⟩
/-- DRAM_CH_SCRUB (13). -/
def DRAM_CH_SCRUB : RegFam := ⟨.dramCh, 0x28, 0x0, 1, false, 0x10001⟩
def DRAM_CH_SCRUB_EN : Fld := ⟨DRAM_CH_SCRUB, 0, 1, .rw, .live⟩
def DRAM_CH_SCRUB_INTERVAL : Fld := ⟨DRAM_CH_SCRUB, 8, 16, .rw, .live⟩
/-- DRAM_CH_SCRUB_POS (13). -/
def DRAM_CH_SCRUB_POS : RegFam := ⟨.dramCh, 0x30, 0x0, 1, false, 0⟩
def DRAM_CH_SCRUB_POS_LINE : Fld := ⟨DRAM_CH_SCRUB_POS, 0, 28, .ro, .live⟩
def DRAM_CH_SCRUB_POS_PASSES : Fld := ⟨DRAM_CH_SCRUB_POS, 28, 4, .ro, .live⟩
/-- TG_CTRL (13). -/
def TG_CTRL : RegFam := ⟨.tg, 0x0, 0x0, 1, false, 0x10⟩
def TG_CTRL_WAITLIM : Fld := ⟨TG_CTRL, 0, 8, .rw, .live⟩
def TG_CTRL_SLOTS : Fld := ⟨TG_CTRL, 8, 7, .rw, .live⟩
/-- TG_STAT (13). -/
def TG_STAT : RegFam := ⟨.tg, 0x8, 0x0, 1, false, 0⟩
def TG_STAT_LAST : Fld := ⟨TG_STAT, 0, 4, .ro, .live⟩
def TG_STAT_PTR : Fld := ⟨TG_STAT, 8, 6, .ro, .live⟩
/-- TG_SLOT_HITS (13). -/
def TG_SLOT_HITS : RegFam := ⟨.tg, 0x10, 0x0, 1, true, 0⟩
def TG_SLOT_HITS_COUNT : Fld := ⟨TG_SLOT_HITS, 0, 64, .rc, .live⟩
/-- TG_PRIO_i (13). -/
def TG_PRIO : RegFam := ⟨.tg, 0x40, 0x8, 16, false, 0⟩
def TG_PRIO_PRIO : Fld := ⟨TG_PRIO, 0, 3, .rw, .live⟩
/-- TG_SLOT_j (13). -/
def TG_SLOT : RegFam := ⟨.tg, 0x200, 0x8, 64, false, 0⟩
def TG_SLOT_OWNER : Fld := ⟨TG_SLOT, 0, 4, .rw, .staged⟩
def TG_SLOT_EN : Fld := ⟨TG_SLOT, 4, 1, .rw, .staged⟩
/-- LOCK_STAT (13). -/
def LOCK_STAT : RegFam := ⟨.lock, 0x0, 0x0, 1, false, 0x200⟩
def LOCK_STAT_WAIT_FREE : Fld := ⟨LOCK_STAT, 0, 10, .ro, .live⟩
/-- LOCK_BROKEN_CNT (13). -/
def LOCK_BROKEN_CNT : RegFam := ⟨.lock, 0x8, 0x0, 1, false, 0⟩
def LOCK_BROKEN_CNT_COUNT : Fld := ⟨LOCK_BROKEN_CNT, 0, 32, .rc, .live⟩
/-- LOCK_ERR_CNT (13). -/
def LOCK_ERR_CNT : RegFam := ⟨.lock, 0x10, 0x0, 1, false, 0⟩
def LOCK_ERR_CNT_COUNT : Fld := ⟨LOCK_ERR_CNT, 0, 32, .rc, .live⟩
/-- LOCK_OP_l (13). -/
def LOCK_OP : RegFam := ⟨.lock, 0x1000, 0x10, 1024, false, 0⟩
def LOCK_OP_OP : Fld := ⟨LOCK_OP, 0, 3, .wo, .live⟩
/-- LOCK_STATE_l (13). -/
def LOCK_STATE : RegFam := ⟨.lock, 0x1008, 0x10, 1024, true, 0⟩
def LOCK_STATE_HELD : Fld := ⟨LOCK_STATE, 0, 1, .ro, .live⟩
def LOCK_STATE_BROKEN : Fld := ⟨LOCK_STATE, 1, 1, .ro, .live⟩
def LOCK_STATE_KIND : Fld := ⟨LOCK_STATE, 4, 3, .ro, .live⟩
def LOCK_STATE_ID : Fld := ⟨LOCK_STATE, 16, 16, .ro, .live⟩
def LOCK_STATE_WAITERS : Fld := ⟨LOCK_STATE, 32, 10, .ro, .live⟩
def LOCK_STATE_GEN : Fld := ⟨LOCK_STATE, 48, 16, .ro, .live⟩
/-- LOCK_CRESP_i (13). -/
def LOCK_CRESP : RegFam := ⟨.lock, 0x5000, 0x8, 384, false, 0⟩
def LOCK_CRESP_RESULT : Fld := ⟨LOCK_CRESP, 0, 2, .rc, .live⟩
def LOCK_CRESP_BROKEN : Fld := ⟨LOCK_CRESP, 2, 1, .rc, .live⟩
def LOCK_CRESP_LOCK : Fld := ⟨LOCK_CRESP, 4, 10, .rc, .live⟩
def LOCK_CRESP_VALID : Fld := ⟨LOCK_CRESP, 31, 1, .rc, .live⟩
/-- CORE_LOCK_REQ (13). -/
def CORE_LOCK_REQ : RegFam := ⟨.core, 0xC800, 0x0, 1, false, 0⟩
def CORE_LOCK_REQ_LOCK : Fld := ⟨CORE_LOCK_REQ, 0, 10, .wo, .live⟩
def CORE_LOCK_REQ_OP : Fld := ⟨CORE_LOCK_REQ, 12, 3, .wo, .live⟩
/-- CORE_LOCK_RESP_t (13). -/
def CORE_LOCK_RESP : RegFam := ⟨.core, 0xC810, 0x8, 8, false, 0⟩
def CORE_LOCK_RESP_RESULT : Fld := ⟨CORE_LOCK_RESP, 0, 2, .rc, .live⟩
def CORE_LOCK_RESP_BROKEN : Fld := ⟨CORE_LOCK_RESP, 2, 1, .rc, .live⟩
def CORE_LOCK_RESP_LOCK : Fld := ⟨CORE_LOCK_RESP, 4, 10, .rc, .live⟩
def CORE_LOCK_RESP_VALID : Fld := ⟨CORE_LOCK_RESP, 31, 1, .rc, .live⟩
/-- FAB_CTRL (14). -/
def FAB_CTRL : RegFam := ⟨.fabric, 0x0, 0x0, 1, false, 0x10000⟩
def FAB_CTRL_EN : Fld := ⟨FAB_CTRL, 0, 1, .rw, .live⟩
def FAB_CTRL_ROOT : Fld := ⟨FAB_CTRL, 1, 1, .ro, .live⟩
def FAB_CTRL_RING_TO : Fld := ⟨FAB_CTRL, 8, 16, .rw, .live⟩
/-- FAB_ADDR (14). -/
def FAB_ADDR : RegFam := ⟨.fabric, 0x8, 0x0, 1, false, 0⟩
def FAB_ADDR_ADDR : Fld := ⟨FAB_ADDR, 0, 16, .ro, .live⟩
/-- FAB_SHAPE (14). -/
def FAB_SHAPE : RegFam := ⟨.fabric, 0x10, 0x0, 1, false, 0⟩
def FAB_SHAPE_EXM1 : Fld := ⟨FAB_SHAPE, 0, 4, .ro, .live⟩
def FAB_SHAPE_EYM1 : Fld := ⟨FAB_SHAPE, 4, 4, .ro, .live⟩
def FAB_SHAPE_EZM1 : Fld := ⟨FAB_SHAPE, 8, 4, .ro, .live⟩
def FAB_SHAPE_RX : Fld := ⟨FAB_SHAPE, 12, 1, .ro, .live⟩
def FAB_SHAPE_RY : Fld := ⟨FAB_SHAPE, 13, 1, .ro, .live⟩
def FAB_SHAPE_RZ : Fld := ⟨FAB_SHAPE, 14, 1, .ro, .live⟩
/-- FAB_ENUM (14). -/
def FAB_ENUM : RegFam := ⟨.fabric, 0x18, 0x0, 1, false, 0x640000⟩
def FAB_ENUM_GO : Fld := ⟨FAB_ENUM, 0, 1, .wo, .live⟩
def FAB_ENUM_STATE : Fld := ⟨FAB_ENUM, 1, 3, .ro, .live⟩
def FAB_ENUM_FAIL_PORT : Fld := ⟨FAB_ENUM, 4, 3, .ro, .live⟩
def FAB_ENUM_SETTLE : Fld := ⟨FAB_ENUM, 16, 16, .rw, .live⟩
/-- FAB_DEVICE_ID (14). -/
def FAB_DEVICE_ID : RegFam := ⟨.fabric, 0x20, 0x0, 1, true, Config.deviceId⟩
def FAB_DEVICE_ID_ID : Fld := ⟨FAB_DEVICE_ID, 0, 64, .ro, .live⟩
/-- FAB_PEER_LOST (14). -/
def FAB_PEER_LOST : RegFam := ⟨.fabric, 0x28, 0x0, 1, false, 0⟩
def FAB_PEER_LOST_ADDR : Fld := ⟨FAB_PEER_LOST, 0, 16, .wo, .live⟩
def FAB_PEER_LOST_SET : Fld := ⟨FAB_PEER_LOST, 16, 1, .wo, .live⟩
def FAB_PEER_LOST_CLEAR : Fld := ⟨FAB_PEER_LOST, 17, 1, .wo, .live⟩
/-- FAB_STAT (14). -/
def FAB_STAT : RegFam := ⟨.fabric, 0x30, 0x0, 1, false, 0x2000⟩
def FAB_STAT_TAG_FREE : Fld := ⟨FAB_STAT, 0, 14, .ro, .live⟩
def FAB_STAT_ENUM_ERR : Fld := ⟨FAB_STAT, 16, 1, .w1c, .live⟩
/-- FAB_DROP_CNT (14). -/
def FAB_DROP_CNT : RegFam := ⟨.fabric, 0x38, 0x0, 1, false, 0⟩
def FAB_DROP_CNT_COUNT : Fld := ⟨FAB_DROP_CNT, 0, 32, .rc, .live⟩
/-- FAB_HDR_ERR_CNT (14). -/
def FAB_HDR_ERR_CNT : RegFam := ⟨.fabric, 0x40, 0x0, 1, false, 0⟩
def FAB_HDR_ERR_CNT_COUNT : Fld := ⟨FAB_HDR_ERR_CNT, 0, 32, .rc, .live⟩
/-- FAB_VOTE_FIX_CNT (14). -/
def FAB_VOTE_FIX_CNT : RegFam := ⟨.fabric, 0x48, 0x0, 1, false, 0⟩
def FAB_VOTE_FIX_CNT_COUNT : Fld := ⟨FAB_VOTE_FIX_CNT, 0, 32, .rc, .live⟩
/-- FAB_LOCK_REQ_i (14). -/
def FAB_LOCK_REQ : RegFam := ⟨.fabric, 0x800, 0x10, 8, false, 0⟩
def FAB_LOCK_REQ_LOCK : Fld := ⟨FAB_LOCK_REQ, 0, 10, .wo, .live⟩
def FAB_LOCK_REQ_OP : Fld := ⟨FAB_LOCK_REQ, 12, 3, .wo, .live⟩
def FAB_LOCK_REQ_DEST : Fld := ⟨FAB_LOCK_REQ, 16, 16, .wo, .live⟩
/-- FAB_LOCK_RESP_i (14). -/
def FAB_LOCK_RESP : RegFam := ⟨.fabric, 0x808, 0x10, 8, false, 0⟩
def FAB_LOCK_RESP_RESULT : Fld := ⟨FAB_LOCK_RESP, 0, 2, .rc, .live⟩
def FAB_LOCK_RESP_BROKEN : Fld := ⟨FAB_LOCK_RESP, 2, 1, .rc, .live⟩
def FAB_LOCK_RESP_VALID : Fld := ⟨FAB_LOCK_RESP, 31, 1, .rc, .live⟩
/-- FAB_PORT_CFG_p (14). -/
def FAB_PORT_CFG : RegFam := ⟨.fabric, 0x1000, 0x100, 6, false, 0x100001⟩
def FAB_PORT_CFG_EN : Fld := ⟨FAB_PORT_CFG, 0, 1, .rw, .locked⟩
def FAB_PORT_CFG_FEC : Fld := ⟨FAB_PORT_CFG, 1, 1, .rw, .locked⟩
def FAB_PORT_CFG_LANE_CE_LIM : Fld := ⟨FAB_PORT_CFG, 8, 16, .rw, .live⟩
/-- FAB_PORT_STAT_p (14). -/
def FAB_PORT_STAT : RegFam := ⟨.fabric, 0x1008, 0x100, 6, false, 0x1F00⟩
def FAB_PORT_STAT_STATE : Fld := ⟨FAB_PORT_STAT, 0, 2, .ro, .live⟩
def FAB_PORT_STAT_LANES : Fld := ⟨FAB_PORT_STAT, 4, 4, .ro, .live⟩
def FAB_PORT_STAT_LANE_OK : Fld := ⟨FAB_PORT_STAT, 8, 4, .ro, .live⟩
def FAB_PORT_STAT_OK : Fld := ⟨FAB_PORT_STAT, 12, 1, .ro, .live⟩
def FAB_PORT_STAT_LINK_ERR : Fld := ⟨FAB_PORT_STAT, 13, 1, .w1c, .live⟩
def FAB_PORT_STAT_NEIGHBOUR : Fld := ⟨FAB_PORT_STAT, 16, 16, .ro, .live⟩
/-- FAB_PORT_CRED_p (14). -/
def FAB_PORT_CRED : RegFam := ⟨.fabric, 0x1010, 0x100, 6, true, 0⟩
def FAB_PORT_CRED_REQ_VL0 : Fld := ⟨FAB_PORT_CRED, 0, 9, .ro, .live⟩
def FAB_PORT_CRED_REQ_VL1 : Fld := ⟨FAB_PORT_CRED, 16, 9, .ro, .live⟩
def FAB_PORT_CRED_RSP_VL0 : Fld := ⟨FAB_PORT_CRED, 32, 9, .ro, .live⟩
def FAB_PORT_CRED_RSP_VL1 : Fld := ⟨FAB_PORT_CRED, 48, 9, .ro, .live⟩
/-- FAB_PORT_REPLAY_p (14). -/
def FAB_PORT_REPLAY : RegFam := ⟨.fabric, 0x1018, 0x100, 6, false, 0⟩
def FAB_PORT_REPLAY_COUNT : Fld := ⟨FAB_PORT_REPLAY, 0, 32, .rc, .live⟩
/-- FAB_PORT_FEC_CE_p (14). -/
def FAB_PORT_FEC_CE : RegFam := ⟨.fabric, 0x1020, 0x100, 6, true, 0⟩
def FAB_PORT_FEC_CE_COUNT : Fld := ⟨FAB_PORT_FEC_CE, 0, 64, .rc, .live⟩
/-- FAB_PORT_FEC_UE_p (14). -/
def FAB_PORT_FEC_UE : RegFam := ⟨.fabric, 0x1028, 0x100, 6, false, 0⟩
def FAB_PORT_FEC_UE_COUNT : Fld := ⟨FAB_PORT_FEC_UE, 0, 32, .rc, .live⟩
/-- FAB_PORT_FWD_p (14). -/
def FAB_PORT_FWD : RegFam := ⟨.fabric, 0x1030, 0x100, 6, true, 0⟩
def FAB_PORT_FWD_COUNT : Fld := ⟨FAB_PORT_FWD, 0, 64, .rc, .live⟩
/-- FAB_PORT_TX_LINES_p (14). -/
def FAB_PORT_TX_LINES : RegFam := ⟨.fabric, 0x1038, 0x100, 6, true, 0⟩
def FAB_PORT_TX_LINES_COUNT : Fld := ⟨FAB_PORT_TX_LINES, 0, 64, .rc, .live⟩
/-- FAB_WIN_BASE_w (14). -/
def FAB_WIN_BASE : RegFam := ⟨.fabric, 0x10000, 0x20, 256, true, 0⟩
def FAB_WIN_BASE_BASE : Fld := ⟨FAB_WIN_BASE, 12, 28, .rw, .locked⟩
/-- FAB_WIN_CFG_w (14). -/
def FAB_WIN_CFG : RegFam := ⟨.fabric, 0x10008, 0x20, 256, false, 0⟩
def FAB_WIN_CFG_SIZE : Fld := ⟨FAB_WIN_CFG, 0, 26, .rw, .locked⟩
def FAB_WIN_CFG_RD : Fld := ⟨FAB_WIN_CFG, 28, 1, .rw, .locked⟩
def FAB_WIN_CFG_WR : Fld := ⟨FAB_WIN_CFG, 29, 1, .rw, .locked⟩
/-- FAB_WIN_PEER_w (14). -/
def FAB_WIN_PEER : RegFam := ⟨.fabric, 0x1000C, 0x20, 256, false, 0⟩
def FAB_WIN_PEER_MATCH : Fld := ⟨FAB_WIN_PEER, 0, 16, .rw, .locked⟩
def FAB_WIN_PEER_MASK : Fld := ⟨FAB_WIN_PEER, 16, 16, .rw, .locked⟩
/-- FAB_WIN_CTRL_w (14). -/
def FAB_WIN_CTRL : RegFam := ⟨.fabric, 0x10010, 0x20, 256, false, 0⟩
def FAB_WIN_CTRL_OPEN : Fld := ⟨FAB_WIN_CTRL, 0, 1, .wo, .live⟩
def FAB_WIN_CTRL_CLOSE : Fld := ⟨FAB_WIN_CTRL, 1, 1, .wo, .live⟩
/-- FAB_WIN_STAT_w (14). -/
def FAB_WIN_STAT : RegFam := ⟨.fabric, 0x10018, 0x20, 256, false, 0⟩
def FAB_WIN_STAT_STATE : Fld := ⟨FAB_WIN_STAT, 0, 2, .ro, .live⟩
def FAB_WIN_STAT_WIN_ERR : Fld := ⟨FAB_WIN_STAT, 2, 1, .w1c, .live⟩
def FAB_WIN_STAT_OUTSTANDING : Fld := ⟨FAB_WIN_STAT, 3, 14, .ro, .live⟩
def FAB_WIN_STAT_REFUSED : Fld := ⟨FAB_WIN_STAT, 20, 12, .rc, .live⟩
/-- FAB_ROUTE_d (14). -/
def FAB_ROUTE : RegFam := ⟨.fabric, 0x20000, 0x8, 4096, false, 0⟩
def FAB_ROUTE_PORT : Fld := ⟨FAB_ROUTE, 0, 3, .rw, .live⟩
def FAB_ROUTE_EN : Fld := ⟨FAB_ROUTE, 3, 1, .rw, .live⟩
def FAB_ROUTE_FVL : Fld := ⟨FAB_ROUTE, 4, 1, .rw, .live⟩
/-- FAB_RING_BASE_f (14). -/
def FAB_RING_BASE : RegFam := ⟨.fabric, 0x40000, 0x20, 8192, true, 0⟩
def FAB_RING_BASE_ADDR : Fld := ⟨FAB_RING_BASE, 6, 34, .rw, .locked⟩
/-- FAB_RING_CFG_f (14). -/
def FAB_RING_CFG : RegFam := ⟨.fabric, 0x40008, 0x20, 8192, false, 0⟩
def FAB_RING_CFG_EN : Fld := ⟨FAB_RING_CFG, 0, 1, .rw, .locked⟩
def FAB_RING_CFG_LOG2SZ : Fld := ⟨FAB_RING_CFG, 4, 4, .rw, .locked⟩
def FAB_RING_CFG_ERR : Fld := ⟨FAB_RING_CFG, 8, 1, .w1c, .live⟩
def FAB_RING_CFG_PEER : Fld := ⟨FAB_RING_CFG, 16, 16, .rw, .locked⟩
/-- FAB_RING_TGT_f (14). -/
def FAB_RING_TGT : RegFam := ⟨.fabric, 0x4000C, 0x20, 8192, false, 0⟩
def FAB_RING_TGT_TRING : Fld := ⟨FAB_RING_TGT, 0, 14, .rw, .locked⟩
/-- FAB_RING_TAIL_f (14). -/
def FAB_RING_TAIL : RegFam := ⟨.fabric, 0x40010, 0x20, 8192, false, 0⟩
def FAB_RING_TAIL_TAIL : Fld := ⟨FAB_RING_TAIL, 0, 32, .rw, .live⟩
/-- FAB_RING_HEAD_f (14). -/
def FAB_RING_HEAD : RegFam := ⟨.fabric, 0x40014, 0x20, 8192, false, 0⟩
def FAB_RING_HEAD_HEAD : Fld := ⟨FAB_RING_HEAD, 0, 32, .ro, .live⟩
/-- FAB_RING_DONE_f (14). -/
def FAB_RING_DONE : RegFam := ⟨.fabric, 0x40018, 0x20, 8192, false, 0⟩
def FAB_RING_DONE_DONE : Fld := ⟨FAB_RING_DONE, 0, 32, .ro, .live⟩
/-- HOST_CTRL (15). -/
def HOST_CTRL : RegFam := ⟨.host, 0x0, 0x0, 1, false, 0x70001001⟩
def HOST_CTRL_EN : Fld := ⟨HOST_CTRL, 0, 1, .rw, .live⟩
def HOST_CTRL_ENCAP : Fld := ⟨HOST_CTRL, 1, 2, .rw, .locked⟩
def HOST_CTRL_JUMBO : Fld := ⟨HOST_CTRL, 3, 1, .rw, .locked⟩
def HOST_CTRL_VLAN_EN : Fld := ⟨HOST_CTRL, 4, 1, .rw, .locked⟩
def HOST_CTRL_KILL : Fld := ⟨HOST_CTRL, 5, 1, .wo, .live⟩
def HOST_CTRL_RTO : Fld := ⟨HOST_CTRL, 8, 8, .rw, .live⟩
def HOST_CTRL_VID : Fld := ⟨HOST_CTRL, 16, 12, .rw, .locked⟩
def HOST_CTRL_RMAX : Fld := ⟨HOST_CTRL, 28, 4, .rw, .live⟩
/-- HOST_ETYPE (15). -/
def HOST_ETYPE : RegFam := ⟨.host, 0x8, 0x0, 1, false, 0xB4A088B5⟩
def HOST_ETYPE_ETYPE : Fld := ⟨HOST_ETYPE, 0, 16, .rw, .locked⟩
def HOST_ETYPE_UDP_PORT : Fld := ⟨HOST_ETYPE, 16, 16, .rw, .locked⟩
/-- HOST_IPV4 (15). -/
def HOST_IPV4 : RegFam := ⟨.host, 0x10, 0x0, 1, false, 0⟩
def HOST_IPV4_ADDR : Fld := ⟨HOST_IPV4, 0, 32, .rw, .locked⟩
/-- HOST_IPV6_j (15). -/
def HOST_IPV6 : RegFam := ⟨.host, 0x18, 0x4, 4, false, 0⟩
def HOST_IPV6_ADDR : Fld := ⟨HOST_IPV6, 0, 32, .rw, .locked⟩
/-- HOST_PHY (15). -/
def HOST_PHY : RegFam := ⟨.host, 0x30, 0x0, 1, false, 0x1⟩
def HOST_PHY_AN : Fld := ⟨HOST_PHY, 0, 1, .rw, .locked⟩
def HOST_PHY_ROLE : Fld := ⟨HOST_PHY, 1, 1, .rw, .locked⟩
/-- HOST_MAC_ADDR (15): bits [63:48] read 0, and the first octet, taken to be [47:40] (PRESUMED, log 5), is a unicast and universal
address' (R537). -/
def HOST_MAC_ADDR : RegFam := ⟨.host, 0x38, 0x0, 1, true, Config.macAddr &&& 0xFCFFFFFFFFFF#64⟩
def HOST_MAC_ADDR_ADDR : Fld := ⟨HOST_MAC_ADDR, 0, 48, .ro, .live⟩
/-- HOST_STAT (15). -/
def HOST_STAT : RegFam := ⟨.host, 0x40, 0x0, 1, false, 0⟩
def HOST_STAT_LINK : Fld := ⟨HOST_STAT, 0, 1, .ro, .live⟩
def HOST_STAT_SESSION : Fld := ⟨HOST_STAT, 1, 1, .ro, .live⟩
def HOST_STAT_SECURE : Fld := ⟨HOST_STAT, 2, 1, .ro, .live⟩
def HOST_STAT_LEADER : Fld := ⟨HOST_STAT, 3, 1, .ro, .live⟩
def HOST_STAT_SESSNUM : Fld := ⟨HOST_STAT, 16, 16, .ro, .live⟩
/-- HOST_CRC_ERR_CNT (15). -/
def HOST_CRC_ERR_CNT : RegFam := ⟨.host, 0x48, 0x0, 1, false, 0⟩
def HOST_CRC_ERR_CNT_COUNT : Fld := ⟨HOST_CRC_ERR_CNT, 0, 32, .rc, .live⟩
/-- HOST_SEQ_DROP_CNT (15). -/
def HOST_SEQ_DROP_CNT : RegFam := ⟨.host, 0x50, 0x0, 1, false, 0⟩
def HOST_SEQ_DROP_CNT_COUNT : Fld := ⟨HOST_SEQ_DROP_CNT, 0, 32, .rc, .live⟩
/-- HOST_RETX_CNT (15). -/
def HOST_RETX_CNT : RegFam := ⟨.host, 0x58, 0x0, 1, false, 0⟩
def HOST_RETX_CNT_COUNT : Fld := ⟨HOST_RETX_CNT, 0, 32, .rc, .live⟩
/-- HOST_DROP_CNT (15). -/
def HOST_DROP_CNT : RegFam := ⟨.host, 0x60, 0x0, 1, false, 0⟩
def HOST_DROP_CNT_COUNT : Fld := ⟨HOST_DROP_CNT, 0, 32, .rc, .live⟩
/-- HOST_MACSEC (15). -/
def HOST_MACSEC : RegFam := ⟨.host, 0x68, 0x0, 1, false, 0x800000⟩
def HOST_MACSEC_EN : Fld := ⟨HOST_MACSEC, 0, 1, .rw, .locked⟩
def HOST_MACSEC_REKEY_PN : Fld := ⟨HOST_MACSEC, 8, 16, .rw, .live⟩
/-- HOST_MACSEC_DROP_CNT (15). -/
def HOST_MACSEC_DROP_CNT : RegFam := ⟨.host, 0x70, 0x0, 1, false, 0⟩
def HOST_MACSEC_DROP_CNT_COUNT : Fld := ⟨HOST_MACSEC_DROP_CNT, 0, 32, .rc, .live⟩
/-- HOST_EVT_CFG (15). -/
def HOST_EVT_CFG : RegFam := ⟨.host, 0x78, 0x0, 1, false, 0x800007FF⟩
def HOST_EVT_CFG_RING : Fld := ⟨HOST_EVT_CFG, 0, 11, .rw, .locked⟩
def HOST_EVT_CFG_EN : Fld := ⟨HOST_EVT_CFG, 31, 1, .rw, .live⟩
/-- HOST_RING_BASE_h (15). -/
def HOST_RING_BASE : RegFam := ⟨.host, 0x10000, 0x20, 2048, true, 0⟩
def HOST_RING_BASE_ADDR : Fld := ⟨HOST_RING_BASE, 6, 34, .rw, .locked⟩
/-- HOST_RING_CFG_h (15). -/
def HOST_RING_CFG : RegFam := ⟨.host, 0x10008, 0x20, 2048, false, 0⟩
def HOST_RING_CFG_EN : Fld := ⟨HOST_RING_CFG, 0, 1, .rw, .live⟩
def HOST_RING_CFG_LOG2SZ : Fld := ⟨HOST_RING_CFG, 4, 4, .rw, .locked⟩
/-- HOST_RING_TAIL_h (15). -/
def HOST_RING_TAIL : RegFam := ⟨.host, 0x10010, 0x20, 2048, false, 0⟩
def HOST_RING_TAIL_TAIL : Fld := ⟨HOST_RING_TAIL, 0, 32, .rw, .live⟩
/-- HOST_RING_HEAD_h (15). -/
def HOST_RING_HEAD : RegFam := ⟨.host, 0x10014, 0x20, 2048, false, 0⟩
def HOST_RING_HEAD_HEAD : Fld := ⟨HOST_RING_HEAD, 0, 32, .ro, .live⟩
/-- HOST_RING_DONE_h (15). -/
def HOST_RING_DONE : RegFam := ⟨.host, 0x10018, 0x20, 2048, false, 0⟩
def HOST_RING_DONE_DONE : Fld := ⟨HOST_RING_DONE, 0, 32, .ro, .live⟩
/-- MGMT_BOOT_STAT (16). -/
def MGMT_BOOT_STAT : RegFam := ⟨.mgmt, 0x0, 0x0, 1, false, 0x1E00⟩
def MGMT_BOOT_STAT_PHASE : Fld := ⟨MGMT_BOOT_STAT, 0, 4, .ro, .live⟩
def MGMT_BOOT_STAT_ERR : Fld := ⟨MGMT_BOOT_STAT, 4, 4, .ro, .live⟩
def MGMT_BOOT_STAT_IMAGE : Fld := ⟨MGMT_BOOT_STAT, 8, 1, .ro, .live⟩
def MGMT_BOOT_STAT_CFG_COPY : Fld := ⟨MGMT_BOOT_STAT, 9, 2, .ro, .live⟩
def MGMT_BOOT_STAT_UCAL_COPY : Fld := ⟨MGMT_BOOT_STAT, 11, 2, .ro, .live⟩
def MGMT_BOOT_STAT_CONFIRMED : Fld := ⟨MGMT_BOOT_STAT, 13, 1, .ro, .live⟩
/-- MGMT_RESET_CAUSE (16). -/
def MGMT_RESET_CAUSE : RegFam := ⟨.mgmt, 0x8, 0x0, 1, false, 0⟩
def MGMT_RESET_CAUSE_CAUSE : Fld := ⟨MGMT_RESET_CAUSE, 0, 3, .ro, .live⟩
def MGMT_RESET_CAUSE_IMAGE : Fld := ⟨MGMT_RESET_CAUSE, 3, 1, .ro, .live⟩
def MGMT_RESET_CAUSE_CONFIRMED : Fld := ⟨MGMT_RESET_CAUSE, 4, 1, .ro, .live⟩
/-- MGMT_RESET (16). -/
def MGMT_RESET : RegFam := ⟨.mgmt, 0x10, 0x0, 1, false, 0⟩
def MGMT_RESET_GO : Fld := ⟨MGMT_RESET, 0, 1, .wo, .live⟩
/-- MGMT_STORE_REQ (16). -/
def MGMT_STORE_REQ : RegFam := ⟨.mgmt, 0x18, 0x0, 1, true, 0⟩
def MGMT_STORE_REQ_AREA : Fld := ⟨MGMT_STORE_REQ, 0, 4, .wo, .live⟩
def MGMT_STORE_REQ_GO : Fld := ⟨MGMT_STORE_REQ, 7, 1, .wo, .live⟩
def MGMT_STORE_REQ_LINES : Fld := ⟨MGMT_STORE_REQ, 8, 18, .wo, .live⟩
def MGMT_STORE_REQ_SRC : Fld := ⟨MGMT_STORE_REQ, 30, 34, .wo, .live⟩
/-- MGMT_STORE_STAT (16). -/
def MGMT_STORE_STAT : RegFam := ⟨.mgmt, 0x20, 0x0, 1, false, 0⟩
def MGMT_STORE_STAT_BUSY : Fld := ⟨MGMT_STORE_STAT, 0, 1, .ro, .live⟩
def MGMT_STORE_STAT_DEFERRED : Fld := ⟨MGMT_STORE_STAT, 1, 1, .ro, .live⟩
def MGMT_STORE_STAT_COPIES : Fld := ⟨MGMT_STORE_STAT, 2, 2, .ro, .live⟩
def MGMT_STORE_STAT_CODE : Fld := ⟨MGMT_STORE_STAT, 8, 8, .ro, .live⟩
/-- MGMT_HOLDUP_CFG (16). -/
def MGMT_HOLDUP_CFG : RegFam := ⟨.mgmt, 0x28, 0x0, 1, false, 0⟩
def MGMT_HOLDUP_CFG_CAP : Fld := ⟨MGMT_HOLDUP_CFG, 0, 16, .rw, .locked⟩
def MGMT_HOLDUP_CFG_VMIN : Fld := ⟨MGMT_HOLDUP_CFG, 16, 12, .rw, .locked⟩
/-- MGMT_HOLDUP_PWR (16). -/
def MGMT_HOLDUP_PWR : RegFam := ⟨.mgmt, 0x30, 0x0, 1, false, 0x141009C4⟩
def MGMT_HOLDUP_PWR_PWR : Fld := ⟨MGMT_HOLDUP_PWR, 0, 16, .rw, .locked⟩
def MGMT_HOLDUP_PWR_RATIO : Fld := ⟨MGMT_HOLDUP_PWR, 16, 8, .rw, .locked⟩
def MGMT_HOLDUP_PWR_MARGIN : Fld := ⟨MGMT_HOLDUP_PWR, 24, 8, .rw, .locked⟩
/-- MGMT_HOLDUP_STAT (16). -/
def MGMT_HOLDUP_STAT : RegFam := ⟨.mgmt, 0x38, 0x0, 1, false, 0⟩
def MGMT_HOLDUP_STAT_VCAP : Fld := ⟨MGMT_HOLDUP_STAT, 0, 16, .ro, .live⟩
def MGMT_HOLDUP_STAT_LOW : Fld := ⟨MGMT_HOLDUP_STAT, 16, 1, .ro, .live⟩
def MGMT_HOLDUP_STAT_DEFER_CNT : Fld := ⟨MGMT_HOLDUP_STAT, 24, 8, .rc, .live⟩
/-- MGMT_FLASH_TIME (16). -/
def MGMT_FLASH_TIME : RegFam := ⟨.mgmt, 0x40, 0x0, 1, false, 0x7D003E8⟩
def MGMT_FLASH_TIME_T_PROG : Fld := ⟨MGMT_FLASH_TIME, 0, 16, .rw, .locked⟩
def MGMT_FLASH_TIME_T_ERASE : Fld := ⟨MGMT_FLASH_TIME, 16, 16, .rw, .locked⟩
/-- MGMT_CAL_STAT (16). -/
def MGMT_CAL_STAT : RegFam := ⟨.mgmt, 0x48, 0x0, 1, false, 0⟩
def MGMT_CAL_STAT_FACTORY_BAD : Fld := ⟨MGMT_CAL_STAT, 0, 1, .ro, .live⟩
def MGMT_CAL_STAT_USER_NONE : Fld := ⟨MGMT_CAL_STAT, 1, 1, .ro, .live⟩
def MGMT_CAL_STAT_USER_CONFLICT : Fld := ⟨MGMT_CAL_STAT, 2, 1, .ro, .live⟩
def MGMT_CAL_STAT_CLAMPED : Fld := ⟨MGMT_CAL_STAT, 4, 12, .ro, .live⟩
/-- MGMT_VOTE_STAT (16). -/
def MGMT_VOTE_STAT : RegFam := ⟨.mgmt, 0x50, 0x0, 1, false, 0⟩
def MGMT_VOTE_STAT_LC_FAIL : Fld := ⟨MGMT_VOTE_STAT, 0, 1, .ro, .live⟩
def MGMT_VOTE_STAT_LC_FIX : Fld := ⟨MGMT_VOTE_STAT, 16, 16, .rc, .live⟩
/-- MGMT_BOOT_POLICY (16). -/
def MGMT_BOOT_POLICY : RegFam := ⟨.mgmt, 0x58, 0x0, 1, false, 0⟩
def MGMT_BOOT_POLICY_TRAIN : Fld := ⟨MGMT_BOOT_POLICY, 0, 1, .rw, .locked⟩
def MGMT_BOOT_POLICY_SKIP : Fld := ⟨MGMT_BOOT_POLICY, 16, 12, .ro, .live⟩
/-- MGMT_CFG_SEL (16). -/
def MGMT_CFG_SEL : RegFam := ⟨.mgmt, 0x60, 0x0, 1, false, 0⟩
def MGMT_CFG_SEL_COPY : Fld := ⟨MGMT_CFG_SEL, 0, 2, .wo, .live⟩
def MGMT_CFG_SEL_GO : Fld := ⟨MGMT_CFG_SEL, 4, 1, .wo, .live⟩
def MGMT_CFG_SEL_ERR : Fld := ⟨MGMT_CFG_SEL, 8, 1, .w1c, .live⟩
/-- MGMT_FLASH_CMD (16). -/
def MGMT_FLASH_CMD : RegFam := ⟨.mgmt, 0x68, 0x0, 1, true, 0⟩
def MGMT_FLASH_CMD_OP : Fld := ⟨MGMT_FLASH_CMD, 0, 2, .wo, .live⟩
def MGMT_FLASH_CMD_ADDR : Fld := ⟨MGMT_FLASH_CMD, 32, 26, .wo, .live⟩
/-- SEC_LC_STAT (17). -/
def SEC_LC_STAT : RegFam := ⟨.sec, 0x0, 0x0, 1, false, 0⟩
def SEC_LC_STAT_STATE : Fld := ⟨SEC_LC_STAT, 0, 3, .ro, .live⟩
def SEC_LC_STAT_PENDING : Fld := ⟨SEC_LC_STAT, 3, 3, .ro, .live⟩
def SEC_LC_STAT_REQ_CODE : Fld := ⟨SEC_LC_STAT, 8, 8, .ro, .live⟩
def SEC_LC_STAT_REQ_BUSY : Fld := ⟨SEC_LC_STAT, 16, 1, .ro, .live⟩
/-- SEC_LC_REQ (17). -/
def SEC_LC_REQ : RegFam := ⟨.sec, 0x8, 0x0, 1, false, 0⟩
def SEC_LC_REQ_TARGET : Fld := ⟨SEC_LC_REQ, 0, 3, .wo, .live⟩
def SEC_LC_REQ_GO : Fld := ⟨SEC_LC_REQ, 7, 1, .wo, .live⟩
/-- SEC_LC_NONCE (17). -/
def SEC_LC_NONCE : RegFam := ⟨.sec, 0x10, 0x0, 1, true, Config.firstNonce⟩
def SEC_LC_NONCE_NONCE : Fld := ⟨SEC_LC_NONCE, 0, 64, .ro, .live⟩
/-- SEC_RMA_ADDR (17). -/
def SEC_RMA_ADDR : RegFam := ⟨.sec, 0x18, 0x0, 1, true, 0⟩
def SEC_RMA_ADDR_ADDR : Fld := ⟨SEC_RMA_ADDR, 6, 34, .rw, .locked⟩
/-- SEC_LC_SHADOW (17). -/
def SEC_LC_SHADOW : RegFam := ⟨.sec, 0x20, 0x0, 1, false, 0⟩
def SEC_LC_SHADOW_STATE : Fld := ⟨SEC_LC_SHADOW, 0, 3, .ro, .live⟩
/-- SEC_KEYGEN (17). -/
def SEC_KEYGEN : RegFam := ⟨.sec, 0x28, 0x0, 1, false, 0⟩
def SEC_KEYGEN_GO : Fld := ⟨SEC_KEYGEN, 0, 1, .wo, .live⟩
/-- SEC_KEY_STAT (17). -/
def SEC_KEY_STAT : RegFam := ⟨.sec, 0x30, 0x0, 1, false, 0⟩
def SEC_KEY_STAT_PRESENT : Fld := ⟨SEC_KEY_STAT, 0, 1, .ro, .live⟩
def SEC_KEY_STAT_READY : Fld := ⟨SEC_KEY_STAT, 1, 1, .ro, .live⟩
def SEC_KEY_STAT_BAD : Fld := ⟨SEC_KEY_STAT, 2, 1, .ro, .live⟩
def SEC_KEY_STAT_EXHAUSTED : Fld := ⟨SEC_KEY_STAT, 3, 1, .ro, .live⟩
def SEC_KEY_STAT_WAIT : Fld := ⟨SEC_KEY_STAT, 4, 1, .ro, .live⟩
/-- SEC_XMSS_NEXT (17). -/
def SEC_XMSS_NEXT : RegFam := ⟨.sec, 0x38, 0x0, 1, true, 0⟩
def SEC_XMSS_NEXT_LEAF : Fld := ⟨SEC_XMSS_NEXT, 0, 40, .ro, .live⟩
/-- SEC_XMSS_RSV (17). -/
def SEC_XMSS_RSV : RegFam := ⟨.sec, 0x40, 0x0, 1, true, 0⟩
def SEC_XMSS_RSV_NEXT_LEAF : Fld := ⟨SEC_XMSS_RSV, 0, 41, .ro, .live⟩
/-- SEC_XMSS_STAT (17). -/
def SEC_XMSS_STAT : RegFam := ⟨.sec, 0x48, 0x0, 1, false, 0⟩
def SEC_XMSS_STAT_SEGS : Fld := ⟨SEC_XMSS_STAT, 0, 13, .ro, .live⟩
def SEC_XMSS_STAT_BADREC : Fld := ⟨SEC_XMSS_STAT, 16, 16, .ro, .live⟩
/-- SEC_SVN (17). -/
def SEC_SVN : RegFam := ⟨.sec, 0x50, 0x0, 1, false, 0⟩
def SEC_SVN_FLOOR : Fld := ⟨SEC_SVN, 0, 7, .ro, .live⟩
def SEC_SVN_RAISE : Fld := ⟨SEC_SVN, 16, 7, .wo, .live⟩
def SEC_SVN_GO : Fld := ⟨SEC_SVN, 31, 1, .wo, .live⟩
/-- SEC_SIGN_CNT (17). -/
def SEC_SIGN_CNT : RegFam := ⟨.sec, 0x58, 0x0, 1, false, 0⟩
def SEC_SIGN_CNT_COUNT : Fld := ⟨SEC_SIGN_CNT, 0, 32, .rc, .live⟩
/-- ASSAY_CTRL (18). -/
def ASSAY_CTRL : RegFam := ⟨.assay, 0x0, 0x0, 1, false, 0xA003C01⟩
def ASSAY_CTRL_EN : Fld := ⟨ASSAY_CTRL, 0, 1, .rw, .live⟩
def ASSAY_CTRL_PERIOD : Fld := ⟨ASSAY_CTRL, 8, 16, .rw, .live⟩
def ASSAY_CTRL_NOTICE : Fld := ⟨ASSAY_CTRL, 24, 8, .rw, .live⟩
/-- ASSAY_SCHED (18). -/
def ASSAY_SCHED : RegFam := ⟨.assay, 0x8, 0x0, 1, false, 0x3F0514⟩
def ASSAY_SCHED_GRACE : Fld := ⟨ASSAY_SCHED, 0, 8, .rw, .live⟩
def ASSAY_SCHED_SKIP_LIM : Fld := ⟨ASSAY_SCHED, 8, 8, .rw, .live⟩
def ASSAY_SCHED_CORE_MASK : Fld := ⟨ASSAY_SCHED, 16, 6, .rw, .locked⟩
/-- ASSAY_PWR (18). -/
def ASSAY_PWR : RegFam := ⟨.assay, 0x10, 0x0, 1, false, 0x140000⟩
def ASSAY_PWR_HEADROOM : Fld := ⟨ASSAY_PWR, 0, 10, .ro, .live⟩
def ASSAY_PWR_NEED : Fld := ⟨ASSAY_PWR, 16, 10, .rw, .live⟩
/-- ASSAY_STAT (18). -/
def ASSAY_STAT : RegFam := ⟨.assay, 0x18, 0x0, 1, false, 0⟩
def ASSAY_STAT_STATE : Fld := ⟨ASSAY_STAT, 0, 2, .ro, .live⟩
def ASSAY_STAT_CORE : Fld := ⟨ASSAY_STAT, 4, 3, .ro, .live⟩
def ASSAY_STAT_RESULT : Fld := ⟨ASSAY_STAT, 8, 2, .ro, .live⟩
def ASSAY_STAT_REQ_ERR : Fld := ⟨ASSAY_STAT, 16, 1, .w1c, .live⟩
/-- ASSAY_CORE_c (18). -/
def ASSAY_CORE : RegFam := ⟨.assay, 0x20, 0x8, 6, false, 0⟩
def ASSAY_CORE_SLICES : Fld := ⟨ASSAY_CORE, 0, 16, .rc, .live⟩
def ASSAY_CORE_SKIPS : Fld := ⟨ASSAY_CORE, 16, 8, .ro, .live⟩
/-- ASSAY_REQ (18). -/
def ASSAY_REQ : RegFam := ⟨.assay, 0x60, 0x0, 1, false, 0⟩
def ASSAY_REQ_CORE : Fld := ⟨ASSAY_REQ, 0, 3, .wo, .live⟩
def ASSAY_REQ_GO : Fld := ⟨ASSAY_REQ, 7, 1, .wo, .live⟩
/-- ASSAY_RETIRE (18). -/
def ASSAY_RETIRE : RegFam := ⟨.assay, 0x68, 0x0, 1, false, 0⟩
def ASSAY_RETIRE_CORE : Fld := ⟨ASSAY_RETIRE, 0, 3, .wo, .live⟩
def ASSAY_RETIRE_GO : Fld := ⟨ASSAY_RETIRE, 7, 1, .wo, .live⟩
/-- ASSAY_FUSE (18). -/
def ASSAY_FUSE : RegFam := ⟨.assay, 0x70, 0x0, 1, false, 0xA00⟩
def ASSAY_FUSE_GO : Fld := ⟨ASSAY_FUSE, 0, 1, .wo, .live⟩
def ASSAY_FUSE_BUSY : Fld := ⟨ASSAY_FUSE, 1, 1, .ro, .live⟩
def ASSAY_FUSE_FUSE_DELAY : Fld := ⟨ASSAY_FUSE, 8, 8, .rw, .live⟩
def ASSAY_FUSE_UNFUSED : Fld := ⟨ASSAY_FUSE, 16, 10, .ro, .live⟩
/-- LEDGER_CFG (18). -/
def LEDGER_CFG : RegFam := ⟨.event, 0x0, 0x0, 1, false, 0⟩
def LEDGER_CFG_SPILL_INFO : Fld := ⟨LEDGER_CFG, 0, 1, .rw, .live⟩
/-- LEDGER_STAT (18). -/
def LEDGER_STAT : RegFam := ⟨.event, 0x8, 0x0, 1, false, 0⟩
def LEDGER_STAT_HELD : Fld := ⟨LEDGER_STAT, 0, 14, .ro, .live⟩
def LEDGER_STAT_DUMP_BUSY : Fld := ⟨LEDGER_STAT, 14, 1, .ro, .live⟩
def LEDGER_STAT_DUMP_CODE : Fld := ⟨LEDGER_STAT, 16, 8, .ro, .live⟩
/-- LEDGER_LOST (18). -/
def LEDGER_LOST : RegFam := ⟨.event, 0x10, 0x0, 1, false, 0⟩
def LEDGER_LOST_COUNT : Fld := ⟨LEDGER_LOST, 0, 32, .rc, .live⟩
/-- LEDGER_DUMP (18). -/
def LEDGER_DUMP : RegFam := ⟨.event, 0x18, 0x0, 1, false, 0⟩
def LEDGER_DUMP_FIRST : Fld := ⟨LEDGER_DUMP, 0, 18, .wo, .live⟩
def LEDGER_DUMP_COUNT : Fld := ⟨LEDGER_DUMP, 18, 12, .wo, .live⟩
def LEDGER_DUMP_GO : Fld := ⟨LEDGER_DUMP, 31, 1, .wo, .live⟩
/-- LEDGER_DUMP_ADDR (18). -/
def LEDGER_DUMP_ADDR : RegFam := ⟨.event, 0x20, 0x0, 1, true, 0⟩
def LEDGER_DUMP_ADDR_ADDR : Fld := ⟨LEDGER_DUMP_ADDR, 6, 34, .rw, .locked⟩
/-- MGMT_PWR_CFG (19). -/
def MGMT_PWR_CFG : RegFam := ⟨.mgmt, 0x100, 0x0, 1, false, 0x1E141B8⟩
def MGMT_PWR_CFG_PWR_LIM : Fld := ⟨MGMT_PWR_CFG, 0, 10, .rw, .live⟩
def MGMT_PWR_CFG_PWR_HYST : Fld := ⟨MGMT_PWR_CFG, 12, 8, .rw, .live⟩
def MGMT_PWR_CFG_PWR_ALLOW : Fld := ⟨MGMT_PWR_CFG, 20, 8, .rw, .live⟩
/-- MGMT_PWR_STAT (19). -/
def MGMT_PWR_STAT : RegFam := ⟨.mgmt, 0x108, 0x0, 1, false, 0xA2800000⟩
def MGMT_PWR_STAT_DRAW : Fld := ⟨MGMT_PWR_STAT, 0, 10, .ro, .live⟩
def MGMT_PWR_STAT_THR : Fld := ⟨MGMT_PWR_STAT, 16, 4, .ro, .live⟩
def MGMT_PWR_STAT_VCORE_MV : Fld := ⟨MGMT_PWR_STAT, 22, 10, .ro, .live⟩
/-- MGMT_THERM_CFG (19). -/
def MGMT_THERM_CFG : RegFam := ⟨.mgmt, 0x110, 0x0, 1, false, 0x665F⟩
def MGMT_THERM_CFG_THROT_C : Fld := ⟨MGMT_THERM_CFG, 0, 8, .rw, .live⟩
def MGMT_THERM_CFG_CRIT_C : Fld := ⟨MGMT_THERM_CFG, 8, 8, .rw, .live⟩
/-- MGMT_THERM_STAT (19). -/
def MGMT_THERM_STAT : RegFam := ⟨.mgmt, 0x118, 0x0, 1, false, 0⟩
def MGMT_THERM_STAT_HOT : Fld := ⟨MGMT_THERM_STAT, 0, 12, .ro, .live⟩
def MGMT_THERM_STAT_HOT_SENS : Fld := ⟨MGMT_THERM_STAT, 12, 5, .ro, .live⟩
def MGMT_THERM_STAT_THROT : Fld := ⟨MGMT_THERM_STAT, 20, 1, .ro, .live⟩
def MGMT_THERM_STAT_CRIT : Fld := ⟨MGMT_THERM_STAT, 21, 1, .ro, .live⟩
def MGMT_THERM_STAT_Q : Fld := ⟨MGMT_THERM_STAT, 24, 4, .ro, .live⟩
/-- MGMT_STRAP (19). -/
def MGMT_STRAP : RegFam := ⟨.mgmt, 0x120, 0x0, 1, false, 0⟩
def MGMT_STRAP_ROOT_EN : Fld := ⟨MGMT_STRAP, 0, 1, .ro, .live⟩
def MGMT_STRAP_SMB_ADDR : Fld := ⟨MGMT_STRAP, 1, 2, .ro, .live⟩
/-- MGMT_TSENS_j (19). -/
def MGMT_TSENS : RegFam := ⟨.mgmt, 0x140, 0x4, 20, false, 0⟩
def MGMT_TSENS_TEMP : Fld := ⟨MGMT_TSENS, 0, 12, .ro, .live⟩
/-- MGMT_VMON_j (19). -/
def MGMT_VMON : RegFam := ⟨.mgmt, 0x1A0, 0x4, 12, false, 0⟩
def MGMT_VMON_MV : Fld := ⟨MGMT_VMON, 0, 13, .ro, .live⟩
def MGMT_VMON_LOW : Fld := ⟨MGMT_VMON, 16, 1, .w1c, .live⟩
def MGMT_VMON_HIGH : Fld := ⟨MGMT_VMON, 17, 1, .w1c, .live⟩
/-- HOP_PLAN_CTL (11). -/
def HOP_PLAN_CTL : RegFam := ⟨.hopper, 0x2000, 0x100, 32, false, 0⟩
def HOP_PLAN_CTL_DRAM_EN : Fld := ⟨HOP_PLAN_CTL, 0, 1, .rw, .staged⟩
/-- HOP_PLAN_BASE (11). -/
def HOP_PLAN_BASE : RegFam := ⟨.hopper, 0x2008, 0x100, 32, true, 0⟩
def HOP_PLAN_BASE_DRAM_BASE : Fld := ⟨HOP_PLAN_BASE, 0, 37, .rw, .staged⟩
/-- HOP_PLAN_PITCH (11). -/
def HOP_PLAN_PITCH : RegFam := ⟨.hopper, 0x2010, 0x100, 32, false, 0⟩
def HOP_PLAN_PITCH_DRAM_PITCH : Fld := ⟨HOP_PLAN_PITCH, 0, 32, .rw, .staged⟩
/-- HOP_PLAN_ROWS (11). -/
def HOP_PLAN_ROWS : RegFam := ⟨.hopper, 0x2014, 0x100, 32, false, 0⟩
def HOP_PLAN_ROWS_DRAM_ROWS : Fld := ⟨HOP_PLAN_ROWS, 0, 32, .rw, .staged⟩
/-- HOP_PIECE (11). -/
def HOP_PIECE : RegFam := ⟨.hopper, 0x2040, 0x10, 512, false, 0⟩
def HOP_PIECE_EN : Fld := ⟨HOP_PIECE, 0, 1, .rw, .staged⟩
def HOP_PIECE_RING : Fld := ⟨HOP_PIECE, 4, 4, .rw, .staged⟩
def HOP_PIECE_XOFF : Fld := ⟨HOP_PIECE, 16, 16, .rw, .staged⟩
/-- HOP_PIECEW (11). -/
def HOP_PIECEW : RegFam := ⟨.hopper, 0x2044, 0x10, 512, false, 0⟩
def HOP_PIECEW_PIECE_W : Fld := ⟨HOP_PIECEW, 0, 15, .rw, .staged⟩
/-- HOP_PIECEH (11). -/
def HOP_PIECEH : RegFam := ⟨.hopper, 0x2048, 0x10, 512, false, 0⟩
def HOP_PIECEH_HDR_BASE : Fld := ⟨HOP_PIECEH, 6, 20, .rw, .staged⟩

/-- The registers of the global block with their fields. -/
def globalTable : List (RegFam × List Fld) :=
  [(GLOBAL_PART_ID, [GLOBAL_PART_ID_PART, GLOBAL_PART_ID_CORES_BUILT, GLOBAL_PART_ID_STEP]),
    (GLOBAL_UNITS, [GLOBAL_UNITS_CORE_OK, GLOBAL_UNITS_DRAM_OK, GLOBAL_UNITS_PORT_OK]),
    (GLOBAL_CFG_BUSY, [GLOBAL_CFG_BUSY_OFFSET, GLOBAL_CFG_BUSY_VALID, GLOBAL_CFG_BUSY_COUNT]),
    (GLOBAL_TICK_CC, [GLOBAL_TICK_CC_COUNT]),
    (GLOBAL_TICK_NC, [GLOBAL_TICK_NC_COUNT]),
    (GLOBAL_TICK_FC, [GLOBAL_TICK_FC_COUNT]),
    (GLOBAL_TICK_MC, [GLOBAL_TICK_MC_COUNT]),
    (GLOBAL_TICK_HC, [GLOBAL_TICK_HC_COUNT]),
    (GLOBAL_TICK_XC, [GLOBAL_TICK_XC_COUNT]),
    (GLOBAL_TICK_KC, [GLOBAL_TICK_KC_COUNT])]

/-- The registers of the core block with their fields. -/
def coreTable : List (RegFam × List Fld) :=
  [(CORE_ARITH_CTRL, [CORE_ARITH_CTRL_E5M2_INF, CORE_ARITH_CTRL_FP16_INF, CORE_ARITH_CTRL_BF16_INF]),
    (CORE_ARITH_FLAGS, [CORE_ARITH_FLAGS_OV, CORE_ARITH_FLAGS_DZ, CORE_ARITH_FLAGS_SAT, CORE_ARITH_FLAGS_NAN]),
    (CORE_EXC_EN, [CORE_EXC_EN_OV, CORE_EXC_EN_DZ, CORE_EXC_EN_SAT, CORE_EXC_EN_NAN]),
    (CORE_EXC_CAUSE, [CORE_EXC_CAUSE_CLASS, CORE_EXC_CAUSE_UNIT, CORE_EXC_CAUSE_VALID]),
    (CORE_SAT_CNT_SEQ, [CORE_SAT_CNT_SEQ_COUNT]),
    (CORE_SAT_CNT_VEC, [CORE_SAT_CNT_VEC_COUNT]),
    (CORE_SAT_CNT_LOOM, [CORE_SAT_CNT_LOOM_COUNT]),
    (CORE_NAN_CNT_VEC, [CORE_NAN_CNT_VEC_COUNT]),
    (CORE_NAN_CNT_LOOM, [CORE_NAN_CNT_LOOM_COUNT]),
    (CORE_SEQ_CTRL, [CORE_SEQ_CTRL_RUN, CORE_SEQ_CTRL_CINV, CORE_SEQ_CTRL_LCACHE_EN]),
    (CORE_SEQ_STAT, [CORE_SEQ_STAT_ACTIVE, CORE_SEQ_STAT_DOUBLE, CORE_SEQ_STAT_TASK, CORE_SEQ_STAT_LDEPTH, CORE_SEQ_STAT_RSTK_DEPTH, CORE_SEQ_STAT_SB_USED]),
    (CORE_SEQ_FAULT, [CORE_SEQ_FAULT_CAUSE, CORE_SEQ_FAULT_TASK, CORE_SEQ_FAULT_DEFERRED, CORE_SEQ_FAULT_HALF, CORE_SEQ_FAULT_VALID])]
  ++ [(CORE_SEQ_FADDR, [CORE_SEQ_FADDR_ADDR]),
    (CORE_SEQ_FPC, [CORE_SEQ_FPC_PC]),
    (CORE_STALL_SCB, [CORE_STALL_SCB_COUNT]),
    (CORE_STALL_SB, [CORE_STALL_SB_COUNT]),
    (CORE_STALL_VWAKE, [CORE_STALL_VWAKE_COUNT]),
    (CORE_STALL_WAIT, [CORE_STALL_WAIT_COUNT]),
    (CORE_STALL_FETCH, [CORE_STALL_FETCH_COUNT]),
    (CORE_STALL_LONG, [CORE_STALL_LONG_COUNT]),
    (CORE_SEQ_BUNDLES, [CORE_SEQ_BUNDLES_COUNT]),
    (CORE_TIMER_CMP, [CORE_TIMER_CMP_CMP]),
    (CORE_TASK_CFG, [CORE_TASK_CFG_PRIO, CORE_TASK_CFG_STATE, CORE_TASK_CFG_HALT_REQ, CORE_TASK_CFG_RELEASE]),
    (CORE_TASK_GBASE, [CORE_TASK_GBASE_BASE])]
  ++ [(CORE_TASK_GLEN, [CORE_TASK_GLEN_LEN]),
    (CORE_TASK_DSL, [CORE_TASK_DSL_LIMIT]),
    (CORE_IRQ_PEND, [CORE_IRQ_PEND_PEND]),
    (CORE_IRQ_EN, [CORE_IRQ_EN_FIXED, CORE_IRQ_EN_EN]),
    (CORE_IRQ_SET, [CORE_IRQ_SET_SET]),
    (CORE_IRQ_VEC, [CORE_IRQ_VEC_HANDLER, CORE_IRQ_VEC_TASK]),
    (CORE_VEC_CTRL, [CORE_VEC_CTRL_HALF, CORE_VEC_CTRL_PD_EN, CORE_VEC_CTRL_WAKE, CORE_VEC_CTRL_IDLE]),
    (CORE_VEC_STAT, [CORE_VEC_STAT_PWR, CORE_VEC_STAT_SLOT_BUSY, CORE_VEC_STAT_BUS_BUSY, CORE_VEC_STAT_HALF_ACTIVE]),
    (CORE_VEC_WAKES, [CORE_VEC_WAKES_COUNT]),
    (CORE_VEC_ON_CC, [CORE_VEC_ON_CC_COUNT]),
    (CORE_VEC_GCONF, [CORE_VEC_GCONF_COUNT]),
    (GRAN_STAT, [GRAN_STAT_READY, GRAN_STAT_FILL_BUSY, GRAN_STAT_SCRUB_QLEN])]
  ++ [(GRAN_ARB, [GRAN_ARB_EXT_AGE]),
    (GRAN_SCRUB_CTRL, [GRAN_SCRUB_CTRL_EN, GRAN_SCRUB_CTRL_INTERVAL]),
    (GRAN_SCRUB_POS, [GRAN_SCRUB_POS_LINE, GRAN_SCRUB_POS_PASSES]),
    (GRAN_REPAIR_CTRL, [GRAN_REPAIR_CTRL_AUTO, GRAN_REPAIR_CTRL_CE_THRESH]),
    (GRAN_REPAIR_REQ, [GRAN_REPAIR_REQ_ROW, GRAN_REPAIR_REQ_BANK, GRAN_REPAIR_REQ_GO]),
    (GRAN_CE_CNT, [GRAN_CE_CNT_COUNT]),
    (GRAN_UE_CNT, [GRAN_UE_CNT_COUNT]),
    (GRAN_CRC_FAIL_CNT, [GRAN_CRC_FAIL_CNT_COUNT]),
    (GRAN_SCRUB_QDROP, [GRAN_SCRUB_QDROP_COUNT]),
    (GRAN_UE_ADDR, [GRAN_UE_ADDR_LINE, GRAN_UE_ADDR_VALID]),
    (GRAN_LOOM_WAIT, [GRAN_LOOM_WAIT_COUNT]),
    (GRAN_EXT_WAIT, [GRAN_EXT_WAIT_COUNT])]
  ++ [(GRAN_PCLASS, [GRAN_PCLASS_CLASS]),
    (GRAN_SPARE, [GRAN_SPARE_FREE0, GRAN_SPARE_FREE1, GRAN_SPARE_FREE2, GRAN_SPARE_FREE3]),
    (GRAN_RING_BASE, [GRAN_RING_BASE_BASE]),
    (GRAN_RING_SHAPE, [GRAN_RING_SHAPE_PITCH, GRAN_RING_SHAPE_ROWS, GRAN_RING_SHAPE_VALID]),
    (LOOM_CTRL, [LOOM_CTRL_EN, LOOM_CTRL_ABORT, LOOM_CTRL_SKIP_EN, LOOM_CTRL_THR]),
    (LOOM_STAT, [LOOM_STAT_BUSY, LOOM_STAT_QLEN, LOOM_STAT_NONFIN, LOOM_STAT_TAG]),
    (LOOM_JOBS_DONE, [LOOM_JOBS_DONE_COUNT]),
    (LOOM_STREAM_CC, [LOOM_STREAM_CC_COUNT]),
    (LOOM_SKIP_GROUPS, [LOOM_SKIP_GROUPS_COUNT]),
    (LOOM_STALL_LOAD, [LOOM_STALL_LOAD_COUNT]),
    (LOOM_STALL_FEED, [LOOM_STALL_FEED_COUNT]),
    (LOOM_STALL_ACC, [LOOM_STALL_ACC_COUNT])]
  ++ [(LOOM_THR_CC, [LOOM_THR_CC_COUNT]),
    (LOOM_TEST_SEL, [LOOM_TEST_SEL_COL, LOOM_TEST_SEL_INDEX, LOOM_TEST_SEL_WHAT]),
    (LOOM_TEST_DATA, [LOOM_TEST_DATA_DATA]),
    (TALLY_CLOSE, [TALLY_CLOSE_SLOT, TALLY_CLOSE_GO]),
    (TALLY_WAIT_CC, [TALLY_WAIT_CC_COUNT]),
    (TALLY_MISFIT_PEND, [TALLY_MISFIT_PEND_PEND]),
    (TALLY_SLACK_PEND, [TALLY_SLACK_PEND_PEND]),
    (TALLY_SLOT_CFG, [TALLY_SLOT_CFG_EN, TALLY_SLOT_CFG_FREEZE, TALLY_SLOT_CFG_ZPM, TALLY_SLOT_CFG_IRQ_MISFIT, TALLY_SLOT_CFG_IRQ_SLACK, TALLY_SLOT_CFG_COPY, TALLY_SLOT_CFG_FMT, TALLY_SLOT_CFG_WIN, TALLY_SLOT_CFG_EMAX]),
    (TALLY_SLOT_LIM, [TALLY_SLOT_LIM_MISFIT_FRAC, TALLY_SLOT_LIM_MARGIN, TALLY_SLOT_LIM_STEP_JOBS]),
    (TALLY_SLOT_SMIN, [TALLY_SLOT_SMIN_SMIN]),
    (TALLY_SLOT_SMAX, [TALLY_SLOT_SMAX_SMAX]),
    (TALLY_SLOT_SCALE, [TALLY_SLOT_SCALE_SCALE])]
  ++ [(TALLY_SLOT_ZP, [TALLY_SLOT_ZP_ZP]),
    (TALLY_SLOT_PROP, [TALLY_SLOT_PROP_PROP]),
    (TALLY_SLOT_PSTAT, [TALLY_SLOT_PSTAT_PZP, TALLY_SLOT_PSTAT_DIRECT, TALLY_SLOT_PSTAT_LIMIT, TALLY_SLOT_PSTAT_MSH_CLIP, TALLY_SLOT_PSTAT_EMPTY, TALLY_SLOT_PSTAT_OPEN]),
    (TALLY_SLOT_OMAX, [TALLY_SLOT_OMAX_MAX]),
    (TALLY_SLOT_OMIN, [TALLY_SLOT_OMIN_MIN]),
    (TALLY_SLOT_OSAT, [TALLY_SLOT_OSAT_COUNT]),
    (TALLY_SLOT_OTOT, [TALLY_SLOT_OTOT_COUNT]),
    (TALLY_SLOT_QSF, [TALLY_SLOT_QSF_IDX, TALLY_SLOT_QSF_Q]),
    (TALLY_SLOT_STEPS, [TALLY_SLOT_STEPS_COUNT]),
    (QSF_MULT, [QSF_MULT_M]),
    (QSF_SHZP, [QSF_SHZP_SH, QSF_SHZP_ZP]),
    (QSF_ESCALE, [QSF_ESCALE_ES])]
  ++ [(AGEN_CTRL, [AGEN_CTRL_MATRIX_EN]),
    (AGEN_ZC_ABSENT, [AGEN_ZC_ABSENT_COUNT]),
    (AGEN_ZC_OVER_CNT, [AGEN_ZC_OVER_CNT_COUNT]),
    (PIPE_RING_FILL, [PIPE_RING_FILL_FILL]),
    (PIPE_RING_REL, [PIPE_RING_REL_REL]),
    (PIPE_RING_END, [PIPE_RING_END_ROWS]),
    (PIPE_RING_STAT, [PIPE_RING_STAT_END, PIPE_RING_STAT_REL_ERR, PIPE_RING_STAT_PLAN_INV]),
    (PIPE_PUB, [PIPE_PUB_COUNT]),
    (PIPE_WATCH, [PIPE_WATCH_ROW, PIPE_WATCH_CTR, PIPE_WATCH_EN]),
    (PIPE_CTRL, [PIPE_CTRL_WAIT_LIMIT]),
    (PIPE_WAIT_RING, [PIPE_WAIT_RING_COUNT]),
    (PIPE_WAIT_PEER, [PIPE_WAIT_PEER_COUNT])]
  ++ [(PIPE_HOLD_XC, [PIPE_HOLD_XC_COUNT]),
    (SIEVE_SUBMIT, [SIEVE_SUBMIT_DESC]),
    (SIEVE_CTRL, [SIEVE_CTRL_ABORT]),
    (SIEVE_STAT, [SIEVE_STAT_QLEN, SIEVE_STAT_BUSY, SIEVE_STAT_REFUSED]),
    (SIEVE_DONE, [SIEVE_DONE_COUNT]),
    (CARTER_CH_CFG, [CARTER_CH_CFG_SRC, CARTER_CH_CFG_RING, CARTER_CH_CFG_PRIO, CARTER_CH_CFG_MAXBUF]),
    (CARTER_CH_CTRL, [CARTER_CH_CTRL_DIS]),
    (CARTER_CH_STAT, [CARTER_CH_STAT_STATE, CARTER_CH_STAT_QLEN, CARTER_CH_STAT_BUFS, CARTER_CH_STAT_TAG]),
    (CARTER_CH_DONE, [CARTER_CH_DONE_COUNT]),
    (CARTER_CTRL, [CARTER_CTRL_EN, CARTER_CTRL_ERR_IRQ, CARTER_CTRL_TIMEOUT]),
    (CARTER_STAT, [CARTER_STAT_BUF_FREE, CARTER_STAT_RING_ERR]),
    (CARTER_LATE_ERR, [CARTER_LATE_ERR_COUNT])]
  ++ [(CARTER_BUF_WAIT, [CARTER_BUF_WAIT_COUNT]),
    (CARTER_TAG_WAIT, [CARTER_TAG_WAIT_COUNT]),
    (CARTER_PACE_WAIT, [CARTER_PACE_WAIT_COUNT]),
    (CARTER_RING_BASE, [CARTER_RING_BASE_ADDR]),
    (CARTER_RING_CFG, [CARTER_RING_CFG_KIND, CARTER_RING_CFG_LOG2SZ, CARTER_RING_CFG_IRQ]),
    (CARTER_RING_TAIL, [CARTER_RING_TAIL_TAIL]),
    (CARTER_RING_HEAD, [CARTER_RING_HEAD_HEAD]),
    (CARTER_RING_DONE, [CARTER_RING_DONE_DONE]),
    (CORE_LOCK_REQ, [CORE_LOCK_REQ_LOCK, CORE_LOCK_REQ_OP]),
    (CORE_LOCK_RESP, [CORE_LOCK_RESP_RESULT, CORE_LOCK_RESP_BROKEN, CORE_LOCK_RESP_LOCK, CORE_LOCK_RESP_VALID])]

/-- The registers of the hopper block with their fields. -/
def hopperTable : List (RegFam × List Fld) :=
  [(HOP_CTRL, [HOP_CTRL_EN, HOP_CTRL_SPARE_AUTO]),
    (HOP_POOL_STAT, [HOP_POOL_STAT_FREE, HOP_POOL_STAT_MINFREE, HOP_POOL_STAT_RSV_ERR]),
    (HOP_TRIG, [HOP_TRIG_CAM, HOP_TRIG_EDGE, HOP_TRIG_GO]),
    (HOP_CAM_CFG, [HOP_CAM_CFG_EN, HOP_CAM_CFG_FIRST, HOP_CAM_CFG_NCONN, HOP_CAM_CFG_SPEED, HOP_CAM_CFG_SRC, HOP_CAM_CFG_DELIV, HOP_CAM_CFG_ALIGN, HOP_CAM_CFG_PLAN]),
    (HOP_CAM_POOL, [HOP_CAM_POOL_RSV, HOP_CAM_POOL_CAP]),
    (HOP_CAM_STAT, [HOP_CAM_STAT_STATE, HOP_CAM_STAT_USED, HOP_CAM_STAT_RUNS, HOP_CAM_STAT_TRIG_DROP]),
    (HOP_CONN_STAT, [HOP_CONN_STAT_UP, HOP_CONN_STAT_OK, HOP_CONN_STAT_MASTER, HOP_CONN_STAT_SPEED_ACT, HOP_CONN_STAT_CAM]),
    (HOP_CONN_LOST, [HOP_CONN_LOST_COUNT]),
    (HOP_CONN_CRC, [HOP_CONN_CRC_COUNT]),
    (HOP_PLAN_CTL, [HOP_PLAN_CTL_DRAM_EN]),
    (HOP_PLAN_BASE, [HOP_PLAN_BASE_DRAM_BASE]),
    (HOP_PLAN_PITCH, [HOP_PLAN_PITCH_DRAM_PITCH])]
  ++ [(HOP_PLAN_ROWS, [HOP_PLAN_ROWS_DRAM_ROWS]),
    (HOP_PIECE, [HOP_PIECE_EN, HOP_PIECE_RING, HOP_PIECE_XOFF]),
    (HOP_PIECEW, [HOP_PIECEW_PIECE_W]),
    (HOP_PIECEH, [HOP_PIECEH_HDR_BASE])]

/-- The registers of the dram block with their fields. -/
def dramTable : List (RegFam × List Fld) :=
  [(DRAM_MAP, [DRAM_MAP_SPARE_RSV, DRAM_MAP_RSV_USED]),
    (DRAM_CTRL, [DRAM_CTRL_AUTO, DRAM_CTRL_CE_PPR, DRAM_CTRL_UE_RETIRE, DRAM_CTRL_T_THROT, DRAM_CTRL_T_CRIT]),
    (DRAM_SPARE_STAT, [DRAM_SPARE_STAT_CH, DRAM_SPARE_STAT_BUSY, DRAM_SPARE_STAT_DONE, DRAM_SPARE_STAT_POS]),
    (DRAM_RETIRE, [DRAM_RETIRE_CH, DRAM_RETIRE_GO])]

/-- The registers of the dramCh block with their fields. -/
def dramChTable : List (RegFam × List Fld) :=
  [(DRAM_CH_STAT, [DRAM_CH_STAT_OK, DRAM_CH_STAT_REF2X, DRAM_CH_STAT_THROT, DRAM_CH_STAT_CRIT, DRAM_CH_STAT_TEMP, DRAM_CH_STAT_PPR_FREE]),
    (DRAM_CH_CE_CNT, [DRAM_CH_CE_CNT_COUNT]),
    (DRAM_CH_UE_CNT, [DRAM_CH_UE_CNT_COUNT]),
    (DRAM_CH_UE_ADDR, [DRAM_CH_UE_ADDR_LINE, DRAM_CH_UE_ADDR_VALID]),
    (DRAM_CH_RETRY_CNT, [DRAM_CH_RETRY_CNT_CRC, DRAM_CH_RETRY_CNT_PAR]),
    (DRAM_CH_SCRUB, [DRAM_CH_SCRUB_EN, DRAM_CH_SCRUB_INTERVAL]),
    (DRAM_CH_SCRUB_POS, [DRAM_CH_SCRUB_POS_LINE, DRAM_CH_SCRUB_POS_PASSES])]

/-- The registers of the tg block with their fields. -/
def tgTable : List (RegFam × List Fld) :=
  [(TG_CTRL, [TG_CTRL_WAITLIM, TG_CTRL_SLOTS]),
    (TG_STAT, [TG_STAT_LAST, TG_STAT_PTR]),
    (TG_SLOT_HITS, [TG_SLOT_HITS_COUNT]),
    (TG_PRIO, [TG_PRIO_PRIO]),
    (TG_SLOT, [TG_SLOT_OWNER, TG_SLOT_EN])]

/-- The registers of the lock block with their fields. -/
def lockTable : List (RegFam × List Fld) :=
  [(LOCK_STAT, [LOCK_STAT_WAIT_FREE]),
    (LOCK_BROKEN_CNT, [LOCK_BROKEN_CNT_COUNT]),
    (LOCK_ERR_CNT, [LOCK_ERR_CNT_COUNT]),
    (LOCK_OP, [LOCK_OP_OP]),
    (LOCK_STATE, [LOCK_STATE_HELD, LOCK_STATE_BROKEN, LOCK_STATE_KIND, LOCK_STATE_ID, LOCK_STATE_WAITERS, LOCK_STATE_GEN]),
    (LOCK_CRESP, [LOCK_CRESP_RESULT, LOCK_CRESP_BROKEN, LOCK_CRESP_LOCK, LOCK_CRESP_VALID])]

/-- The registers of the fabric block with their fields. -/
def fabricTable : List (RegFam × List Fld) :=
  [(FAB_CTRL, [FAB_CTRL_EN, FAB_CTRL_ROOT, FAB_CTRL_RING_TO]),
    (FAB_ADDR, [FAB_ADDR_ADDR]),
    (FAB_SHAPE, [FAB_SHAPE_EXM1, FAB_SHAPE_EYM1, FAB_SHAPE_EZM1, FAB_SHAPE_RX, FAB_SHAPE_RY, FAB_SHAPE_RZ]),
    (FAB_ENUM, [FAB_ENUM_GO, FAB_ENUM_STATE, FAB_ENUM_FAIL_PORT, FAB_ENUM_SETTLE]),
    (FAB_DEVICE_ID, [FAB_DEVICE_ID_ID]),
    (FAB_PEER_LOST, [FAB_PEER_LOST_ADDR, FAB_PEER_LOST_SET, FAB_PEER_LOST_CLEAR]),
    (FAB_STAT, [FAB_STAT_TAG_FREE, FAB_STAT_ENUM_ERR]),
    (FAB_DROP_CNT, [FAB_DROP_CNT_COUNT]),
    (FAB_HDR_ERR_CNT, [FAB_HDR_ERR_CNT_COUNT]),
    (FAB_VOTE_FIX_CNT, [FAB_VOTE_FIX_CNT_COUNT]),
    (FAB_LOCK_REQ, [FAB_LOCK_REQ_LOCK, FAB_LOCK_REQ_OP, FAB_LOCK_REQ_DEST]),
    (FAB_LOCK_RESP, [FAB_LOCK_RESP_RESULT, FAB_LOCK_RESP_BROKEN, FAB_LOCK_RESP_VALID])]
  ++ [(FAB_PORT_CFG, [FAB_PORT_CFG_EN, FAB_PORT_CFG_FEC, FAB_PORT_CFG_LANE_CE_LIM]),
    (FAB_PORT_STAT, [FAB_PORT_STAT_STATE, FAB_PORT_STAT_LANES, FAB_PORT_STAT_LANE_OK, FAB_PORT_STAT_OK, FAB_PORT_STAT_LINK_ERR, FAB_PORT_STAT_NEIGHBOUR]),
    (FAB_PORT_CRED, [FAB_PORT_CRED_REQ_VL0, FAB_PORT_CRED_REQ_VL1, FAB_PORT_CRED_RSP_VL0, FAB_PORT_CRED_RSP_VL1]),
    (FAB_PORT_REPLAY, [FAB_PORT_REPLAY_COUNT]),
    (FAB_PORT_FEC_CE, [FAB_PORT_FEC_CE_COUNT]),
    (FAB_PORT_FEC_UE, [FAB_PORT_FEC_UE_COUNT]),
    (FAB_PORT_FWD, [FAB_PORT_FWD_COUNT]),
    (FAB_PORT_TX_LINES, [FAB_PORT_TX_LINES_COUNT]),
    (FAB_WIN_BASE, [FAB_WIN_BASE_BASE]),
    (FAB_WIN_CFG, [FAB_WIN_CFG_SIZE, FAB_WIN_CFG_RD, FAB_WIN_CFG_WR]),
    (FAB_WIN_PEER, [FAB_WIN_PEER_MATCH, FAB_WIN_PEER_MASK]),
    (FAB_WIN_CTRL, [FAB_WIN_CTRL_OPEN, FAB_WIN_CTRL_CLOSE])]
  ++ [(FAB_WIN_STAT, [FAB_WIN_STAT_STATE, FAB_WIN_STAT_WIN_ERR, FAB_WIN_STAT_OUTSTANDING, FAB_WIN_STAT_REFUSED]),
    (FAB_ROUTE, [FAB_ROUTE_PORT, FAB_ROUTE_EN, FAB_ROUTE_FVL]),
    (FAB_RING_BASE, [FAB_RING_BASE_ADDR]),
    (FAB_RING_CFG, [FAB_RING_CFG_EN, FAB_RING_CFG_LOG2SZ, FAB_RING_CFG_ERR, FAB_RING_CFG_PEER]),
    (FAB_RING_TGT, [FAB_RING_TGT_TRING]),
    (FAB_RING_TAIL, [FAB_RING_TAIL_TAIL]),
    (FAB_RING_HEAD, [FAB_RING_HEAD_HEAD]),
    (FAB_RING_DONE, [FAB_RING_DONE_DONE])]

/-- The registers of the host block with their fields. -/
def hostTable : List (RegFam × List Fld) :=
  [(HOST_CTRL, [HOST_CTRL_EN, HOST_CTRL_ENCAP, HOST_CTRL_JUMBO, HOST_CTRL_VLAN_EN, HOST_CTRL_KILL, HOST_CTRL_RTO, HOST_CTRL_VID, HOST_CTRL_RMAX]),
    (HOST_ETYPE, [HOST_ETYPE_ETYPE, HOST_ETYPE_UDP_PORT]),
    (HOST_IPV4, [HOST_IPV4_ADDR]),
    (HOST_IPV6, [HOST_IPV6_ADDR]),
    (HOST_PHY, [HOST_PHY_AN, HOST_PHY_ROLE]),
    (HOST_MAC_ADDR, [HOST_MAC_ADDR_ADDR]),
    (HOST_STAT, [HOST_STAT_LINK, HOST_STAT_SESSION, HOST_STAT_SECURE, HOST_STAT_LEADER, HOST_STAT_SESSNUM]),
    (HOST_CRC_ERR_CNT, [HOST_CRC_ERR_CNT_COUNT]),
    (HOST_SEQ_DROP_CNT, [HOST_SEQ_DROP_CNT_COUNT]),
    (HOST_RETX_CNT, [HOST_RETX_CNT_COUNT]),
    (HOST_DROP_CNT, [HOST_DROP_CNT_COUNT]),
    (HOST_MACSEC, [HOST_MACSEC_EN, HOST_MACSEC_REKEY_PN])]
  ++ [(HOST_MACSEC_DROP_CNT, [HOST_MACSEC_DROP_CNT_COUNT]),
    (HOST_EVT_CFG, [HOST_EVT_CFG_RING, HOST_EVT_CFG_EN]),
    (HOST_RING_BASE, [HOST_RING_BASE_ADDR]),
    (HOST_RING_CFG, [HOST_RING_CFG_EN, HOST_RING_CFG_LOG2SZ]),
    (HOST_RING_TAIL, [HOST_RING_TAIL_TAIL]),
    (HOST_RING_HEAD, [HOST_RING_HEAD_HEAD]),
    (HOST_RING_DONE, [HOST_RING_DONE_DONE])]

/-- The registers of the mgmt block with their fields. -/
def mgmtTable : List (RegFam × List Fld) :=
  [(MGMT_BOOT_STAT, [MGMT_BOOT_STAT_PHASE, MGMT_BOOT_STAT_ERR, MGMT_BOOT_STAT_IMAGE, MGMT_BOOT_STAT_CFG_COPY, MGMT_BOOT_STAT_UCAL_COPY, MGMT_BOOT_STAT_CONFIRMED]),
    (MGMT_RESET_CAUSE, [MGMT_RESET_CAUSE_CAUSE, MGMT_RESET_CAUSE_IMAGE, MGMT_RESET_CAUSE_CONFIRMED]),
    (MGMT_RESET, [MGMT_RESET_GO]),
    (MGMT_STORE_REQ, [MGMT_STORE_REQ_AREA, MGMT_STORE_REQ_GO, MGMT_STORE_REQ_LINES, MGMT_STORE_REQ_SRC]),
    (MGMT_STORE_STAT, [MGMT_STORE_STAT_BUSY, MGMT_STORE_STAT_DEFERRED, MGMT_STORE_STAT_COPIES, MGMT_STORE_STAT_CODE]),
    (MGMT_HOLDUP_CFG, [MGMT_HOLDUP_CFG_CAP, MGMT_HOLDUP_CFG_VMIN]),
    (MGMT_HOLDUP_PWR, [MGMT_HOLDUP_PWR_PWR, MGMT_HOLDUP_PWR_RATIO, MGMT_HOLDUP_PWR_MARGIN]),
    (MGMT_HOLDUP_STAT, [MGMT_HOLDUP_STAT_VCAP, MGMT_HOLDUP_STAT_LOW, MGMT_HOLDUP_STAT_DEFER_CNT]),
    (MGMT_FLASH_TIME, [MGMT_FLASH_TIME_T_PROG, MGMT_FLASH_TIME_T_ERASE]),
    (MGMT_CAL_STAT, [MGMT_CAL_STAT_FACTORY_BAD, MGMT_CAL_STAT_USER_NONE, MGMT_CAL_STAT_USER_CONFLICT, MGMT_CAL_STAT_CLAMPED]),
    (MGMT_VOTE_STAT, [MGMT_VOTE_STAT_LC_FAIL, MGMT_VOTE_STAT_LC_FIX]),
    (MGMT_BOOT_POLICY, [MGMT_BOOT_POLICY_TRAIN, MGMT_BOOT_POLICY_SKIP])]
  ++ [(MGMT_CFG_SEL, [MGMT_CFG_SEL_COPY, MGMT_CFG_SEL_GO, MGMT_CFG_SEL_ERR]),
    (MGMT_FLASH_CMD, [MGMT_FLASH_CMD_OP, MGMT_FLASH_CMD_ADDR]),
    (MGMT_PWR_CFG, [MGMT_PWR_CFG_PWR_LIM, MGMT_PWR_CFG_PWR_HYST, MGMT_PWR_CFG_PWR_ALLOW]),
    (MGMT_PWR_STAT, [MGMT_PWR_STAT_DRAW, MGMT_PWR_STAT_THR, MGMT_PWR_STAT_VCORE_MV]),
    (MGMT_THERM_CFG, [MGMT_THERM_CFG_THROT_C, MGMT_THERM_CFG_CRIT_C]),
    (MGMT_THERM_STAT, [MGMT_THERM_STAT_HOT, MGMT_THERM_STAT_HOT_SENS, MGMT_THERM_STAT_THROT, MGMT_THERM_STAT_CRIT, MGMT_THERM_STAT_Q]),
    (MGMT_STRAP, [MGMT_STRAP_ROOT_EN, MGMT_STRAP_SMB_ADDR]),
    (MGMT_TSENS, [MGMT_TSENS_TEMP]),
    (MGMT_VMON, [MGMT_VMON_MV, MGMT_VMON_LOW, MGMT_VMON_HIGH])]

/-- The registers of the sec block with their fields. -/
def secTable : List (RegFam × List Fld) :=
  [(SEC_LC_STAT, [SEC_LC_STAT_STATE, SEC_LC_STAT_PENDING, SEC_LC_STAT_REQ_CODE, SEC_LC_STAT_REQ_BUSY]),
    (SEC_LC_REQ, [SEC_LC_REQ_TARGET, SEC_LC_REQ_GO]),
    (SEC_LC_NONCE, [SEC_LC_NONCE_NONCE]),
    (SEC_RMA_ADDR, [SEC_RMA_ADDR_ADDR]),
    (SEC_LC_SHADOW, [SEC_LC_SHADOW_STATE]),
    (SEC_KEYGEN, [SEC_KEYGEN_GO]),
    (SEC_KEY_STAT, [SEC_KEY_STAT_PRESENT, SEC_KEY_STAT_READY, SEC_KEY_STAT_BAD, SEC_KEY_STAT_EXHAUSTED, SEC_KEY_STAT_WAIT]),
    (SEC_XMSS_NEXT, [SEC_XMSS_NEXT_LEAF]),
    (SEC_XMSS_RSV, [SEC_XMSS_RSV_NEXT_LEAF]),
    (SEC_XMSS_STAT, [SEC_XMSS_STAT_SEGS, SEC_XMSS_STAT_BADREC]),
    (SEC_SVN, [SEC_SVN_FLOOR, SEC_SVN_RAISE, SEC_SVN_GO]),
    (SEC_SIGN_CNT, [SEC_SIGN_CNT_COUNT])]

/-- The registers of the assay block with their fields. -/
def assayTable : List (RegFam × List Fld) :=
  [(ASSAY_CTRL, [ASSAY_CTRL_EN, ASSAY_CTRL_PERIOD, ASSAY_CTRL_NOTICE]),
    (ASSAY_SCHED, [ASSAY_SCHED_GRACE, ASSAY_SCHED_SKIP_LIM, ASSAY_SCHED_CORE_MASK]),
    (ASSAY_PWR, [ASSAY_PWR_HEADROOM, ASSAY_PWR_NEED]),
    (ASSAY_STAT, [ASSAY_STAT_STATE, ASSAY_STAT_CORE, ASSAY_STAT_RESULT, ASSAY_STAT_REQ_ERR]),
    (ASSAY_CORE, [ASSAY_CORE_SLICES, ASSAY_CORE_SKIPS]),
    (ASSAY_REQ, [ASSAY_REQ_CORE, ASSAY_REQ_GO]),
    (ASSAY_RETIRE, [ASSAY_RETIRE_CORE, ASSAY_RETIRE_GO]),
    (ASSAY_FUSE, [ASSAY_FUSE_GO, ASSAY_FUSE_BUSY, ASSAY_FUSE_FUSE_DELAY, ASSAY_FUSE_UNFUSED])]

/-- The registers of the event block with their fields. -/
def eventTable : List (RegFam × List Fld) :=
  [(LEDGER_CFG, [LEDGER_CFG_SPILL_INFO]),
    (LEDGER_STAT, [LEDGER_STAT_HELD, LEDGER_STAT_DUMP_BUSY, LEDGER_STAT_DUMP_CODE]),
    (LEDGER_LOST, [LEDGER_LOST_COUNT]),
    (LEDGER_DUMP, [LEDGER_DUMP_FIRST, LEDGER_DUMP_COUNT, LEDGER_DUMP_GO]),
    (LEDGER_DUMP_ADDR, [LEDGER_DUMP_ADDR_ADDR])]

/-- The register table of a block. -/
def table : Blk → List (RegFam × List Fld)
  | .global => globalTable
  | .core => coreTable
  | .dram => dramTable
  | .dramCh => dramChTable
  | .fabric => fabricTable
  | .host => hostTable
  | .hopper => hopperTable
  | .lock => lockTable
  | .event => eventTable
  | .sec => secTable
  | .assay => assayTable
  | .mgmt => mgmtTable
  | .tg => tgTable

end Reg

end Sys2Proof
end

