-- ==== Sys2Proof/Machine/State.lean ====
section
/-! DEFINITION. The state of the part: plain data, every piece of state the spec names. -/

namespace Sys2Proof.Machine

/-- The part. `csr` holds one cell per register (at its own offset in the CSR space) whose value differs from its
reset value; `shadow` the staged writes not yet active (R8), as mask and value; `latch` the high halves that R21
keeps per requester; `mirror` the mirrored registers whose copies differ (R460). `reqs` are the requests in flight (R378),
`gateWait` the Tollgates' wait counts (R383, gate × 16 + input), `grants` the decisions won that the winner has not used (R380, the
same key; the Carters' and peers' stand in their requests), `deaths` the death notices on their way to the lock
unit (R387), `msgs` the counter messages on their way, oldest first, by destination × 192 + counter (R316), `events` the events waiting at the arbiter's inputs (R437), `ticks` the
GLOBAL_TICK counters by DOM code (R20), `flash` the xSPI flash (R447; log 6), `idle` how often the block has idled (log 1). `draws` counts the free values drawn (log 2), `outbox` what the part has sent (log 3),
`pending` the commands waiting, first in first out (log 1). -/
structure State where
  csr : List (Nat × BitVec 64)
  shadow : List (Nat × (BitVec 64 × BitVec 64))
  latch : List (Nat × Word)
  mirror : Mirror
  cores : Vector Core 6
  dram : Dram
  reqs : List MemReq
  nextTag : Nat
  gateWait : List (Nat × Nat)
  grants : List (Nat × Nat)
  locks : List (Nat × Lock)
  deaths : List Owner
  fab : Fab
  host : HostPort
  cams : Vector Cam 16
  pipes : List (Nat × PipeRing)
  msgs : List Nat
  events : List Ev
  ledger : Ledger
  ticks : Vector (BitVec 64) 7
  mgmt : Mgmt
  sec : Sec
  assay : Assay
  flash : Bytes
  idle : Nat
  draws : Nat
  outbox : List Out
  pending : List Instr
deriving DecidableEq, Repr

/-- The DRAM before anything is written. -/
def Dram.reset : Dram :=
  { bytes := [], poison := [], flaws := [], scrubQ := [], tracker := [], repairs := [], retireQ := [], moved := none, lost := [], fails := [] }

/-- The Ledger before start-up. -/
def Ledger.reset : Ledger :=
  { started := false, next := 0, ring := [], copyNext := 0, spillNext := 0, gaps := [], journal := [], boot := 0, pseq := 0 }

/-- The part held in reset after power-on: every register at its reset value, memory with nothing listed, and nothing under
way (R20, R444; log 4, 5, 6). -/
def State.reset : State :=
  { csr := [], shadow := [], latch := [], mirror := [], cores := Vector.replicate 6 Core.reset, dram := Dram.reset, reqs := [],
    nextTag := 0, gateWait := [], grants := [], locks := [], deaths := [], fab := Fab.reset, host := HostPort.reset,
    cams := Vector.replicate 16 Cam.idle, pipes := [], msgs := [], events := [], ledger := Ledger.reset, ticks := Vector.replicate 7 0, mgmt := Mgmt.reset,
    sec := Sec.reset, assay := Assay.idle, flash := [], idle := 0, draws := 0, outbox := [], pending := [] }

/-- Why a run stops with a fault. No command of the part does (NOTES.md, Stops): the only constructor is raised by
nothing, and stands for a stop that a repair might need. -/
inductive Fault where
  /-- Raised by no command. Safe: a machine that stops allows less than the part does. -/
  | none
deriving DecidableEq, Repr

/-- Why a command has no meaning in the model. -/
inductive Refusal where
  /-- Raised by an arm of `exec` for a command not modelled yet. Safe: a refused command says nothing. -/
  | notModelled (mnemonic : String)
deriving DecidableEq, Repr

/-- What every command answers. -/
abbrev Res := Host.Outcome State Fault Refusal

end Sys2Proof.Machine
end

