-- ==== Sys2Proof/Machine/Ops.lean ====
section
/-! DEFINITION. The operations every command uses: registers of the CSR space, cores and tasks, interrupt lines,
events, memories and their protection, rings, halting and faults. -/

namespace Sys2Proof.Machine

/-! ## The CSR home -/

/-- The value that at least two of the three copies of a mirrored register hold (R460): `x` is the first copy's, `m` how the
others differ from it. Where all three differ, the first copy's. -/
def voted (x : BitVec 64) (m : Word × Word) : BitVec 64 := if m.1 = m.2 then x ^^^ m.1.setWidth 64 else x

/-- The whole register (its cell, or its reset value), voted where it is mirrored. -/
def State.csrGet (s : State) (r : RegFam) (u i : Nat) : BitVec 64 :=
  voted (cellGet r.rst s.csr (r.addr u i)) (cellGet (0, 0) s.mirror (r.addr u i))

/-- Replaces the whole register, all three copies where it is mirrored (R460). -/
def State.csrPut (s : State) (r : RegFam) (u i : Nat) (x : BitVec 64) : State :=
  { s with csr := cellPut r.rst s.csr (r.addr u i) x, mirror := cellPut (0, 0) s.mirror (r.addr u i) (0, 0) }

/-- The value of a field of unit `u`, register number `i`. -/
def State.rd (s : State) (f : Fld) (u i : Nat) : Nat := bitsOf (s.csrGet f.reg u i).toNat f.lsb f.width

/-- Whether a field is not 0. -/
def State.on (s : State) (f : Fld) (u i : Nat) : Bool := s.rd f u i != 0

/-- Sets a field; the register's other bits keep their values. -/
def State.put (s : State) (f : Fld) (u i : Nat) (x : Nat) : State :=
  s.csrPut f.reg u i (BitVec.ofNat 64 (setBits (s.csrGet f.reg u i).toNat f.lsb f.width x))

/-- Adds to a counter that stops at its largest value (R70, R122). -/
def State.bump (s : State) (f : Fld) (u i : Nat) (n : Nat) : State :=
  s.put f u i (min (s.rd f u i + n) (2 ^ f.width - 1))

/-- Makes a staged register's shadow active (R8): the bits written since the last boundary. -/
def State.activate (s : State) (r : RegFam) (u i : Nat) : State :=
  let a := r.addr u i
  let (m, v) := cellGet ((0 : BitVec 64), (0 : BitVec 64)) s.shadow a
  let s' := s.csrPut r u i ((s.csrGet r u i &&& ~~~m) ||| (v &&& m))
  { s' with shadow := cellPut (0, 0) s.shadow a (0, 0) }

/-- Writes a field of a staged register's shadow (R8). -/
def State.stage (s : State) (f : Fld) (u i : Nat) (x : Nat) : State :=
  let a := f.reg.addr u i
  let (m, v) := cellGet ((0 : BitVec 64), (0 : BitVec 64)) s.shadow a
  let e := (m ||| BitVec.ofNat 64 ((2 ^ f.width - 1) * 2 ^ f.lsb), BitVec.ofNat 64 (setBits v.toNat f.lsb f.width x))
  { s with shadow := cellPut (0, 0) s.shadow a e }

/-- The value a staged field will have at the next boundary. -/
def State.staged (s : State) (f : Fld) (u i : Nat) : Nat :=
  let (m, v) := cellGet ((0 : BitVec 64), (0 : BitVec 64)) s.shadow (f.reg.addr u i)
  if bitsOf m.toNat f.lsb f.width = 2 ^ f.width - 1 then bitsOf v.toNat f.lsb f.width else s.rd f u i

/-- Raises CFG_BUSY for a write to the register at CSR offset `off` (R8, R536). -/
def State.cfgBusy (s : State) (off : Nat) : State :=
  let s1 := s.bump Reg.GLOBAL_CFG_BUSY_COUNT 0 0 1
  if s1.on Reg.GLOBAL_CFG_BUSY_VALID 0 0 then s1
  else (s1.put Reg.GLOBAL_CFG_BUSY_OFFSET 0 0 (off / 4)).put Reg.GLOBAL_CFG_BUSY_VALID 0 0 1

/-! ## Cores and tasks -/

/-- Core `c`. -/
def State.core (s : State) (c : CoreId) : Core := s.cores.get c

/-- Replaces core `c`. -/
def State.setCore (s : State) (c : CoreId) (k : Core) : State := { s with cores := s.cores.set c k }

/-- Changes a core's sequencer. -/
def State.modSeq (s : State) (c : CoreId) (f : Seq → Seq) : State :=
  s.setCore c { s.core c with seq := f (s.core c).seq }

/-- Changes a core's vector unit. -/
def State.modVec (s : State) (c : CoreId) (f : Vec → Vec) : State :=
  s.setCore c { s.core c with vec := f (s.core c).vec }

/-- Changes a core's Granary. -/
def State.modGran (s : State) (c : CoreId) (f : Gran → Gran) : State :=
  s.setCore c { s.core c with gran := f (s.core c).gran }

/-- Changes a core's Loom. -/
def State.modLoom (s : State) (c : CoreId) (f : Loom → Loom) : State :=
  s.setCore c { s.core c with loom := f (s.core c).loom }

/-- Changes a core's Carter. -/
def State.modCarter (s : State) (c : CoreId) (f : Carter → Carter) : State :=
  s.setCore c { s.core c with carter := f (s.core c).carter }

/-- Task `t` of core `c`. -/
def State.task (s : State) (c : CoreId) (t : TaskId) : Task := (s.core c).seq.tasks.get t

/-- Changes a task. -/
def State.modTask (s : State) (c : CoreId) (t : TaskId) (f : Task → Task) : State :=
  s.modSeq c (fun q => { q with tasks := q.tasks.set t (f (q.tasks.get t)) })

/-- The SR fields of R79. -/
def srIE (sr : BitVec 16) : Bool := sr.getLsbD 0
/-- INH: a handler is running. -/
def srINH (sr : BitVec 16) : Bool := sr.getLsbD 1
/-- ILVL: the line being handled. -/
def srILVL (sr : BitVec 16) : Nat := bitsOf sr.toNat 2 5
/-- TASK: the number of the task context. -/
def srTASK (sr : BitVec 16) : Nat := bitsOf sr.toNat 7 3
/-- LDEPTH: active loop levels. -/
def srLDEPTH (sr : BitVec 16) : Nat := bitsOf sr.toNat 10 3

/-- SR with LDEPTH replaced. -/
def srSetDepth (sr : BitVec 16) (d : Nat) : BitVec 16 := BitVec.ofNat 16 (setBits sr.toNat 10 3 d)

/-- The base of task `t`'s Granary window, in bytes (R92). -/
def State.winBase (s : State) (c : CoreId) (t : TaskId) : Nat := s.rd Reg.CORE_TASK_GBASE_BASE c t * 4096

/-- The length of task `t`'s Granary window, in bytes (R92). -/
def State.winLen (s : State) (c : CoreId) (t : TaskId) : Nat := s.rd Reg.CORE_TASK_GLEN_LEN c t * 4096

/-- An access of `n` bytes at task-relative `a` is allowed (R92). -/
def State.inWin (s : State) (c : CoreId) (t : TaskId) (a n : Nat) : Bool := decide (a + n ≤ s.winLen c t)

/-- Whether core `c` is in service (R23). -/
def State.coreOk (s : State) (c : Nat) : Bool := (s.rd Reg.GLOBAL_UNITS_CORE_OK 0 0).testBit c

/-! ## Events and interrupt lines -/

/-- The GLOBAL_TICK count of a domain, by its DOM code (R24, R438). -/
def State.tick (s : State) (dom : Nat) : Nat := (s.ticks.get (Fin.ofNat 7 dom)).toNat

/-- Raises an event: it waits at an input of the event arbiter (R437). `block` and `unit` make its SOURCE (R438). -/
def State.raise (s : State) (code block unit dom input : Nat) (args : List Nat) : State :=
  { s with events := s.events ++ [{ code := code, source := block * 1024 + unit, dom := dom, tick := s.tick dom,
                                    args := args, input := input }] }

/-- Raises an event of a core (R437 inputs 0..5). -/
def State.coreEvent (s : State) (c : CoreId) (code : Nat) (args : List Nat) : State :=
  s.raise code (1 + c.val) 0 0 c args

/-- Draws a free value of width `w` (log 2). -/
def State.draw (s : State) (w : Nat) : BitVec w × State := (Config.free s.draws w, { s with draws := s.draws + 1 })

/-- Sends something out of the part (log 3). -/
def State.emit (s : State) (o : Out) : State := { s with outbox := s.outbox ++ [o] }

/-- The lines enabled by CORE_IRQ_EN; lines 0 and 1 always are (R124). -/
def State.irqEnabled (s : State) (c : CoreId) : Nat :=
  s.rd Reg.CORE_IRQ_EN_EN c 0 * 16 + 3

/-- The pending lines (R124). -/
def State.irqPending (s : State) (c : CoreId) : Nat := s.rd Reg.CORE_IRQ_PEND_PEND c 0

/-- Whether a channel holds CWAIT (R351). -/
def State.carterBusy (s : State) (c : CoreId) (ch : ChanId) : Bool :=
  let k := cellGet Chan.idle (s.core c).carter.chans ch
  !k.queue.isEmpty || k.run.isSome
    || (s.on Reg.CARTER_CH_CFG_SRC c ch
        && (let r := s.rd Reg.CARTER_CH_CFG_RING c ch
            s.rd Reg.CARTER_RING_TAIL_TAIL c r != s.rd Reg.CARTER_RING_HEAD_HEAD c r))

/-- The TAG of a Loom job's descriptor (R220). -/
def LoomJob.tagOf (j : LoomJob) : BitVec 16 := BitVec.ofNat 16 j.desc.toNat

/-- Whether a Loom tag holds LWAIT (R222). -/
def State.loomBusy (s : State) (c : CoreId) (job : Bool) (tag : BitVec 16) : Bool :=
  (s.core c).loom.jobs.any (fun j => decide (j.tagOf = tag) && (job != j.tile))

/-- The place of a row counter among a core's 192 copies (R316, R318). -/
def ctrIndex (ctr : Nat) : Nat := ctr / 32 * 32 + ctr % 32

/-- Core `c`'s copy of a row counter (R316). -/
def State.copy (s : State) (c : CoreId) (ctr : Nat) : Word := cellGet 0 (s.core c).copies (ctrIndex ctr)

/-- Whether RWAIT's condition is met: the copy exceeds the row, or the waiting core's own ring has ended at or before
it (R318). -/
def State.rowMet (s : State) (c : CoreId) (value : Word) (ctr : BitVec 8) : Bool :=
  decide (value.toNat < (s.copy c ctr.toNat).toNat)
    || (decide (ctr.toNat / 32 = c.val) && decide (ctr.toNat / 16 % 2 = 0)
        && s.on Reg.PIPE_RING_STAT_END c (ctr.toNat % 16)
        && decide (s.rd Reg.PIPE_RING_END_ROWS c (ctr.toNat % 16) ≤ value.toNat))

/-- Whether what a task waits for holds (R98). A wait on RETI ends at the RETI alone (R95). -/
def State.waitMet (s : State) (c : CoreId) (w : WaitFor) : Bool :=
  match w with
  | .none => true
  | .loom job tag => !s.loomBusy c job tag
  | .carter ch => !s.carterBusy c ch
  | .irq => (s.irqPending c &&& s.irqEnabled c) != 0
  | .row v ctr => s.rowMet c v ctr
  | .reti => false

/-- Every WAITING task whose condition holds becomes READY (R95). -/
def State.wakeTasks (s : State) (c : CoreId) : State :=
  s.modSeq c (fun q => { q with tasks := q.tasks.map (fun k =>
    if k.st = .waiting && s.waitMet c k.wait then { k with st := .ready, wait := .none } else k) })

/-- A source event sets the pending bit of a line; lines 2 and 3 have no source (R105, R124). -/
def State.setIrq (s : State) (c : CoreId) (line : Nat) : State :=
  if line = 2 ∨ line = 3 then s
  else (s.put Reg.CORE_IRQ_PEND_PEND c 0 (s.irqPending c ||| 2 ^ line)).wakeTasks c

/-! ## Places and memories -/

/-- The completion codes of R357. -/
def codeOk : Nat := 0x00
def codeEmpty : Nat := 0x01
def codeSat : Nat := 0x02
def errAlign : Nat := 0x10
def errBound : Nat := 0x11
def errPartial : Nat := 0x12
def errWindow : Nat := 0x13
def errEcc : Nat := 0x14
def errDisabled : Nat := 0x15
def errTimeout : Nat := 0x16

/-- What a local address names (R21, R181, R369); everything else does not exist. -/
inductive Place where
  | dram (a : Nat)
  | gran (c : CoreId) (off : Nat)
  | csr (off : Nat)
  | nowhere
deriving DecidableEq, Repr

/-- The place of a 40-bit local address. -/
def placeOf (a : Nat) : Place :=
  if a < 0x20_0000_0000 then .dram a
  else if h : 0x40_0000_0000 ≤ a ∧ a < 0x40_1800_0000 then
    .gran ⟨(a - 0x40_0000_0000) / 0x0400_0000, by omega⟩ ((a - 0x40_0000_0000) % 0x0400_0000)
  else if 0x60_0000_0000 ≤ a ∧ a < 0x60_1000_0000 then .csr (a - 0x60_0000_0000)
  else .nowhere

/-- The local address of a Granary offset of a core (R181). -/
def granAddr (c : CoreId) (off : Nat) : Nat := 0x40_0000_0000 + c.val * 0x0400_0000 + off

/-- The 64 B of a line as one value. -/
def lineOf (bs : List Byte) : Line := BitVec.ofNat 512 (leNat bs)

/-- The bytes of a line. -/
def lineBytes (l : Line) : List Byte := leBytes 64 l.toNat

/-- Bytes of a Granary (R181). -/
def State.granBytes (s : State) (c : CoreId) (off n : Nat) : List Byte := bytesGet 0 (s.core c).gran.bytes off n

/-- Whether a region is in the weight class (R190). -/
def State.weightClass (s : State) (c : CoreId) (off : Nat) : Bool :=
  (s.rd Reg.GRAN_PCLASS_CLASS c (off / 0x40000 / 32)).testBit (off / 0x40000 % 32)

/-- Whether the 8 B word `w` is poisoned (R195). -/
def State.wordBad (s : State) (c : CoreId) (w : Nat) : Bool := cellGet false (s.core c).gran.poison w

/-- Whether any protection unit that `n` bytes at `off` touch is poisoned (R191, R195). -/
def State.granBad (s : State) (c : CoreId) (off n : Nat) : Bool :=
  if n = 0 then false
  else (List.range ((off + n - 1) / 8 - off / 8 + 1)).any (fun i => s.wordBad c (off / 8 + i))

/-- The lines that `n` bytes at `off` touch (R182). -/
def linesOf (off n : Nat) : List Nat :=
  if n = 0 then [] else (List.range ((off + n - 1) / 64 - off / 64 + 1)).map (fun i => off / 64 + i)

/-- An uncorrectable read or merge of a line: counted, captured, raised (R193, R194). -/
def State.granUe (s : State) (c : CoreId) (line : Nat) : State :=
  let s1 := s.bump Reg.GRAN_UE_CNT_COUNT c 0 1
  let s2 := if s1.on Reg.GRAN_UE_ADDR_VALID c 0 then s1
    else (s1.put Reg.GRAN_UE_ADDR_LINE c 0 line).put Reg.GRAN_UE_ADDR_VALID c 0 1
  s2.coreEvent c 0x801 [line]

/-- Enters a line in the scrub queue (R193). -/
def State.scrubEnter (s : State) (c : CoreId) (line : Nat) : State :=
  let q := (s.core c).gran.scrubQ
  if q.contains line then s
  else if q.length < 16 then s.modGran c (fun g => { g with scrubQ := g.scrubQ ++ [line] })
  else s.bump Reg.GRAN_SCRUB_QDROP_COUNT c 0 1

/-- A tracker of 32 rows with a count each: adds to a row's count, replacing the lowest and among those the oldest
entry when it is full (R200, R374). -/
def trackerAdd (t : List (Nat × Nat)) (row n : Nat) : List (Nat × Nat) :=
  if t.any (fun e => e.1 = row) then t.map (fun e => if e.1 = row then (e.1, e.2 + n) else e)
  else if t.length < 32 then t ++ [(row, n)]
  else
    let lo := t.foldl (fun m e => min m e.2) (t.headD (0, 0)).2
    let k := t.findIdx (fun e => e.2 = lo)
    t.eraseIdx k ++ [(row, n)]

/-- A row's count in a tracker. -/
def trackerCount (t : List (Nat × Nat)) (row : Nat) : Nat := ((t.find? (fun e => e.1 = row)).map (·.2)).getD 0

/-- Asks for the repair of a row, once (R200). -/
def State.askRepair (s : State) (c : CoreId) (bank row : Nat) : State :=
  if (s.core c).gran.repairReq.contains (bank, row) then s
  else s.modGran c (fun g => { g with repairReq := g.repairReq ++ [(bank, row)] })

/-- Corrected words of a line: counted and charged to the row, which asks for its repair at the threshold (R193, R200). -/
def State.granCount (s : State) (c : CoreId) (line n : Nat) : State :=
  let s1 := s.bump Reg.GRAN_CE_CNT_COUNT c 0 n
  let row := line % 32 * 32768 + line / 32
  let s2 := s1.modGran c (fun g => { g with tracker := trackerAdd g.tracker row n })
  if s2.on Reg.GRAN_REPAIR_CTRL_AUTO c 0
      && decide (max 1 (s2.rd Reg.GRAN_REPAIR_CTRL_CE_THRESH c 0) ≤ trackerCount (s2.core c).gran.tracker row) then
    (s2.askRepair c (line % 32) (line / 32)).modGran c
      (fun g => { g with tracker := g.tracker.filter (fun e => e.1 != row) })
  else s2

/-- Corrected words of a line that something other than the scrubber read (R193). -/
def State.granCe (s : State) (c : CoreId) (line n : Nat) : State := (s.granCount c line n).scrubEnter c line

/-- The protection units, each by its first 8 B word, that `n` bytes at `off` touch (R191). -/
def State.unitHeads (s : State) (c : CoreId) (off n : Nat) : List Nat :=
  let ws := if n = 0 then [] else (List.range ((off + n - 1) / 8 - off / 8 + 1)).map (fun i => off / 8 + i)
  if s.weightClass c off then (ws.filter (fun w => decide (w % 2 = 0) || decide (w = off / 8))).map (fun w => w / 2 * 2) else ws

/-- The 8 B words of the protection unit that holds a word (R191). -/
def State.unitWords (s : State) (c : CoreId) (w : Nat) : List Nat :=
  if s.weightClass c (w * 8) then [w / 2 * 2, w / 2 * 2 + 1] else [w]

/-- Whether the unit that holds a word has a correctable error (R193; log 8). -/
def State.unitFlawed (s : State) (c : CoreId) (w : Nat) : Bool :=
  (s.unitWords c w).any (fun x => cellGet false (s.core c).gran.flaws x) && !s.wordBad c w

/-- The accounting of a read of `n` bytes that lie in one line (R193): whether it returns poisoned data. -/
def State.granReadLine (s : State) (c : CoreId) (off n : Nat) : Bool × State :=
  let bad := s.granBad c off n
  let ce := (s.unitHeads c off n).countP (fun w => s.unitFlawed c w)
  let s1 := if ce = 0 then s else s.granCe c (off / 64) ce
  (bad, if bad then s1.granUe c (off / 64) else s1)

/-- The accounting of a read of `n` bytes, line by line (R182, R193): whether any of it returns poisoned data. -/
def State.granRead (s : State) (c : CoreId) (off n : Nat) : Bool × State :=
  (linesOf off n).foldl (fun x l =>
    let lo := max off (l * 64)
    let (bad, s1) := x.2.granReadLine c lo (min (off + n) (l * 64 + 64) - lo)
    (x.1 || bad, s1)) (false, s)

/-- Marks or clears the poison of the protection unit that holds a word (R191). -/
def State.setPoison (s : State) (c : CoreId) (w : Nat) (b : Bool) : State :=
  let ws := s.unitWords c w
  s.modGran c (fun g => { g with poison := ws.foldl (fun p x => cellPut false p x b) g.poison })

/-- An error arises in the memory cells (R193, R370; log 8). -/
def State.upset (s : State) (u : Upset) : State :=
  match u with
  | .granCe c w => s.modGran c (fun g => { g with flaws := cellPut false g.flaws (w % 2 ^ 23) true })
  | .granUe c w => s.setPoison c (w % 2 ^ 23) true
  | .granData c w x => s.modGran c (fun g => { g with bytes := bytesPut 0 g.bytes (w % 2 ^ 23 * 8) (leBytes 8 x.toNat) })
  | .dramCe l => { s with dram := { s.dram with flaws := cellPut false s.dram.flaws (l % 2 ^ 31) true } }
  | .dramUe l => { s with dram := { s.dram with poison := cellPut false s.dram.poison (l % 2 ^ 31) true } }
  | .dramData l x => { s with dram := { s.dram with bytes := bytesPut 0 s.dram.bytes (l % 2 ^ 31 * 64) (lineBytes x) } }

/-- The errors that arise in the memory cells before an access, in order (log 8). -/
def State.struck (s : State) (errs : List Upset) : State := errs.foldl State.upset s

/-- Corrects the unit that holds a word, in the cells (R194, R197). -/
def State.unitFix (s : State) (c : CoreId) (w : Nat) : State :=
  let ws := s.unitWords c w
  s.modGran c (fun g => { g with flaws := ws.foldl (fun p x => cellPut false p x false) g.flaws })

/-- The CRC-16 of a weight-class line (R192). -/
def lineCrc (bs : List Byte) : BitVec 16 := BitVec.ofNat 16 (crcBytes 16 false 0x1021 0xFFFF (bs.map (·.toNat)))

/-- The CRC of a line of code 0, which a fill stores (R192, R196). -/
def zeroCrc : BitVec 16 := 0xD6DA

/-- The CRC stored beside a weight-class line (R192). -/
def State.storedCrc (s : State) (c : CoreId) (line : Nat) : BitVec 16 := cellGet zeroCrc (s.core c).gran.crc line

/-- A write of a weight-class line stores its CRC (R192). -/
def State.storeCrc (s : State) (c : CoreId) (line : Nat) : State :=
  if s.weightClass c (line * 64) then
    s.modGran c (fun g => { g with crc := cellPut zeroCrc g.crc line (lineCrc (bytesGet 0 g.bytes (line * 64) 64)) })
  else s

/-- The protection of the part of a write that falls in one line, `wr` telling the bytes it writes (R194, R195): units it
covers lose their errors; a partial write reads the units it keeps a part of, corrects and counts what it can, and leaves a
unit that reads uncorrectable poisoned. -/
def State.granWriteLine (s : State) (c : CoreId) (wr : Nat → Bool) (line : Nat) : State :=
  let units := s.unitHeads c (line * 64) 64
  let bytesOf (w : Nat) : List Nat := (s.unitWords c w).flatMap (fun x => (List.range 8).map (fun i => x * 8 + i))
  let covered (w : Nat) : Bool := (bytesOf w).all wr
  let kept := if s.weightClass c (line * 64) then units.filter (fun w => !covered w)
    else units.filter (fun w => !covered w && (bytesOf w).any wr)
  let ce := kept.countP (fun w => s.unitFlawed c w)
  let s1 := if ce = 0 then s else s.granCe c line ce
  let s2 := if kept.any (fun w => s.wordBad c w) then s1.granUe c line else s1
  let s3 := (units.filter covered).foldl (fun x w => x.setPoison c w false) s2
  (units.filter (fun w => covered w || (kept.contains w && !s.wordBad c w))).foldl (fun x w => x.unitFix c w) s3

/-- A write to a Granary (R184, R192, R194). -/
def State.granWrite (s : State) (c : CoreId) (off : Nat) (bs : List Byte) : State :=
  let ls := linesOf off bs.length
  let s1 := ls.foldl (fun x l => x.granWriteLine c (fun a => decide (off ≤ a) && decide (a < off + bs.length)) l) s
  ls.foldl (fun x l => x.storeCrc c l) (s1.modGran c (fun g => { g with bytes := bytesPut 0 g.bytes off bs }))

/-- The code at a bit address of a Granary. -/
def State.granCode (s : State) (c : CoreId) (bit width : Nat) : Nat :=
  (leNat (s.granBytes c (bit / 8) ((bit % 8 + width + 7) / 8)) / 2 ^ (bit % 8)) % 2 ^ width

/-- Writes a code at a bit address of a Granary, keeping the other bits of its bytes. -/
def State.granPutCode (s : State) (c : CoreId) (bit width code : Nat) : State :=
  let n := (bit % 8 + width + 7) / 8
  let old := leNat (s.granBytes c (bit / 8) n)
  s.modGran c (fun g => { g with bytes := bytesPut 0 g.bytes (bit / 8) (leBytes n (setBits old (bit % 8) width code)) })

/-- Bytes of the DRAM. -/
def State.dramBytes (s : State) (a n : Nat) : List Byte := bytesGet 0 s.dram.bytes a n

/-- A write to the DRAM: the lines it covers lose their poison (R370). -/
def State.dramWrite (s : State) (a : Nat) (bs : List Byte) : State :=
  { s with dram := { s.dram with bytes := bytesPut 0 s.dram.bytes a bs,
                                 poison := cellClear s.dram.poison (a / 64) ((a + bs.length + 63) / 64),
                                 flaws := cellClear s.dram.flaws (a / 64) ((a + bs.length + 63) / 64) } }

/-- Bytes at a local address of the Granaries or the DRAM. -/
def State.localBytes (s : State) (a n : Nat) : List Byte :=
  match placeOf a with
  | .dram a => s.dramBytes a n
  | .gran c off => s.granBytes c off n
  | _ => List.replicate n 0

/-- Whether bytes at a local address read poisoned. -/
def State.localBad (s : State) (a n : Nat) : Bool :=
  match placeOf a with
  | .dram a => (linesOf a n).any (fun l => cellGet false s.dram.poison l)
  | .gran c off => s.granBad c off n
  | _ => false

/-- A write at a local address of the Granaries or the DRAM. -/
def State.localWrite (s : State) (a : Nat) (bs : List Byte) : State :=
  match placeOf a with
  | .dram a => s.dramWrite a bs
  | .gran c off => s.granWrite c off bs
  | _ => s

/-- A local range that exists: within the DRAM (short of the spare reserve once it is used), or within the Granary of a
core in service (R358, R376). -/
def State.rangeOk (s : State) (a n : Nat) : Bool :=
  match placeOf a with
  | .dram a => decide (a + n ≤ (if s.on Reg.DRAM_MAP_RSV_USED 0 0 then 0x1C_0000_0000 else 0x20_0000_0000))
  | .gran c off => s.coreOk c && decide (off + n ≤ 0x0400_0000)
  | _ => false

/-- The DRAM channel of a local DRAM address (R369). -/
def dramChannel (a : Nat) : Nat := bitsOf a 8 3 ^^^ bitsOf a 14 3 ^^^ bitsOf a 20 3

/-- The channel address of a local DRAM address (R369). -/
def dramCa (a : Nat) : Nat := a / 2 ^ 11 * 256 + a % 256

/-- Whether a DRAM address lies in a granule of the retired channel that has moved to the spare reserve (R376, R377). -/
def State.dramMoved (s : State) (a : Nat) : Bool :=
  let c := dramChannel a
  decide (s.dram.moved = some c) && (s.on Reg.DRAM_SPARE_STAT_DONE 0 0 || s.rd Reg.DRAM_SPARE_STAT_CH 0 0 != c
    || decide (dramCa a / 256 < s.rd Reg.DRAM_SPARE_STAT_POS 0 0))

/-- The channel that holds a DRAM address now: a granule that has moved lies in the channel R376 gives it. -/
def State.dramHome (s : State) (a : Nat) : Nat :=
  let c := dramChannel a
  let j := dramCa a / 2 ^ 31
  if s.dramMoved a then (if j < c then j else j + 1) else c

/-- The channel address that holds a DRAM address now (R369, R376). -/
def State.dramPlace (s : State) (a : Nat) : Nat :=
  if s.dramMoved a then 7 * 2 ^ 31 + dramCa a % 2 ^ 31 else dramCa a

/-- Whether an address lies in a granule that a retirement without a move took out (R376). -/
def State.dramLost (s : State) (a : Nat) : Bool := s.dram.lost.contains (s.dramHome a)

/-- Whether an address lies in the spare reserve once that holds a retired channel (R376). -/
def State.dramReserved (s : State) (a : Nat) : Bool := s.on Reg.DRAM_MAP_RSV_USED 0 0 && decide (0x1C_0000_0000 ≤ a)

/-- An event of the DRAM controllers (R437 input 8, R438). -/
def State.dramEvent (s : State) (code ch : Nat) (args : List Nat) : State := s.raise code 7 ch 3 8 args

/-- A row's corrected errors in a channel's tracker (R374). -/
def State.dramTracker (s : State) (ch : Nat) : List (Nat × Nat) := cellGet [] s.dram.tracker ch

/-- A corrected read of the line at `a` (R370, R374): counted, queued for a write-back, and charged to the row that holds it. -/
def State.dramCe (s : State) (a : Nat) : State :=
  let ch := s.dramHome a
  let s1 := s.bump Reg.DRAM_CH_CE_CNT_COUNT ch 0 1
  let d := s1.dram
  { s1 with dram := { d with
      scrubQ := cellPut [] d.scrubQ ch (cellGet [] d.scrubQ ch ++ [a / 64]),
      tracker := cellPut [] d.tracker ch (trackerAdd (s1.dramTracker ch) (Config.dramRow ch (s.dramPlace a)) 1) } }

/-- An uncorrectable read of the line at `a` (R370, R375): counted, captured, raised, and at UE_RETIRE a reason to retire. -/
def State.dramUe (s : State) (a : Nat) : State :=
  let ch := s.dramHome a
  let s1 := s.bump Reg.DRAM_CH_UE_CNT_COUNT ch 0 1
  let s2 := if s1.on Reg.DRAM_CH_UE_ADDR_VALID ch 0 then s1
    else (s1.put Reg.DRAM_CH_UE_ADDR_LINE ch 0 (a / 64)).put Reg.DRAM_CH_UE_ADDR_VALID ch 0 1
  let s3 := s2.dramEvent 0x8A1 ch [ch, a % 2 ^ 32, a / 2 ^ 32]
  if s3.on Reg.DRAM_CTRL_AUTO 0 0
      && decide (s3.rd Reg.DRAM_CH_UE_CNT_COUNT ch 0 = max 1 (s3.rd Reg.DRAM_CTRL_UE_RETIRE 0 0)) then
    { s3 with dram := { s3.dram with retireQ := s3.dram.retireQ ++ [(ch, 3)] } }
  else s3

/-- The accounting of a read of the DRAM line at `a` (R370): whether it returns poisoned data. -/
def State.dramRead (s : State) (a : Nat) : Bool × State :=
  if cellGet false s.dram.poison (a / 64) then (true, s.dramUe a)
  else (false, if cellGet false s.dram.flaws (a / 64) then s.dramCe a else s)

/-- The attempts of an agent's current access to a channel that have failed, the agent by its Tollgate input (R373). -/
def State.failed (s : State) (ch input : Nat) : Nat := cellGet 0 s.dram.fails (ch * 16 + input)

/-- An agent's access to a channel is over, as far as its failed attempts go (R373). -/
def State.attempted (s : State) (ch input : Nat) : State :=
  { s with dram := { s.dram with fails := cellPut 0 s.dram.fails (ch * 16 + input) 0 } }

/-- An access of the agent at Tollgate input `input` to the DRAM line at `a`: the code that keeps it from its channel (R373,
R376), 0 where it is performed. -/
def State.dramReach (s : State) (input a : Nat) : Nat × State :=
  if s.dramReserved a then (errBound, s)
  else if s.dramLost a then (errDisabled, s)
  else
    let ch := s.dramHome a
    (if 4 ≤ s.failed ch input then errTimeout else codeOk, s.attempted ch input)

/-- A read of `n` bytes at a local address by the agent at a Tollgate input, accounted line by line (R193, R370): the code of its
first failure, 0 for clean data. -/
def State.localRead (s : State) (input a n : Nat) : Nat × State :=
  match placeOf a with
  | .dram a => (linesOf a n).foldl (fun x l =>
      let (code, s1) := x.2.dramReach input (l * 64)
      let (bad, s2) := if code = codeOk then s1.dramRead (l * 64) else (false, s1)
      (if x.1 ≠ codeOk then x.1 else if bad then errEcc else code, s2)) (codeOk, s)
  | .gran c off =>
    let (bad, s1) := s.granRead c off n
    (if bad then errEcc else codeOk, s1)
  | _ => (errBound, s)

/-- A write of whole lines at a local address by the agent at a Tollgate input (R370): the code of the first line not written. Bytes at
an address that is no multiple of 64 keep their places (DESIGN CHOICE, log 21). -/
def State.linesPut (s : State) (input a : Nat) (bs : List Byte) : Nat × State :=
  match placeOf a with
  | .dram a => (linesOf a bs.length).foldl (fun x l =>
      let (code, s1) := x.2.dramReach input (l * 64)
      (if x.1 ≠ codeOk then x.1 else code,
        if code = codeOk then s1.dramWrite (max a (l * 64)) ((bs.drop (l * 64 - a)).take (l * 64 + 64 - max a (l * 64))) else s1)) (codeOk, s)
  | .gran c off => (codeOk, s.granWrite c off bs)
  | _ => (errBound, s)

/-- A write of some bytes of the line at `a`. The DRAM takes whole lines only (R370), so there the bytes that stay are read first;
those of a line that cannot be read are free values (DEDUCED, log 21). -/
def State.linePut (s : State) (input a off : Nat) (bs : List Byte) : Nat × State :=
  match placeOf a with
  | .gran c o => (codeOk, s.granWrite c (o + off) bs)
  | _ =>
    let (code, s1) := s.localRead input a 64
    if code = errEcc then
      let (x, s2) := s1.draw 512
      s2.linesPut input a ((lineBytes x).take off ++ bs ++ (lineBytes x).drop (off + bs.length))
    else if code = codeOk then
      let old := s1.localBytes a 64
      s1.linesPut input a (old.take off ++ bs ++ old.drop (off + bs.length))
    else (code, s1)

/-! ## Rings (R344..R348) -/

/-- The local address of the slot of index `i` of a core's ring `k`. -/
def State.ringSlot (s : State) (c k i : Nat) : Nat :=
  s.rd Reg.CARTER_RING_BASE_ADDR c k * 64 + i % 2 ^ s.rd Reg.CARTER_RING_CFG_LOG2SZ c k * 64

/-- Difference of two free-running 32-bit indices (R345). -/
def idxSub (a b : Nat) : Nat := (a + 2 ^ 32 - b % 2 ^ 32) % 2 ^ 32

/-- DONE runs on over the completions already written (R345); at most `fuel` of them. -/
def State.advanceDone (s : State) (c : CoreId) (k : Nat) : Nat → State
  | 0 => s
  | fuel + 1 =>
    let d := s.rd Reg.CARTER_RING_DONE_DONE c k
    if cellGet false (s.core c).carter.doneOut (k * 2 ^ 32 + d) then
      State.advanceDone
        ((s.modCarter c (fun r => { r with doneOut := cellPut false r.doneOut (k * 2 ^ 32 + d) false })).put
          Reg.CARTER_RING_DONE_DONE c k ((d + 1) % 2 ^ 32)) c k fuel
    else s

/-- The completion of index `i` of a core's ring `k` is written: DONE advances (R345). -/
def State.ringDone (s : State) (c : CoreId) (k i : Nat) : State :=
  (s.modCarter c (fun r => { r with doneOut := cellPut false r.doneOut (k * 2 ^ 32 + i) true })).advanceDone c k 4097

/-- Writes bytes 56..63 of the entry of index `i` of a core's ring `k`, CODE and DONE and 0; DONE of the ring then advances (R345,
R347). -/
def State.ringComplete (s : State) (c : CoreId) (k i code : Nat) : State :=
  (s.linePut c.val (s.ringSlot c k i) 56 [BitVec.ofNat 8 code, 0x80, 0, 0, 0, 0, 0, 0]).2.ringDone c k i

/-- Completes the job of a task, if a ring entry started it (R348). -/
def State.jobDone (s : State) (c : CoreId) (t : TaskId) (code : Nat) : State :=
  match (s.task c t).job with
  | none => s
  | some (k, i) => (s.ringComplete c k i code).modTask c t (fun x => { x with job := none })

/-! ## Owners, halting and faults -/

/-- A death notice leaves for the lock unit (R387, R388). -/
def State.deathNotice (s : State) (o : Owner) : State := { s with deaths := s.deaths ++ [o] }

/-- `n` cc that an RWAIT of a counter waited are counted (R323). -/
def State.rowWaited (s : State) (c : CoreId) (ctr : BitVec 8) (n : Nat) : State :=
  s.bump (if ctr.toNat / 16 % 2 = 0 then Reg.PIPE_WAIT_RING_COUNT else Reg.PIPE_WAIT_PEER_COUNT) c 0 n

/-- The wait of a WAITING task ends without its bundle: the cc of an RWAIT, for which no command stands, are a free value (R323;
log 2). -/
def State.waitEnds (s : State) (c : CoreId) (t : TaskId) : State :=
  match (s.task c t).st, (s.task c t).wait with
  | .waiting, .row _ ctr => let (n, s1) := s.draw 32; s1.rowWaited c ctr n.toNat
  | _, _ => s

/-- Task `t` becomes HALTED: its waiting bundle is abandoned, its job completes with ERR_DISABLED, and a death notice is
sent (R123, R348, R388, R390). -/
def State.haltTask (s : State) (c : CoreId) (t : TaskId) : State :=
  let s1 := ((s.waitEnds c t).jobDone c t errDisabled).modTask c t
    (fun k => { k with st := .halted, wait := .none, haltReq := false, longTold := false, lockOut := none })
  let s2 := s1.modSeq c (fun q => if q.running = some t then { q with running := none, last := t, bundle := none, inD := false } else q)
  s2.deathNotice (.task c t)

/-- A double fault: the sequencer stops, every task becomes HALTED, and the event is raised (R113). -/
def State.doubleFault (s : State) (c : CoreId) : State :=
  let s1 := (List.finRange 8).foldl (fun x t => x.haltTask c t) s
  let s2 := s1.modSeq c (fun q => { q with double := true, running := none, bundle := none, inD := false, fault := none })
  s2.coreEvent c 0x807 [(s2.csrGet Reg.CORE_SEQ_FAULT c 0).toNat, (s2.csrGet Reg.CORE_SEQ_FPC c 0).toNat]

/-- A fault arises: the bundle in flight has no effect, and line 0 is set with the record kept for its entry, or it is a
double fault while the handler of line 0 runs (R110, R113). Where a deferred fault is recorded and not yet entered, the later
record stands: DESIGN CHOICE, the spec does not say which does (log 11). -/
def State.fault (s : State) (c : CoreId) (f : FaultRec) : State :=
  let sr := (s.task c f.task).sr
  let s1 := s.modSeq c (fun q => { q with bundle := none, inD := false })
  if srINH sr && srILVL sr == 0 then s1.doubleFault c
  else (s1.modSeq c (fun q => { q with fault := some f })).setIrq c 0

/-- The causes of R112. -/
def causeIllegal : BitVec 5 := 0x01
def causeBound : BitVec 5 := 0x02
def causeFetchBound : BitVec 5 := 0x03
def causePcAlign : BitVec 5 := 0x04
def causeStack : BitVec 5 := 0x05
def causeRstkOvf : BitVec 5 := 0x06
def causeRstkUnf : BitVec 5 := 0x07
def causeRstkKind : BitVec 5 := 0x08
def causeLoopDepth : BitVec 5 := 0x09
def causeEcc : BitVec 5 := 0x0A
def causeVelem : BitVec 5 := 0x0B

/-- A row counter of a core changes: its own copy at once, a message to every other core, and the watches of the own
core (R316, R319). -/
def State.watch (s : State) (c : CoreId) : State :=
  (List.finRange 4).foldl (fun (x : State) (i : Fin 4) =>
    let ctr := x.rd Reg.PIPE_WATCH_CTR c i
    if (x.core c).watchArmed.get i && x.on Reg.PIPE_WATCH_EN c i && decide (ctr / 32 < 6)
        && decide (x.rd Reg.PIPE_WATCH_ROW c i < (x.copy c ctr).toNat) then
      (x.setCore c { x.core c with watchArmed := (x.core c).watchArmed.set i false }).setIrq c 9
    else x) s

/-- A copy of core `c` takes the value of a counter: waits and watches see it (R316, R318, R319). -/
def State.setCopy (s : State) (c : CoreId) (idx : Nat) (v : Word) : State :=
  ((s.setCore c { s.core c with copies := cellPut 0 (s.core c).copies idx v }).watch c).wakeTasks c

/-- The value of row counter `k` (0..31) of core `c` (R316). -/
def State.counter (s : State) (c : CoreId) (k : Nat) : Word :=
  BitVec.ofNat 32 (if k < 16 then s.rd Reg.PIPE_RING_FILL_FILL c k else s.rd Reg.PIPE_PUB_COUNT c (k - 16))

/-- A counter message sets out; an older one of the same counter still queued is replaced in its place (R316). -/
def State.sendCounter (s : State) (m : Nat) : State := if s.msgs.contains m then s else { s with msgs := s.msgs ++ [m] }

/-- Where a counter message goes and the stop it starts from: the owner's, or bridge port H (6) for a ring fill (R316). -/
def msgPath (m : Nat) : Nat × Nat := (m / 192, if m % 32 < 16 then 6 else m % 192 / 32)

/-- Whether a counter message is the next to arrive: it is on its way, and no older one has its two stops (R15, R316). -/
def State.msgNext (s : State) (m : Nat) : Bool := s.msgs.find? (fun n => msgPath n == msgPath m) == some m

/-- A change of row counter `k` of core `c` sets out to every copy; the own copy changes at once (R316). -/
def State.counterChanged (s : State) (c : CoreId) (k : Nat) : State :=
  let s1 := (List.finRange 6).foldl (fun x d => if d = c then x else x.sendCounter (d.val * 192 + c.val * 32 + k)) s
  s1.setCopy c (c.val * 32 + k) (s1.counter c k)

/-- PIPE_PUB counter `j` of core `c` takes a value (R317, R339, R363); those of a retired core keep theirs (R322). -/
def State.setPub (s : State) (c : CoreId) (j : Nat) (v : Nat) : State :=
  if s.coreOk c then (s.put Reg.PIPE_PUB_COUNT c j (v % 2 ^ 32)).counterChanged c (16 + j) else s

end Sys2Proof.Machine
end

