-- ==== Sys2Proof/Machine/Gates.lean ====
section
/-! DEFINITION. Tollgates and the requests before them (13 R378..R384; 06 R187, R188, R196, R203; 18 R496): the decision
every Tollgate makes, where a request's lines go, and the row TOLLGATE_DECISION. -/

namespace Sys2Proof.Machine

/-- The numbers of `n` inputs in the order LAST + 1, LAST + 2, … (R383). -/
def afterLast (last n : Nat) : List Nat := (List.range n).map (fun k => (last + 1 + k) % n)

/-- The wait count of input `i` of Tollgate `u` (R383). -/
def State.waitCount (s : State) (u i : Nat) : Nat := cellGet 0 s.gateWait (u * 16 + i)

/-- Step 1 of R383: the owner the slot entry at `ptr` names, where it has a request. -/
def State.slotWinner (s : State) (u slots ptr : Nat) (req : Nat → Bool) : Option Nat :=
  let o := s.rd Reg.TG_SLOT_OWNER u ptr
  if slots ≠ 0 ∧ s.on Reg.TG_SLOT_EN u ptr ∧ o ≤ 10 ∧ req o then some o else none

/-- Steps 2 and 3 of R383. -/
def State.openWinner (s : State) (u n : Nat) (req : Nat → Bool) : Option Nat :=
  let order := (afterLast (s.rd Reg.TG_STAT_LAST u 0) n).filter req
  let lim := s.rd Reg.TG_CTRL_WAITLIM u 0
  match order.find? (fun i => decide (lim ≠ 0) && decide (lim ≤ s.waitCount u i)) with
  | some i => some i
  | none =>
    let top := order.foldl (fun m i => max m (s.rd Reg.TG_PRIO_PRIO u i)) 0
    order.find? (fun i => s.rd Reg.TG_PRIO_PRIO u i = top)

/-- One decision of Tollgate `u` with `n` inputs (R381..R384); with no request present there is none. -/
def State.gateDecide (s : State) (u n : Nat) (slotted : Bool) (req : Nat → Bool) : Option Nat × State :=
  if (numsWhere n req).isEmpty then (none, s)
  else
    let slots := if slotted then min (s.rd Reg.TG_CTRL_SLOTS u 0) 64 else 0
    let p := s.rd Reg.TG_STAT_PTR u 0
    let ptr := if slots ≤ p then 0 else p
    let s1 := if slots = 0 then s else s.activate Reg.TG_SLOT u ptr
    let hit := s1.slotWinner u slots ptr (fun i => decide (i < n) && req i)
    let win := hit.orElse (fun _ => s1.openWinner u n req)
    match win with
    | none => (none, s1)
    | some w =>
      let g := (List.range n).foldl
        (fun g i => cellPut 0 g (u * 16 + i) (if i = w ∨ ¬ req i then 0 else s1.waitCount u i + 1)) s1.gateWait
      let s2 := { s1 with gateWait := g }
      let s3 := (s2.put Reg.TG_STAT_LAST u 0 w).put Reg.TG_STAT_PTR u 0 (if slots = 0 then ptr else (ptr + 1) % slots)
      (some w, if hit.isSome then s3.bump Reg.TG_SLOT_HITS_COUNT u 0 1 else s3)

/-! ## Where a line goes -/

/-- Whether core `c` is under an Assay slice (R490, R496). -/
def State.underTest (s : State) (c : Nat) : Bool :=
  decide (s.rd Reg.ASSAY_STAT_STATE 0 0 = 3) && decide (s.rd Reg.ASSAY_STAT_CORE 0 0 = c)

/-- The Tollgate of a part of a request, by its unit number. -/
def State.partGate (s : State) (write : Bool) (p : ReqPart) : Option Nat :=
  match placeOf p.addr with
  | .dram a => if s.dramLost a then none else some (s.dramHome a)
  | .gran c _ => some (if write then 14 + c.val else 8 + c.val)
  | _ => none

/-- Whether a Granary holds external requests to an address at its Tollgates: before READY, and while the region is filled
(R196, R203). -/
def State.granHeld (s : State) (p : ReqPart) : Bool :=
  match placeOf p.addr with
  | .gran c off => !s.on Reg.GRAN_STAT_READY c 0 || (s.core c).gran.fill.contains (off / 0x40000)
  | _ => false

/-- The Tollgate input of a requester (R380). -/
def ReqFrom.input : ReqFrom → Nat
  | .carter c _ _ _ => c.val
  | .peer _ _ _ _ => 7

/-- Whether a request waits before Tollgate `u` with a part that may be granted. -/
def State.waitsAt (s : State) (u : Nat) (r : MemReq) : Bool :=
  !r.remote && r.parts.any (fun p => p.stage == .atGate && s.partGate r.write p == some u && !s.granHeld p)

/-- Changes a request. -/
def State.modReq (s : State) (tag : Nat) (f : MemReq → MemReq) : State :=
  { s with reqs := modFirst (fun r => r.tag == tag) f s.reqs }

/-- A request in flight. -/
def State.req? (s : State) (tag : Nat) : Option MemReq := s.reqs.find? (fun r => r.tag == tag)

/-- Whether every part of a request is performed. -/
def MemReq.allDone (r : MemReq) : Bool := r.parts.all (fun p => p.stage == .done)

/-- A request is refused: nothing of what is left of it is performed, and its response carries a code. -/
def MemReq.refuse (r : MemReq) (code : Nat) : MemReq :=
  { r with err := if r.err = 0 then code else r.err, parts := r.parts.map (fun p => { p with stage := .done }) }

/-- Grants the waiting parts of a request at Tollgate `u`: all of a Granary transfer, one line of a DRAM channel's. -/
def State.grantParts (s : State) (u : Nat) (r : MemReq) : MemReq :=
  let fits (p : ReqPart) : Bool := p.stage == .atGate && s.partGate r.write p == some u && !s.granHeld p
  let go (p : ReqPart) : ReqPart := { p with stage := .granted, age := 0 }
  { r with parts := if u < 8 then modFirst fits go r.parts else r.parts.map (fun p => if fits p then go p else p) }

/-- The decisions of Tollgate `u` that input `i` has won and not used (R380). -/
def State.granted (s : State) (u i : Nat) : Nat := cellGet 0 s.grants (u * 16 + i)

/-- An agent uses decisions it has won, one at each Tollgate named; without them all it waits (R188, R380). -/
def State.useGrants (s : State) (i : Nat) : List Nat → Option State
  | [] => some s
  | u :: us =>
    if s.granted u i = 0 then none
    else ({ s with grants := cellPut 0 s.grants (u * 16 + i) (s.granted u i - 1) } : State).useGrants i us

/-- The Tollgates that an agent's access to a local range passes, one for each transfer: a line of the DRAM, up to four lines of a
Granary, whose end the range may pass into the next core's (R380). -/
def State.transfers (s : State) (write : Bool) (a n : Nat) : List Nat :=
  match placeOf a with
  | .dram a => (linesOf a n).map (fun l => s.dramHome (l * 64))
  | .gran c off =>
    let here := min n (0x0400_0000 - off)
    let gate := if write then 14 + c.val else 8 + c.val
    List.replicate (((linesOf off here).length + 3) / 4) gate ++ List.replicate (((linesOf 0 (n - here)).length + 3) / 4) (gate + 1)
  | _ => []

/-- A decision of Tollgate `u` (R383): the winner's oldest request is granted, or the win is kept for the agent at that input. -/
def State.gateGrant (s : State) (u n : Nat) (slotted : Bool) (others : Nat) : State :=
  let here := s.reqs.filter (s.waitsAt u)
  let (w, s1) := s.gateDecide u n slotted (fun i => others.testBit i || here.any (fun r => r.sender.input == i))
  match w with
  | none => s1
  | some i =>
    if others.testBit i then { s1 with grants := cellPut 0 s1.grants (u * 16 + i) (s1.granted u i + 1) }
    else { s1 with reqs := modFirst (fun r => s.waitsAt u r && r.sender.input == i) (s1.grantParts u) s1.reqs }

/-- A core whose Granary answers no external request: under test (ERR_DISABLED), or retired, which puts it outside every
valid range (ERR_BOUND) (R496, R499). -/
def State.granClosed (s : State) (c : Nat) : Option Nat :=
  if s.underTest c then some errDisabled else if s.coreOk c then none else some errBound

/-- A decision of a Granary port's Tollgate (R380, R496). -/
def State.granGate (s : State) (u : Nat) (c : CoreId) (others : Nat) : State :=
  match s.granClosed c with
  | some code => { s with reqs := s.reqs.map (fun r =>
      if !r.remote && r.parts.any (fun p => p.stage == .atGate && s.partGate r.write p == some u) then r.refuse code
      else r) }
  | none => s.gateGrant u 9 false others

/-- TOLLGATE_DECISION (R383). `others` are the inputs with a request that no request of the state stands for: the Hopper (6), the
host port (8), the management controller (9), and scrubbing and migration (10), of which a Granary's read port has the host port
alone and its write port the Hopper too (R380); at a fabric port every input. The event arbiter's decisions are EVENT_GRANT's. -/
def execTollgateDecision (g : Gate) (others : BitVec 16) (s : State) : Res :=
  .next (match g with
    | .dram c => s.gateGrant c.val 11 true (others &&& 0x740).toNat
    | .granRd c => s.granGate (8 + c.val) c (others &&& 0x100).toNat
    | .granWr c => s.granGate (14 + c.val) c (others &&& 0x140).toNat
    | .port p => (s.gateDecide (20 + p.val) 9 false others.toNat.testBit).2
    | .event => s)

end Sys2Proof.Machine
end

