-- ==== Sys2Proof/Machine/DramRows.lean ====
section
/-! DEFINITION. The DRAM's rows (13 R368..R377): read data and write acceptance, retries, scrubbing, temperature, soft
repair, and the retirement of a channel. -/

namespace Sys2Proof.Machine

/-- A part of a request that channel `ch` has granted. -/
def State.atChannel (s : State) (ch : DramCh) (write : Bool) (p : ReqPart) : Bool :=
  p.stage == .granted && s.partGate write p == some ch.val

/-- Whether two requests come from one requester (R379). -/
def MemReq.sameSender (r q : MemReq) : Bool :=
  match r.sender, q.sender with
  | .carter c _ _ _, .carter d _ _ _ => c == d
  | .peer _ _ a _, .peer _ _ b _ => a == b
  | _, _ => false

/-- Whether an earlier request of the same requester has the DRAM line at `a` still to do (R379). -/
def State.behind (s : State) (r : MemReq) (a : Nat) : Bool :=
  (s.reqs.takeWhile (fun q => q.tag != r.tag)).any (fun q => !q.remote && q.sameSender r
    && q.parts.any (fun p => p.stage != .done && decide (p.addr / 64 = a / 64)))

/-- The part of a local request that channel `ch` performs next, if it is a read or a write as `write` tells (R379). -/
def State.dramPart (s : State) (ch : DramCh) (write : Bool) (r : MemReq) : Option ReqPart :=
  if r.remote || r.write != write then none
  else (r.parts.find? (s.atChannel ch write)).filter (fun p => !s.behind r p.addr)

/-- DRAM_READ_DONE (R370). -/
def execDramReadDone (ch : DramCh) (tag : Nat) (errs : List Upset) (s0 : State) : Res :=
  let s := s0.struck errs
  .next (match s.req? tag with
    | none => s
    | some r =>
      match s.dramPart ch false r with
      | none => s
      | some p =>
        let (bad, s1) := s.dramRead p.addr
        let q := { p with stage := .done, data := if bad then [] else s.dramBytes p.addr p.len }
        s1.modReq tag (fun x => { x with bad := x.bad || bad, parts := modFirst (s.atChannel ch false) (fun _ => q) x.parts }))

/-- DRAM_WRITE_ACCEPT (R379): the write queue holds the line. -/
def execDramWriteAccept (ch : DramCh) (tag : Nat) (s : State) : Res :=
  .next (match s.req? tag with
    | none => s
    | some r =>
      match s.dramPart ch true r with
      | none => s
      | some p =>
        (s.dramWrite p.addr p.data).modReq tag (fun x =>
          { x with parts := modFirst (s.atChannel ch true) (fun p => { p with stage := .done }) x.parts }))

/-- A retry is counted (R373). -/
def State.countRetry (s : State) (ch : DramCh) (parity : Bool) : State :=
  s.bump (if parity then Reg.DRAM_CH_RETRY_CNT_PAR else Reg.DRAM_CH_RETRY_CNT_CRC) ch 0 1

/-- A channel is marked for retirement after a request's fourth failure (R373, R375). -/
def State.markChannel (s : State) (ch : DramCh) : State :=
  { s with dram := { s.dram with retireQ := s.dram.retireQ ++ [(ch.val, 2)] } }

/-- A failed attempt of a request in flight. -/
def State.retryReq (s : State) (ch : DramCh) (tag : Nat) (parity : Bool) : State :=
  match s.req? tag with
  | none => s
  | some r =>
    match if parity || r.write then s.dramPart ch r.write r else none with
    | none => s
    | some p =>
      if p.tries < 3 then
        (s.countRetry ch parity).modReq tag (fun x =>
          { x with parts := modFirst (s.atChannel ch r.write) (fun p => { p with tries := p.tries + 1 }) x.parts })
      else
        (s.modReq tag (fun x => { x with
          err := if x.err = 0 then errTimeout else x.err,
          parts := modFirst (s.atChannel ch r.write) (fun p => { p with stage := .done }) x.parts })).markChannel ch

/-- A failed attempt of an access that an agent makes by itself: the access ends with the fourth. -/
def State.retryAgent (s : State) (ch : DramCh) (input : Nat) (parity : Bool) : State :=
  let n := s.failed ch input
  let s1 := { s with dram := { s.dram with fails := cellPut 0 s.dram.fails (ch * 16 + input) (min 4 (n + 1)) } }
  if n < 3 then s1.countRetry ch parity else if n = 3 then s1.markChannel ch else s

/-- DRAM_WRITE_RETRY (R373): an attempt fails. The first three are tried again; at the fourth the request fails and the
channel is marked for retirement. -/
def execDramWriteRetry (ch : DramCh) (who : DramUser) (parity : Bool) (s : State) : Res :=
  .next (match who with
    | .req tag => s.retryReq ch tag parity
    | .agent i => s.retryAgent ch i parity)

/-- The local address of granule `g` of channel `c` (R369). -/
def granuleAddr (c g : Nat) : Nat :=
  let hi := g * 2 ^ 11
  hi + (c ^^^ bitsOf hi 14 3 ^^^ bitsOf hi 20 3) * 256

/-- The address of what line `l` of channel `ch` holds: in the reserve, the lines of the retired channel that have moved there
(R376). -/
def State.lineAddr (s : State) (ch l : Nat) : Nat :=
  let own := granuleAddr ch (l / 4) + l % 4 * 64
  match s.dram.moved with
  | none => own
  | some m =>
    let j := if ch < m then ch else ch - 1
    let a := granuleAddr m ((j * 2 ^ 25 + l % 2 ^ 25) / 4) + l % 4 * 64
    if 7 * 2 ^ 25 ≤ l ∧ ch ≠ m ∧ s.dramMoved a then a else own

/-- The DRAM line `l` is written back without its error (R371). -/
def State.dramFix (s : State) (l : Nat) : State :=
  { s with dram := { s.dram with flaws := cellPut false s.dram.flaws l false } }

/-- DRAM_SCRUB_LINE (R371): the walk reads its next line, and the oldest line queued for a write-back is written back; each takes a
decision of the channel's Tollgate that input 10 has won. -/
def execDramScrubLine (ch : DramCh) (errs : List Upset) (s0 : State) : Res :=
  let s := s0.struck errs
  let q := cellGet [] s.dram.scrubQ ch
  .next (if s.on Reg.DRAM_CH_SCRUB_EN ch 0 && s.on Reg.DRAM_CH_STAT_OK ch 0 then
    match s.useGrants 10 (ch.val :: (q.take 1).map (fun _ => ch.val)) with
    | none => s
    | some s0 =>
      let l := s0.rd Reg.DRAM_CH_SCRUB_POS_LINE ch 0
      let s1 := s0.put Reg.DRAM_CH_SCRUB_POS_LINE ch 0 (l + 1)
      let s2 := if l + 1 = 2 ^ 28 then s1.bump Reg.DRAM_CH_SCRUB_POS_PASSES ch 0 1 else s1
      let s3 := (q.take 1).foldl State.dramFix
        { s2 with dram := { s2.dram with scrubQ := cellPut [] s2.dram.scrubQ ch (q.drop 1) } }
      (s3.dramRead (s3.lineAddr ch l)).2
  else s)

/-- A flag of R372 with 2 °C of hysteresis: set at `t`, cleared below `t − 2`, an event as it becomes set. -/
def State.tempFlag (s : State) (ch : DramCh) (f : Fld) (temp t code : Nat) : State :=
  if t ≤ temp then
    if s.on f ch 0 then s else (s.put f ch 0 1).dramEvent code ch [ch.val, temp]
  else if temp + 2 < t then s.put f ch 0 0
  else s

/-- DRAM_TEMP_SAMPLE (R372). -/
def execDramTempSample (ch : DramCh) (temp : BitVec 8) (s : State) : Res :=
  let t := temp.toNat
  let s1 := s.put Reg.DRAM_CH_STAT_TEMP ch 0 t
  let s2 := if 85 ≤ t then s1.put Reg.DRAM_CH_STAT_REF2X ch 0 1
    else if t < 83 then s1.put Reg.DRAM_CH_STAT_REF2X ch 0 0 else s1
  let s3 := s2.tempFlag ch Reg.DRAM_CH_STAT_THROT t (min 94 (s2.rd Reg.DRAM_CTRL_T_THROT 0 0)) 0x0A2
  .next (s3.tempFlag ch Reg.DRAM_CH_STAT_CRIT t (min 94 (s3.rd Reg.DRAM_CTRL_T_CRIT 0 0)) 0x0A3)

/-- Whether the bank group that holds a row has no repair row left: it has one to give (R374, R537). -/
def State.groupSpent (s : State) (ch row : Nat) : Bool :=
  s.dram.repairs.any (fun e => decide (e.1 = ch) && decide (Config.dramGroup ch e.2.1 = Config.dramGroup ch row))

/-- SOFT_PPR (R374): a row at its threshold is repaired, or its bank group has no repair row left. -/
def execSoftPpr (ch : DramCh) (row : Nat) (s : State) : Res :=
  if max 1 (s.rd Reg.DRAM_CTRL_CE_PPR 0 0) ≤ trackerCount (s.dramTracker ch) row then
    let free := s.rd Reg.DRAM_CH_STAT_PPR_FREE ch 0
    let s2 := { s with dram := { s.dram with
      tracker := cellPut [] s.dram.tracker ch ((s.dramTracker ch).filter (fun e => e.1 != row)) } }
    if free = 0 ∨ s.groupSpent ch row then .next (s2.dramEvent 0xCA4 ch [ch.val, row])
    else
      let s3 := s2.put Reg.DRAM_CH_STAT_PPR_FREE ch 0 (free - 1)
      .next ({ s3 with dram := { s3.dram with repairs := s3.dram.repairs ++ [(ch.val, row, false)] } }.dramEvent
        0x4A7 ch [ch.val, row])
  else .next s

/-- A request to retire a channel, with its reason (R375). -/
def State.askRetire (s : State) (ch reason : Nat) : State :=
  { s with dram := { s.dram with retireQ := s.dram.retireQ ++ [(ch, reason)] } }

/-- DRAM_RETIRE (R375): a write with GO = 1. -/
def execDramRetire (ch : DramCh) (s : State) : Res := .next (s.askRetire ch 4)

/-- Whether a retirement moves its granules: only the first, with a reserve (R376). -/
def State.movesOut (s : State) : Bool := s.on Reg.DRAM_MAP_SPARE_RSV 0 0 && s.dram.moved.isNone && s.dram.lost.isEmpty

/-- The reserve leaves the DRAM: requests that have a line of it still to do complete with ERR_BOUND (R376). -/
def State.closeReserve (s : State) : State :=
  let hit (r : MemReq) : Bool := !r.remote && r.parts.any (fun p => p.stage != .done
    && decide (0x1C_0000_0000 ≤ p.addr) && decide (p.addr < 0x20_0000_0000))
  { s.put Reg.DRAM_MAP_RSV_USED 0 0 1 with reqs := s.reqs.map (fun r => if hit r then r.refuse errBound else r) }

/-- A channel leaves service (R375, R376): its bits read 0, and its granules start to move, or are lost. -/
def State.retireChannel (s : State) (ch reason : Nat) : State :=
  let ok := s.rd Reg.GLOBAL_UNITS_DRAM_OK 0 0
  let s1 := (s.put Reg.GLOBAL_UNITS_DRAM_OK 0 0 (setBits ok ch 1 0)).put Reg.DRAM_CH_STAT_OK ch 0 0
  let s2 := (s1.raise 0xCA5 7 ch 6 6 [ch, reason]).put Reg.DRAM_SPARE_STAT_CH 0 0 ch
  if s2.movesOut then
    let s3 := (s2.put Reg.DRAM_SPARE_STAT_BUSY 0 0 1).closeReserve
    { s3 with dram := { s3.dram with moved := some ch } }
  else { s2 with dram := { s2.dram with lost := s2.dram.lost ++ [ch] } }

/-- CHANNEL_RETIRE (R375): the oldest request, once no retirement runs; a channel already retired needs none. -/
def execChannelRetire (s : State) : Res :=
  .next (match s.dram.retireQ with
    | [] => s
    | (ch, reason) :: rest =>
      if s.on Reg.DRAM_SPARE_STAT_BUSY 0 0 then s
      else
        let s1 := { s with dram := { s.dram with retireQ := rest } }
        if s1.on Reg.DRAM_CH_STAT_OK ch 0 then s1.retireChannel ch reason else s1)

/-- The granules that a move takes: those with ca[33:31] below 7 (R376). -/
def moveCount : Nat := 7 * 2 ^ 23

/-- A line of a granule moves (R377): read while the channel answers, and poisoned in its new place where it cannot be. -/
def State.moveLine (s : State) (readable : Bool) (l : Nat) : State :=
  if readable then (s.dramRead (l * 64)).2.dramFix l
  else { s with dram := { s.dram with poison := cellPut false s.dram.poison l true } }

/-- GRANULE_MOVE (R377): `readable` tells whether the channel still answers; when it does not, the lines are poisoned. Each line takes
a decision of either channel's Tollgate that input 10 has won. -/
def execGranuleMove (readable : Bool) (s : State) : Res :=
  let pos := s.rd Reg.DRAM_SPARE_STAT_POS 0 0
  let ch := s.rd Reg.DRAM_SPARE_STAT_CH 0 0
  let j := pos / 2 ^ 23
  .next (if s.on Reg.DRAM_SPARE_STAT_BUSY 0 0 && decide (pos < moveCount) then
    match s.useGrants 10 (List.replicate (if readable then 4 else 0) ch ++ List.replicate 4 (if j < ch then j else j + 1)) with
    | none => s
    | some s1 =>
      let l := granuleAddr ch pos / 64
      ((List.range 4).foldl (fun x i => x.moveLine readable (l + i)) s1).put Reg.DRAM_SPARE_STAT_POS 0 0 (pos + 1)
  else s)

/-- DRAM_SPARE_DONE (R377): the last granule has moved. -/
def execDramSpareDone (s : State) : Res :=
  if s.on Reg.DRAM_SPARE_STAT_BUSY 0 0 && decide (s.rd Reg.DRAM_SPARE_STAT_POS 0 0 = moveCount) then
    let ch := s.rd Reg.DRAM_SPARE_STAT_CH 0 0
    .next (((s.put Reg.DRAM_SPARE_STAT_BUSY 0 0 0).put Reg.DRAM_SPARE_STAT_DONE 0 0 1).raise 0x0A6 7 ch 6 6 [ch, moveCount])
  else .next s

/-- RETIRED_CHANNEL_REFUSE (R376). -/
def execRetiredChannelRefuse (ch : DramCh) (tag : Nat) (s : State) : Res :=
  .next (match s.req? tag with
    | none => s
    | some r =>
      if !r.remote && r.parts.any (fun p => p.stage != .done && decide (p.addr < 0x20_0000_0000) && s.dramLost p.addr
          && decide (s.dramHome p.addr = ch.val)) then
        s.modReq tag (fun x => x.refuse errDisabled)
      else s)

end Sys2Proof.Machine
end

