-- ==== Sys2Proof/Machine/FabOps.lean ====
section
/-! DEFINITION. Sending a packet into the fabric (14 R399..R408): its route, virtual lane, credits and counters. -/

namespace Sys2Proof.Machine

/-- This device's fabric address (R405). -/
def State.fabAddr (s : State) : Nat := s.rd Reg.FAB_ADDR_ADDR 0 0

/-- The extent of an axis (R405). -/
def State.extent (s : State) (axis : Nat) : Nat :=
  1 + s.rd (match axis with | 0 => Reg.FAB_SHAPE_EXM1 | 1 => Reg.FAB_SHAPE_EYM1 | _ => Reg.FAB_SHAPE_EZM1) 0 0

/-- Whether an axis closes into a ring (R404). -/
def State.isRing (s : State) (axis : Nat) : Bool :=
  s.on (match axis with | 0 => Reg.FAB_SHAPE_RX | 1 => Reg.FAB_SHAPE_RY | _ => Reg.FAB_SHAPE_RZ) 0 0

/-- A coordinate of an address (R405). -/
def coord (addr axis : Nat) : Nat := bitsOf addr (axis * 4) 4

/-- Whether a port carries packets: its STATE reads UP or RESTRIPE (R398, R422). -/
def State.portUp (s : State) (p : Nat) : Bool := decide (2 ≤ s.rd Reg.FAB_PORT_STAT_STATE 0 p)

/-- The port of dimension order (R406, rule 3). -/
def State.dimPort (s : State) (dst : Nat) : Option Nat :=
  (firstWhere 3 (fun a => coord dst a != coord s.fabAddr a)).map (fun a =>
    let c := coord s.fabAddr a
    let d := coord dst a
    if s.isRing a then
      let e := s.extent a
      if 2 * ((d + e - c % e) % e) ≤ e then 2 * a else 2 * a + 1
    else if c < d then 2 * a else 2 * a + 1)

/-- Whether leaving by a port is the dateline hop of its ring (R404). -/
def State.dateline (s : State) (p : Nat) : Bool :=
  let a := p / 2
  let e := s.extent a
  let lo := if e = 16 then 0 else 1
  s.isRing a && decide (coord s.fabAddr a = if p % 2 = 0 then lo + e - 1 else lo)

/-- Where a packet goes: to this device, dropped by a route entry, dropped for want of a port, or out of a port on a virtual
lane. -/
inductive Route where
  | here | entryDrop | drop | out (port : Nat) (vl : Bool)
deriving DecidableEq, Repr

/-- The route of a packet (R404, R406, R407). `arr` is the port it arrived on. -/
def State.route (s : State) (k : Packet) (arr : Option Nat) : Route :=
  let d := k.dst.toNat
  let lane (p : Nat) (fvl : Bool) : Bool := fvl || s.dateline p || (k.vl && arr.any (fun q => q / 2 == p / 2))
  if d = s.fabAddr then .here
  else if decide (d < 4096) && s.fab.badRoutes.contains d then .entryDrop
  else if decide (d < 4096) && s.on Reg.FAB_ROUTE_EN 0 d then
    let p := s.rd Reg.FAB_ROUTE_PORT 0 d
    if 6 ≤ p ∨ arr = some p ∨ ¬ s.portUp p then .entryDrop else .out p (lane p (s.on Reg.FAB_ROUTE_FVL 0 d))
  else
    match s.dimPort d with
    | none => .drop
    | some p => if s.portUp p then .out p (lane p false) else .drop

/-- Whether a packet type is of the response class (R401). -/
def isResp (ty : BitVec 4) : Bool := ty.getLsbD 3 && decide (ty ≠ 0xC)

/-- The receive buffer of a class and virtual lane, in the order of FAB_PORT_CRED (R403). -/
def bufOf (resp vl : Bool) : Nat := 2 * bit01 resp + bit01 vl

/-- The credits held for a receive buffer (R403). -/
def credFld (buf : Nat) : Fld :=
  match buf with
  | 0 => Reg.FAB_PORT_CRED_REQ_VL0
  | 1 => Reg.FAB_PORT_CRED_REQ_VL1
  | 2 => Reg.FAB_PORT_CRED_RSP_VL0
  | _ => Reg.FAB_PORT_CRED_RSP_VL1

/-- An event of the Drover (R437 input 8). -/
def State.fabEvent (s : State) (code unit : Nat) (args : List Nat) : State := s.raise code 8 unit 2 8 args

/-- Credits go back to the far end as a packet leaves a receive buffer (R403). -/
def State.creditBack (s : State) (arr : Option (Nat × Nat)) (cost : Nat) : State :=
  match arr with
  | none => s
  | some (p, b) => s.emit (.credits p b cost)

/-- A packet leaves its port: it takes its credits and is counted (R403, R408). -/
def State.portOut (s : State) (o : OutPkt) : State :=
  let f := credFld o.buf
  let s1 := s.put f 0 o.port (s.rd f 0 o.port - o.cost)
  let s2 := s1.bump Reg.FAB_PORT_TX_LINES_COUNT 0 o.port (o.cost - 1)
  let s3 := if o.fwd then s2.bump Reg.FAB_PORT_FWD_COUNT 0 o.port 1 else s2
  (s3.emit o.out).creditBack o.arrived o.cost

/-- Whether a packet may leave now: its credits are held (R403). -/
def State.mayLeave (s : State) (o : OutPkt) : Bool := decide (o.cost ≤ s.rd (credFld o.buf) 0 o.port)

/-- A packet leaves its port, or waits for credits behind those of its buffer that wait (R402, R403). -/
def State.portPut (s : State) (o : OutPkt) : State :=
  if s.mayLeave o && !s.fab.outQ.any (fun (q : OutPkt) => q.port == o.port && q.buf == o.buf) then s.portOut o
  else { s with fab := { s.fab with outQ := s.fab.outQ ++ [o] } }

/-- Packets waiting for the credits of a buffer leave in order, at most `fuel`. -/
def State.portDrain (s : State) (p b : Nat) : Nat → State
  | 0 => s
  | fuel + 1 =>
    match s.fab.outQ.find? (fun (q : OutPkt) => q.port == p && q.buf == b) with
    | none => s
    | some o =>
      if s.mayLeave o then
        State.portDrain (({ s with fab := { s.fab with outQ := s.fab.outQ.erase o } } : State).portOut o) p b fuel
      else s

/-- Routes a packet and sends it, `put` telling how it leaves its port; a packet of this device for itself is delivered
locally, which the model shows as port 6 (R399, R406, R407; log 24). A stopped Drover sends nothing (R414). -/
def State.fabRoute (s : State) (k : Packet) (arr : Option (Nat × Nat)) (put : Nat → Packet → Out) : State :=
  let cost := 1 + k.data.length
  if s.fab.stopped then s
  else
    match s.route k (arr.map (·.1)) with
    | .here => s.emit (put 6 k)
    | .entryDrop =>
      ((s.bump Reg.FAB_DROP_CNT_COUNT 0 0 1).fabEvent 0x8E3 0 [k.dst.toNat, (arr.map (·.1)).getD 6]).creditBack arr cost
    | .drop => (s.bump Reg.FAB_DROP_CNT_COUNT 0 0 1).creditBack arr cost
    | .out p vl =>
      s.portPut { port := p, buf := bufOf (isResp k.ty) vl, cost := cost, fwd := arr.isSome, arrived := arr,
                  out := put p { k with vl := vl } }

/-- Sends a packet of this device. -/
def State.fabSend (s : State) (k : Packet) (put : Nat → Packet → Out) : State := s.fabRoute k none put

/-- Sends a response: one for a peer declared lost is discarded (R421). -/
def State.fabAnswer (s : State) (k : Packet) (put : Nat → Packet → Out) : State :=
  if s.fab.lost.contains k.dst.toNat then s else s.fabSend k put

/-- A response to a packet: its header with the addresses exchanged (R400, R401). -/
def State.reply (s : State) (k : Packet) (ty : BitVec 4) (status : Nat) (data : List Line) : Packet :=
  { dst := k.src, src := BitVec.ofNat 16 s.fabAddr, ty := ty, vl := false, status := BitVec.ofNat 5 status, tag := k.tag,
    win := k.win, off := k.off, data := data, hchk := true }

/-- The completion code of a response status (R401). -/
def statusCode (status : Nat) : Nat :=
  match status with
  | 0 => codeOk
  | 1 => errWindow
  | 2 => errBound
  | 3 => errEcc
  | _ => errDisabled

end Sys2Proof.Machine
end

