-- ==== Sys2Proof/Machine/HostOps.lean ====
section
/-! DEFINITION. The host session's sending side (15 R424..R430, R436, R442): units, responses, and the session's end. -/

namespace Sys2Proof.Machine

/-- An event of the host port (R437 input 8). -/
def State.hostEvent (s : State) (code : Nat) (args : List Nat) : State := s.raise code 9 0 4 8 args

/-- CRC-32C of a unit (R427). -/
def crc32c (bs : List Byte) : Nat := crcBytes 32 true 0x82F63B78 0xFFFFFFFF (bs.map (·.toNat)) ^^^ 0xFFFFFFFF

/-- A protocol unit (R426, R427). -/
def unitOf (flags seq ack session : Nat) (msgs : List Byte) : List Byte :=
  let b := [BitVec.ofNat 8 (1 + flags * 16), 0] ++ leBytes 2 msgs.length ++ leBytes 4 seq ++ leBytes 4 ack
    ++ leBytes 4 session ++ msgs
  b ++ leBytes 4 (crc32c b)

/-- Whether a session is open (R443). -/
def State.hostOpen (s : State) : Bool := s.on Reg.HOST_STAT_SESSION 0 0

/-- Sends a frame, tagged where HOST_CTRL asks for it and under MACsec while keys are installed (R424, R440, R442). -/
def State.macSend (s : State) (out : Option Nat → Option (Nat × Nat) → Out) : State :=
  let vid := if s.on Reg.HOST_CTRL_VLAN_EN 0 0 then some (s.rd Reg.HOST_CTRL_VID 0 0) else none
  let s1 := s.emit (out vid (s.host.keys.map (fun k => (k.an, s.host.pn))))
  match s.host.keys with
  | none => s1
  | some _ =>
    let due := decide (s.rd Reg.HOST_MACSEC_REKEY_PN 0 0 * 2 ^ 40 ≤ s.host.pn) && !s.host.rekeyTold
    let s2 := { s1 with host := { s1.host with pn := s.host.pn + 1, rekeyTold := s.host.rekeyTold || due } }
    if due then s2.hostEvent 0x103 [s.host.pn % 2 ^ 32, s.host.pn / 2 ^ 32] else s2

/-- Sends a frame to the session's station (R424). -/
def State.hostFrame (s : State) (bytes : List Byte) : State :=
  s.macSend (fun vid sec => .host s.host.peer s.host.net (s.rd Reg.HOST_CTRL_ENCAP 0 0) vid sec bytes)

/-- Sends a unit already numbered; every unit carries the current ACK (R428). -/
def State.hostEmit (s : State) (u : TxUnit) : State :=
  (({ s with host := { s.host with owesAck := false } } : State).hostFrame
    (unitOf 0 u.seq s.host.rxNext s.host.session u.msgs))

/-- Sends an ACKONLY unit (R426, R428). -/
def State.hostAckOnly (s : State) : State :=
  ({ s with host := { s.host with owesAck := false } } : State).hostFrame
    (unitOf 2 s.host.txNext s.host.rxNext s.host.session [])

/-- Numbers and sends a unit of messages while fewer than 64 are unacknowledged; else it waits (R428). -/
def State.hostSend (s : State) (msgs : List Byte) (rings : List (Nat × Nat)) : State :=
  if s.host.unacked.length < 64 then
    let u : TxUnit := { seq := s.host.txNext, msgs := msgs, rings := rings }
    let h := { s.host with txNext := (s.host.txNext + 1) % 2 ^ 32, unacked := s.host.unacked ++ [u] }
    ({ s with host := h } : State).hostEmit u
  else { s with host := { s.host with backlog := s.host.backlog ++ [(msgs, rings)] } }

/-- Sends what waited for room, at most `fuel` units. -/
def State.hostDrain (s : State) : Nat → State
  | 0 => s
  | fuel + 1 =>
    match s.host.backlog with
    | [] => s
    | (m, r) :: rest =>
      if s.host.unacked.length < 64 then
        State.hostDrain (({ s with host := { s.host with backlog := rest } } : State).hostSend m r) fuel
      else s

/-- A message padded with zero bytes to a multiple of 8 (R430). -/
def msgOf (op status dlen tag : Nat) (body : List Byte) : List Byte :=
  let b := [BitVec.ofNat 8 op, BitVec.ofNat 8 status] ++ leBytes 2 dlen ++ leBytes 4 tag ++ body
  b ++ List.replicate ((8 - b.length % 8) % 8) 0

/-- Cuts data into parts of 1,024 B (R431); at most `fuel`. -/
def partsOf (bs : List Byte) : Nat → List (List Byte)
  | 0 => []
  | fuel + 1 => if bs.isEmpty then [] else bs.take 1024 :: partsOf (bs.drop 1024) fuel

/-- Answers a message (R430, R431): data longer than 1,024 B goes as parts that a message of DLEN 0 ends. A response that
finds no session is dropped. -/
def State.hostRespond (s : State) (op tag status : Nat) (data : List Byte) : State :=
  if s.hostOpen then
    let parts := if data.length ≤ 1024 then [data] else partsOf data (data.length / 1024 + 1) ++ [[]]
    parts.foldl (fun x p => x.hostSend (msgOf (op + 0x80) status p.length tag p) []) s
  else s

/-- The host rings with entries sent and not acknowledged (R435, R436). -/
def State.ringsOut (s : State) : List Nat :=
  numsWhere 2048 (fun h => s.rd Reg.HOST_RING_HEAD_HEAD 0 h != s.rd Reg.HOST_RING_DONE_DONE 0 h)

/-- The session ends (R429, R442): cause 1 CLOSE, 2 idle, 3 link, 4 KILL. HEAD of every host ring returns to DONE, the keys
are erased, and the host's locks are released by its death notice (R388). Camera event packets not yet sent on wait for the
next session (log 25). -/
def State.endSession (s : State) (cause : Nat) : State :=
  if s.hostOpen then
    let s1 := s.hostEvent 0x102 [s.host.session, cause]
    let s2 := s.ringsOut.foldl (fun x h => x.put Reg.HOST_RING_HEAD_HEAD 0 h (x.rd Reg.HOST_RING_DONE_DONE 0 h)) s1
    let s3 := (s2.put Reg.HOST_STAT_SESSION 0 0 0).put Reg.HOST_STAT_SECURE 0 0 0
    ({ s3 with host := { HostPort.reset with session := s3.host.session, camEvents := s3.host.camEvents } } : State).deathNotice .host
  else s

end Sys2Proof.Machine
end

