-- ==== Sys2Proof/Machine/Locks.lean ====
section
/-! DEFINITION. The lock unit (13 R385..R391, R539): its operations, the delivery of results, the death of an owner, and
its rows. -/

namespace Sys2Proof.Machine

/-- The results of R386. -/
def resGranted : Nat := 0
def resHeld : Nat := 1
def resQueued : Nat := 2
def resRefused : Nat := 3

/-- The KIND of an owner (R385). -/
def ownerKind : Owner → Nat
  | .task _ _ => 1
  | .chan _ _ => 2
  | .host => 3
  | .peer _ => 4

/-- The ID of an owner (R385). -/
def ownerId : Owner → Nat
  | .task n t => n.val * 8 + t.val
  | .chan n ch => n.val * 64 + ch.val
  | .host => 0
  | .peer a => a.toNat

/-- A lock. -/
def State.lock (s : State) (l : Nat) : Lock := cellGet Lock.idle s.locks l

/-- Replaces a lock. -/
def State.setLock (s : State) (l : Nat) (k : Lock) : State := { s with locks := cellPut Lock.idle s.locks l k }

/-- The waiter entries in use (R386). -/
def State.waitersUsed (s : State) : Nat := (s.locks.map (fun e => e.2.waiters.length)).foldl (· + ·) 0

/-- Whether an owner waits for any lock. -/
def State.waitsAny (s : State) (o : Owner) : Bool := s.locks.any (fun e => e.2.waiters.contains o)

/-- A lock goes to an owner: GEN rises by 1 (R385). -/
def Lock.grant (k : Lock) (o : Owner) : Lock := { k with owner := some o, gen := k.gen + 1 }

/-- A released lock goes to its head waiter, if it has one (R386). -/
def Lock.handOver (k : Lock) : Option Owner × Lock :=
  match k.waiters with
  | [] => (none, { k with owner := none })
  | w :: ws => (some w, ({ k with waiters := ws } : Lock).grant w)

/-- A result reaches its requester (R390, R391, R420, R431): a task's response register while its operation is
outstanding, a channel's, the host's answer, or a LOCK_RESP packet. -/
def State.lockResult (s : State) (o : Owner) (l res : Nat) (broken : Bool) : State :=
  match o with
  | .task n t =>
    if (s.task n t).lockOut = some (BitVec.ofNat 10 l) then
      let w := BitVec.ofNat 64 (res + bit01 broken * 4 + l * 16 + 2 ^ 31)
      let s1 := s.csrPut Reg.CORE_LOCK_RESP n t w
      let s2 := if res = resQueued then s1 else s1.modTask n t (fun k => { k with lockOut := none })
      if res = resGranted then s2.setIrq n 11 else s2
    else s
  | .chan n ch => s.csrPut Reg.LOCK_CRESP 0 (n.val * 64 + ch.val) (BitVec.ofNat 64 (res + bit01 broken * 4 + l * 16 + 2 ^ 31))
  | .host =>
    let data := leBytes 4 (res + bit01 broken * 4)
    let answer : State := match s.host.lockTag with
      | none => s
      | some tag =>
        let w := if res = resQueued then some (l, tag) else s.host.lockWait
        ({ s with host := { s.host with lockTag := none, lockWait := w } } : State).hostRespond 0x06 tag codeOk data
    match s.host.lockWait with
    | none => answer
    | some (w, tag) =>
      if w = l ∧ res = resGranted then
        ({ s with host := { s.host with lockWait := none } } : State).hostRespond 0x06 tag codeOk data
      else answer
  | .peer a =>
    match cellGet 0 s.fab.peerLocks (a.toNat * 1024 + l) with
    | 0 => s
    | tag + 1 =>
      let k : Packet := { dst := a, src := BitVec.ofNat 16 s.fabAddr, ty := 0xB, vl := false, status := 0,
                          tag := BitVec.ofNat 16 tag, win := 0, off := 0, data := [], hchk := true }
      let s1 := s.fabAnswer k (fun p k => .lockResp p k res broken)
      if res = resQueued then s1
      else { s1 with fab := { s1.fab with peerLocks := cellPut 0 s1.fab.peerLocks (a.toNat * 1024 + l) 0 } }

/-- A REFUSED result (R386). -/
def State.lockRefuse (s : State) (o : Owner) (l : Nat) : State :=
  (s.bump Reg.LOCK_ERR_CNT_COUNT 0 0 1).lockResult o l resRefused false

/-- The death of an owner is applied (R388): each lock it holds, in ascending order, is marked broken, counted, raised and
handed to its head waiter; its waiter entries go. -/
def State.applyDeath (s : State) (o : Owner) : State :=
  let drop (k : Lock) : Lock := { k with waiters := k.waiters.filter (fun w => w != o) }
  let ls := (s.locks.map (fun e => (e.1, drop e.2))).filter (fun e => e.2 != Lock.idle)
  let s1 := { s with locks := ls }
  let held := (s1.locks.filter (fun e => e.2.owner == some o)).map (·.1)
  held.foldl (fun (x : State) (l : Nat) =>
    let k := { x.lock l with broken := true }
    let x1 := (x.bump Reg.LOCK_BROKEN_CNT_COUNT 0 0 1).raise 0x8C1 11 0 1 7 [l, ownerKind o, ownerId o, k.gen.toNat]
    let (w, k') := k.handOver
    match w with
    | none => x1.setLock l k'
    | some w => (x1.setLock l k').lockResult w l resGranted true) s1

/-- The deaths an owner's next operation must find applied (R387): every notice up to the owner's last one. -/
def State.deathsBefore (s : State) (o : Owner) : State :=
  let n := s.deaths.length - (s.deaths.reverse.findIdx (fun d => d == o))
  ((s.deaths.take n).foldl State.applyDeath { s with deaths := s.deaths.drop n })

/-- TRY, and WAIT where the owner may not wait (R386): acquire a free lock. -/
def State.lockTry (s : State) (o : Owner) (l : Nat) : State :=
  let k := s.lock l
  match k.owner with
  | none => (s.setLock l (k.grant o)).lockResult o l resGranted k.broken
  | some _ => s.lockResult o l resHeld false

/-- WAIT (R386): acquire, or join the waiters. -/
def State.lockWait (s : State) (o : Owner) (l : Nat) : State :=
  let k := s.lock l
  if k.owner.isNone ∨ k.owner = some o then s.lockTry o l
  else if s.waitsAny o || decide (512 ≤ s.waitersUsed) then s.lockRefuse o l
  else (s.setLock l { k with waiters := k.waiters ++ [o] }).lockResult o l resQueued false

/-- RELEASE (R386): the lock goes to its head waiter in the same nc. -/
def State.lockRelease (s : State) (o : Owner) (l : Nat) : State :=
  let k := s.lock l
  if k.owner = some o then
    let (w, k') := k.handOver
    let s1 := (s.setLock l k').lockResult o l resGranted false
    match w with
    | none => s1
    | some w => s1.lockResult w l resGranted k.broken
  else s.lockRefuse o l

/-- CLEAR_BROKEN (R386, R389). -/
def State.lockClear (s : State) (o : Owner) (l : Nat) : State :=
  let k := s.lock l
  if k.owner = some o then (s.setLock l { k with broken := false }).lockResult o l resGranted false
  else s.lockRefuse o l

/-- One operation of the lock unit (R386, R387); for a Carter channel WAIT acts as TRY. -/
def State.lockOp (s : State) (o : Owner) (op l : Nat) : State :=
  let s1 := s.deathsBefore o
  match op, o with
  | 1, _ => s1.lockTry o l
  | 2, .chan _ _ => s1.lockTry o l
  | 2, _ => s1.lockWait o l
  | 3, _ => s1.lockRelease o l
  | 4, _ => s1.lockClear o l
  | _, _ => s1.lockRefuse o l

/-- An operation of a core's running task (R390): refused at once, and counted (R386), while the task has one outstanding. -/
def State.coreLockReq (s : State) (c : CoreId) (t : TaskId) (op l : Nat) : State :=
  if (s.task c t).lockOut.isSome then
    (s.bump Reg.LOCK_ERR_CNT_COUNT 0 0 1).csrPut Reg.CORE_LOCK_RESP c t (BitVec.ofNat 64 (resRefused + l * 16 + 2 ^ 31))
  else (s.modTask c t (fun k => { k with lockOut := some (BitVec.ofNat 10 l) })).lockOp (.task c t) op l

/-- A lock operation by its path (R385): a core's running task, a Carter channel of the first four (R391), the host with no
operation outstanding, or a peer. Who has no way to send it sends none. -/
def State.lockBy (s : State) (p : LockPath) (op : Nat) (l : Nat) : State :=
  match p with
  | .task c =>
    match (s.core c).seq.running with
    | none => s
    | some t => s.coreLockReq c t op l
  | .chan c ch => if ch.val < 4 then s.lockOp (.chan c ch) op l else s
  | .host => s.lockOp .host op l
  | .peer a => s.lockOp (.peer a) op l

/-- TRY (R386). -/
def execTryLock (p : LockPath) (l : Fin 1024) (s : State) : Res := .next (s.lockBy p 1 l)

/-- WAIT (R386). -/
def execWaitLock (p : LockPath) (l : Fin 1024) (s : State) : Res := .next (s.lockBy p 2 l)

/-- RELEASE (R386). -/
def execReleaseLock (p : LockPath) (l : Fin 1024) (s : State) : Res := .next (s.lockBy p 3 l)

/-- CLEAR_BROKEN (R389). -/
def execClearBroken (p : LockPath) (l : Fin 1024) (s : State) : Res := .next (s.lockBy p 4 l)

/-- OWNER_DEATH (R388): the oldest death notice. -/
def execOwnerDeath (s : State) : Res :=
  .next (match s.deaths with
    | [] => s
    | o :: rest => ({ s with deaths := rest } : State).applyDeath o)

/-- A write to LOCK_OP by a path that is no owner (R539): counted, and nothing else. -/
def State.lockForeign (s : State) : State := s.bump Reg.LOCK_ERR_CNT_COUNT 0 0 1

/-- LOCK_OP_FOREIGN_WRITE (R539): by the host, the management controller or JTAG. -/
def execLockOpForeignWrite (p : Path) (_l : Fin 1024) (_v : Word) (s : State) : Res :=
  .next (match p with
    | .host | .mgmt | .jtag => s.lockForeign
    | .core _ | .carter _ _ => s)

end Sys2Proof.Machine
end

