-- ==== Sys2Proof/Machine/SeqCsr.lean ====
section
/-! DEFINITION. What writes to the sequencer's and the vector unit's registers do (03 R113, R119, R122..R124; 04 R139,
R140, R159): shared by the rows of those writes and by every path that reaches the registers. -/

namespace Sys2Proof.Machine

/-- Empties the loop cache (R89). -/
def State.lcEmpty (s : State) (c : CoreId) : State :=
  s.modSeq c (fun q => { q with lcBase := 0, lcLen := 0, lcHeld := [] })

/-- A wake of the vector unit begins while it is powered down (R140). -/
def State.beginWake (s : State) (c : CoreId) : State :=
  if (s.core c).vec.pwr = .down then
    (s.modVec c (fun v => { v with pwr := .waking })).bump Reg.CORE_VEC_WAKES_COUNT c 0 1
  else s

/-- The registers of loads lost to an uncorrectable error hold free values once their scoreboard bits are clear (R501; log 2). -/
def State.lostFree (s : State) (c : CoreId) : State :=
  let s1 := ((s.core c).seq.loads.filter (fun l => l.failed)).foldl (fun x l => l.dst.foldl (fun y d =>
    let (w, z) := y.draw 32
    z.modTask c l.task (fun k => { k with s := k.s.set d.1 w })) x) s
  ((s.core c).vec.loads.filter (fun l => l.failed)).foldl (fun x l =>
    let x1 := l.regs.foldl (fun y d =>
      let (w, z) := y.draw 4096
      z.modVec c (fun v => { v with v := v.v.set d.1 w })) x
    match l.acc with
    | some (k, _) => let (w, z) := x1.draw 24576; z.modVec c (fun v => { v with a := v.a.set k w })
    | none => x1) s1

/-- Lost loads are done with: their scoreboard bits are clear (R111, R146). -/
def State.loadsLost (s : State) (c : CoreId) : State :=
  (s.modSeq c (fun q => { q with loads := q.loads.filter (fun l => !l.failed) })).modVec c
    (fun v => { v with loads := v.loads.filter (fun l => !l.failed) })

/-- `n` cc of a core's clock pass: its own cc runs on, GLOBAL_TICK_CC is no earlier, and the vector unit's time on or waking is
counted (R20, R161; log 7). -/
def State.coreTime (s : State) (c : CoreId) (n : Nat) : State :=
  let cc := (s.core c).seq.cc + n
  let s1 := s.modSeq c (fun q => { q with cc := cc })
  let s2 := if (s1.core c).vec.pwr = .down then s1 else s1.bump Reg.CORE_VEC_ON_CC_COUNT c 0 n
  { s2 with ticks := s2.ticks.set 0 (BitVec.ofNat 64 (max (s.tick 0) cc)) }

/-- What waits for a recognition point of task `t` takes place: a CINV write, a halt of the task (R119, R123). While RUN is 0 a
RUNNING task has no recognition point. -/
def State.atBoundary (s : State) (c : CoreId) (t : TaskId) : State :=
  let go := s.on Reg.CORE_SEQ_CTRL_RUN c 0
  let s1 := if (s.core c).seq.cinvReq && (go || (s.core c).seq.running.isNone) then
      (s.lcEmpty c).modSeq c (fun q => { q with cinvReq := false })
    else s
  if (s1.task c t).haltReq then
    match (s1.task c t).st with
    | .running => if go then s1.haltTask c t else s1
    | .ready | .waiting => s1.haltTask c t
    | .free | .halted => s1.modTask c t (fun k => { k with haltReq := false })
  else s1

/-- A write to RUN: 1 starts the sequencer, and after a double fault, once RUN was cleared, every task is FREE and
lost loads are done with (log 11); 0 stops it before the next bundle, and a bundle held in D will enter F again (R113, R119).
After the critical-temperature stop RUN stays 0 until the next reset (R531). -/
def State.setRun (s : State) (c : CoreId) (asked : Bool) : State :=
  let run := asked && !s.on Reg.MGMT_THERM_STAT_CRIT 0 0
  let s1 := if run && (s.core c).seq.double && !s.on Reg.CORE_SEQ_CTRL_RUN c 0 then
      ((s.lostFree c).loadsLost c).modSeq c (fun q => { q with double := false,
                                                               tasks := q.tasks.map (fun k => { k with st := .free, wait := .none }) })
    else s
  let s2 := s1.put Reg.CORE_SEQ_CTRL_RUN c 0 (bit01 run)
  let s3 := if run then s2 else s2.modSeq c (fun q => { q with inD := false })
  match (s3.core c).seq.running with
  | some t => if (s3.core c).seq.bundle.isNone then s3.atBoundary c t else s3
  | none => s3

/-- A write of 1 to CINV acts at the next recognition point of the running task, or at once when no task runs (R119). -/
def State.seqCinv (s : State) (c : CoreId) : State :=
  match (s.core c).seq.running with
  | none => s.lcEmpty c
  | some t =>
    let s1 := s.modSeq c (fun q => { q with cinvReq := true })
    if (s.core c).seq.bundle.isNone then s1.atBoundary c t else s1

/-- HALT_REQ of task `t` (R123). -/
def State.haltReqWrite (s : State) (c : CoreId) (t : TaskId) : State :=
  match (s.task c t).st with
  | .running =>
    let s1 := s.modTask c t (fun k => { k with haltReq := true })
    if (s.core c).seq.bundle.isNone then s1.atBoundary c t else s1
  | .ready | .waiting => s.haltTask c t
  | .free | .halted => s

/-- RELEASE of task `t`: a HALTED task becomes FREE (R123). -/
def State.releaseWrite (s : State) (c : CoreId) (t : TaskId) : State :=
  if (s.task c t).st = .halted then s.modTask c t (fun k => { k with st := .free }) else s

/-- A write to CORE_IRQ_SET sets the pending bits of lines 4..15 (R124). -/
def State.irqSetWrite (s : State) (c : CoreId) (mask : Nat) : State :=
  (List.range 16).foldl (fun x n => if 4 ≤ n ∧ mask.testBit n then x.setIrq c n else x) s

/-- The compare of TIMER_CMP with the count of cc: line 4 is set once per write (R122). -/
def State.timerTest (s : State) (c : CoreId) : State :=
  if (s.core c).seq.timerArmed && decide (s.rd Reg.CORE_TIMER_CMP_CMP c 0 ≤ s.tick 0) then
    (s.modSeq c (fun q => { q with timerArmed := false })).setIrq c 4
  else s

/-- A write to a half of TIMER_CMP, compared as the register then stands (R122, R175). -/
def State.timerCmpWrite (s : State) (c : CoreId) (high : Bool) (v : Word) : State :=
  let old := s.rd Reg.CORE_TIMER_CMP_CMP c 0
  let new := setBits old (if high then 32 else 0) 32 v.toNat
  ((s.put Reg.CORE_TIMER_CMP_CMP c 0 new).modSeq c (fun q => { q with timerArmed := true })).timerTest c

end Sys2Proof.Machine
end

