-- ==== Sys2Proof/Machine/Rings.lean ====
section
/-! DEFINITION. Rings (12 R344..R348; 14 R419; 15 R434, R435): index writes, the held heads of JOB rings, the start of a job
(03 R93, R94), and the rows RING_TAIL_WRITE, RING_HEAD_WRITE and JOB_TAKE. -/

namespace Sys2Proof.Machine

/-- A ring by its 14-bit number (R344). -/
inductive RingId where
  | core (c : CoreId) (k : Nat)
  | fab (f : Nat)
  | host (h : Nat)
deriving DecidableEq, Repr

/-- The ring a number names (R344). -/
def ringId (n : Nat) : RingId :=
  if h : n < 6144 then .core ⟨n / 1024, by omega⟩ (n % 1024) else if n < 14336 then .fab (n - 6144) else .host (n - 14336)

/-- A ring's indices and size. -/
structure RingIdx where
  tail : Nat
  head : Nat
  done : Nat
  size : Nat
deriving DecidableEq, Repr

/-- The indices of a ring (R345, R419, R435). -/
def State.ringIdx (s : State) (r : RingId) : RingIdx :=
  match r with
  | .core c k => ⟨s.rd Reg.CARTER_RING_TAIL_TAIL c k, s.rd Reg.CARTER_RING_HEAD_HEAD c k, s.rd Reg.CARTER_RING_DONE_DONE c k,
      2 ^ s.rd Reg.CARTER_RING_CFG_LOG2SZ c k⟩
  | .fab f => ⟨s.rd Reg.FAB_RING_TAIL_TAIL 0 f, s.rd Reg.FAB_RING_HEAD_HEAD 0 f, s.rd Reg.FAB_RING_DONE_DONE 0 f,
      2 ^ s.rd Reg.FAB_RING_CFG_LOG2SZ 0 f⟩
  | .host h => ⟨s.rd Reg.HOST_RING_TAIL_TAIL 0 h, s.rd Reg.HOST_RING_HEAD_HEAD 0 h, s.rd Reg.HOST_RING_DONE_DONE 0 h,
      2 ^ s.rd Reg.HOST_RING_CFG_LOG2SZ 0 h⟩

/-- Slots free for the producer (R345). -/
def RingIdx.free (x : RingIdx) : Nat := x.size - idxSub x.tail x.done

/-- The local address of the slot of index `i` of a ring (R344, R419, R435). -/
def State.slotOf (s : State) (r : RingId) (i : Nat) : Nat :=
  match r with
  | .core c k => s.ringSlot c k i
  | .fab f => s.rd Reg.FAB_RING_BASE_ADDR 0 f * 64 + i % 2 ^ s.rd Reg.FAB_RING_CFG_LOG2SZ 0 f * 64
  | .host h => s.rd Reg.HOST_RING_BASE_ADDR 0 h * 64 + i % 2 ^ s.rd Reg.HOST_RING_CFG_LOG2SZ 0 h * 64

/-- KIND of a core's ring (R346). -/
def State.ringKind (s : State) (c : CoreId) (k : Nat) : Nat := s.rd Reg.CARTER_RING_CFG_KIND c k

/-- The entry in a ring slot as the agent at a Tollgate input reads it: what a slot that cannot be read gives is a free value
(log 2, 20). -/
def State.entryRead (s : State) (input a : Nat) : Line × State :=
  let (code, s1) := s.localRead input a 64
  if code = codeOk then (lineOf (s1.localBytes a 64), s1) else s1.draw 512

/-- The Carter reads the head entry of a JOB ring that holds one (R348). -/
def State.holdHead (s : State) (c : CoreId) (k : Nat) : State :=
  let h := s.rd Reg.CARTER_RING_HEAD_HEAD c k
  if s.ringKind c k = 1 ∧ h ≠ s.rd Reg.CARTER_RING_TAIL_TAIL c k then
    let (e, s1) := s.entryRead c.val (s.ringSlot c k h)
    s1.modCarter c (fun r => { r with held := cellPut 0 r.held k e })
  else s

/-- A ring index write that is ignored (R345, R346). -/
def State.ringErr (s : State) (c : CoreId) : State := s.put Reg.CARTER_STAT_RING_ERR c 0 1

/-- TAIL of a core's ring takes an accepted value (R345, R346, R348). -/
def State.setTail (s : State) (c : CoreId) (k v : Nat) : State :=
  let empty := s.rd Reg.CARTER_RING_HEAD_HEAD c k = s.rd Reg.CARTER_RING_TAIL_TAIL c k
  let s1 := s.put Reg.CARTER_RING_TAIL_TAIL c k v
  let s2 := if empty then s1.holdHead c k else s1
  if s2.ringKind c k = 1 ∧ s2.on Reg.CARTER_RING_CFG_IRQ c k then s2.setIrq c 10 else s2

/-- A write of `v` to TAIL of a ring (R345, R346): whether it is accepted. -/
def State.tailWrite (s : State) (r : RingId) (v : Nat) : Bool × State :=
  let x := s.ringIdx r
  let ok := decide (idxSub v x.tail ≤ x.free)
  match r with
  | .core c k => if s.ringKind c k ≠ 0 ∧ ok then (true, s.setTail c k v) else (false, s.ringErr c)
  | .fab f => (ok, if ok then s.put Reg.FAB_RING_TAIL_TAIL 0 f v else s)
  | .host h => (ok, if ok then s.put Reg.HOST_RING_TAIL_TAIL 0 h v else s)

/-- A write of `v` to HEAD of a core's ring (R346). -/
def State.headWrite (s : State) (c : CoreId) (k v : Nat) : State :=
  if s.ringKind c k = 3 then
    let h := s.rd Reg.CARTER_RING_HEAD_HEAD c k
    if idxSub v h ≤ idxSub (s.rd Reg.CARTER_RING_TAIL_TAIL c k) h then
      (s.put Reg.CARTER_RING_HEAD_HEAD c k v).put Reg.CARTER_RING_DONE_DONE c k v
    else s.ringErr c
  else s

/-- RING_TAIL_WRITE (R345). -/
def execRingTailWrite (ring : BitVec 14) (v : Word) (s : State) : Res := .next (s.tailWrite (ringId ring.toNat) v.toNat).2

/-- RING_HEAD_WRITE (R346). -/
def execRingHeadWrite (c : CoreId) (k : Fin 1024) (v : Word) (s : State) : Res := .next (s.headWrite c k v.toNat)

/-! ## Jobs -/

/-- The JOB ring whose held entry names a FREE task, the lowest first (R348). -/
def State.jobRing (s : State) (c : CoreId) : Option Nat :=
  firstWhere 1024 (fun k =>
    decide (s.ringKind c k = 1) && s.rd Reg.CARTER_RING_HEAD_HEAD c k != s.rd Reg.CARTER_RING_TAIL_TAIL c k
      && decide ((s.task c (Fin.ofNat 8 (bitsOf (cellGet 0 (s.core c).carter.held k).toNat 0 3))).st = .free))

/-- The context a job starts with (R94). -/
def jobContext (t : TaskId) (entry : Nat) (len : Nat) (arith : Nat) (job : Nat × Nat) : Task :=
  { Task.reset t.val with
    s := Vector.ofFn (fun (i : Fin 32) => if i.val < 8 then BitVec.ofNat 32 (bitsOf entry (64 + 32 * i.val) 32) else 0),
    dsp := BitVec.ofNat 32 len,
    pc := BitVec.ofNat 32 (bitsOf entry 32 32),
    st := .ready,
    arith := BitVec.ofNat 3 arith,
    job := some job }

/-- A job starts (R89, R94): the core's staged fields become active, the loop cache is emptied, the context is loaded. -/
def State.jobStart (s : State) (c : CoreId) (t : TaskId) (entry : Nat) (job : Nat × Nat) : State :=
  let s1 := ((s.activate Reg.CORE_ARITH_CTRL c 0).activate Reg.CORE_TASK_CFG c t).lcEmpty c
  let arith := bitsOf (s1.csrGet Reg.CORE_ARITH_CTRL c 0).toNat 0 3
  s1.modTask c t (fun _ => jobContext t entry (s1.winLen c t) arith job)

/-- A core that takes jobs: in service, its Granary ready, running, and under no Assay slice (R203, R348, R496). -/
def State.takesJobs (s : State) (c : CoreId) : Bool :=
  s.coreOk c && s.on Reg.GRAN_STAT_READY c 0 && s.on Reg.CORE_SEQ_CTRL_RUN c 0 && !(s.core c).seq.double && !s.underTest c

/-- JOB_TAKE (R348). -/
def execJobTake (c : CoreId) (s : State) : Res :=
  .next (match if s.takesJobs c then s.jobRing c else none with
    | none => s
    | some k =>
      let entry := (cellGet 0 (s.core c).carter.held k).toNat
      let t : TaskId := Fin.ofNat 8 (bitsOf entry 0 3)
      let i := s.rd Reg.CARTER_RING_HEAD_HEAD c k
      let s1 := (s.put Reg.CARTER_RING_HEAD_HEAD c k ((i + 1) % 2 ^ 32)).holdHead c k
      if 0x0400_0000 < s1.winBase c t + s1.winLen c t then s1.ringComplete c k i errBound
      else if bitsOf entry 32 5 ≠ 0 then s1.ringComplete c k i errAlign
      else s1.jobStart c t entry (k, i))

end Sys2Proof.Machine
end

