-- ==== Sys2Proof/Machine/Fabric.lean ====
section
/-! DEFINITION. The Drover's rows for packets, windows, rings, locks and links (14 R395..R403, R406..R409, R414..R422). -/

namespace Sys2Proof.Machine

/-! ## Arrival -/

/-- A packet type of R401. -/
def knownType (ty : BitVec 4) : Bool :=
  decide (1 ≤ ty.toNat ∧ ty.toNat ≤ 4) || decide (8 ≤ ty.toNat ∧ ty.toNat ≤ 0xC)

/-- The receive buffer a packet arrived in. -/
def arrivedIn (p : PortId) (k : Packet) : Option (Nat × Nat) := some (p.val, bufOf (isResp k.ty) k.vl)

/-- A packet leaves its receive buffer without being sent on. -/
def State.consume (s : State) (p : PortId) (k : Packet) : State := s.creditBack (arrivedIn p k) (1 + k.data.length)

/-- A packet that no rule delivers: a bad header or a reserved type is counted, and a device without an address drops what is
no CONTROL packet (R400, R401, R410). `none` for a packet that goes on. -/
def State.packetDrop (s : State) (p : PortId) (k : Packet) : Option State :=
  if !k.hchk || !knownType k.ty then some ((s.bump Reg.FAB_HDR_ERR_CNT_COUNT 0 0 1).consume p k)
  else if s.fabAddr = 0 then some ((s.bump Reg.FAB_DROP_CNT_COUNT 0 0 1).consume p k)
  else none

/-- Whether the Drover accepts what arrives on a port: it is not stopped (R414) and the port is up (R399). -/
def State.accepts (s : State) (p : PortId) : Bool := !s.fab.stopped && s.portUp p

/-- A packet of type `ty` arrives on a port: dropped, sent on, or given to `f` on this device. -/
def State.arrive (s : State) (p : PortId) (k : Packet) (ty : BitVec 4) (put : Nat → Packet → Out) (f : State → State) : State :=
  if s.accepts p && (k.ty == ty || !knownType k.ty || !k.hchk) then
    match s.packetDrop p k with
    | some s' => s'
    | none => if k.dst.toNat = s.fabAddr then f (s.consume p k) else s.fabRoute k (arrivedIn p k) put
  else s

/-! ## Windows (R415..R418) -/

/-- The local address of a line of a window. -/
def State.winAddr (s : State) (k : Packet) (i : Nat) : Nat :=
  s.rd Reg.FAB_WIN_BASE_BASE 0 k.win.toNat * 4096 + k.off.toNat / 64 * 64 + 64 * i

/-- The check of R415 for `n` lines: the status, 0 for an admitted request. -/
def State.winCheck (s : State) (k : Packet) (n : Nat) (write : Bool) : Nat :=
  let w := k.win.toNat
  let mask := s.rd Reg.FAB_WIN_PEER_MASK 0 w
  if s.rd Reg.FAB_WIN_STAT_STATE 0 w ≠ 1 then 1
  else if k.src.toNat &&& mask ≠ s.rd Reg.FAB_WIN_PEER_MATCH 0 w &&& mask then 2
  else if !s.on (if write then Reg.FAB_WIN_CFG_WR else Reg.FAB_WIN_CFG_RD) 0 w then 2
  else if s.rd Reg.FAB_WIN_CFG_SIZE 0 w * 4096 < k.off.toNat / 64 * 64 + 64 * n then 2
  else if !s.rangeOk (s.winAddr k 0) (64 * n) then 2
  else 0

/-- The requests of peers that hold a fabric tag (R378). -/
def State.fabTagsUsed (s : State) : Nat :=
  s.reqs.countP (fun r => match r.sender with | .peer _ _ _ _ => true | .carter _ _ _ _ => false)

/-- A refused request (R415, R417): counted and answered. -/
def State.winRefuse (s : State) (k : Packet) (ty : BitVec 4) (status : Nat) : State :=
  (s.bump Reg.FAB_WIN_STAT_REFUSED 0 k.win.toNat 1).fabAnswer (s.reply k ty status []) .packet

/-- An admitted request enters the Tollgates (R415, R416). -/
def State.winAdmit (s : State) (p : PortId) (k : Packet) (n : Nat) (write : Bool) : State :=
  let part (i : Nat) : ReqPart :=
    { addr := s.winAddr k i, len := 64, data := if write then lineBytes (k.data.getD i 0) else [], stage := .atGate,
      age := 0, tries := 0 }
  let r : MemReq := { tag := s.nextTag, sender := .peer p k.win k.src k.tag, write := write, remote := false,
                      parts := (List.range n).map part, bad := false, err := 0, dead := false }
  ({ s with reqs := s.reqs ++ [r], nextTag := s.nextTag + 1 } : State).bump Reg.FAB_WIN_STAT_OUTSTANDING 0 k.win.toNat 1

/-- A request packet at its admission edge (R416); it waits while no fabric tag is free. -/
def State.winRequest (s : State) (p : PortId) (k : Packet) (n : Nat) (write : Bool) : State :=
  let status := s.winCheck k n write
  if status = 0 then s.winAdmit p k n write else s.winRefuse k (if write then 9 else 8) status

/-- Whether a request packet for this device waits for a fabric tag (R378, R416). -/
def State.noFabTag (s : State) (k : Packet) : Bool := decide (8192 ≤ s.fabTagsUsed) && decide (k.dst.toNat = s.fabAddr)

/-- READ_PACKET (R415, R416). -/
def execReadPacket (p : PortId) (k : Packet) (s : State) : Res :=
  .next (if s.noFabTag k then s
    else s.arrive p k 1 .packet (fun (x : State) => x.winRequest p k (k.off.toNat % 4 + 1) false))

/-- WRITE_PACKET (R415, R416). -/
def execWritePacket (p : PortId) (k : Packet) (s : State) : Res :=
  .next (if s.noFabTag k then s
    else s.arrive p k 2 .packet (fun (x : State) => x.winRequest p k k.data.length true))

/-- The response status of a code (R401); `none` for a failure that no status names, which is never answered. -/
def codeStatus (code : Nat) : Option Nat :=
  if code = codeOk then some 0 else if code = errDisabled then some 5 else if code = errBound then some 2
  else if code = errEcc then some 3 else none

/-- The response status of a finished request (R401); `none` for a failure that no status names, which is never answered. -/
def MemReq.status (r : MemReq) : Option Nat := if r.err = 0 ∧ r.bad then some 3 else codeStatus r.err

/-- The response of a finished request of a peer. -/
def State.winRespond (s : State) (r : MemReq) (w : BitVec 8) (requester tag : BitVec 16) : State :=
  let lines := (r.parts.filter (fun p => !p.data.isEmpty)).map (fun p => lineOf p.data)
  match r.status with
  | none => s
  | some st =>
    let k : Packet := { dst := requester, src := BitVec.ofNat 16 s.fabAddr, ty := if r.write then 9 else 8, vl := false,
                        status := BitVec.ofNat 5 st, tag := tag, win := w, off := 0,
                        data := if r.write || decide (st = 2) || decide (st = 5) then [] else lines, hchk := true }
    s.fabAnswer k .packet

/-- A closing window with no request left is CLOSED (R417). -/
def State.winSettle (s : State) (w : Nat) : State :=
  if s.rd Reg.FAB_WIN_STAT_STATE 0 w = 2 ∧ s.rd Reg.FAB_WIN_STAT_OUTSTANDING 0 w = 0 then
    (s.put Reg.FAB_WIN_STAT_STATE 0 w 0).fabEvent 0x0E7 0 [w, s.rd Reg.FAB_WIN_STAT_REFUSED 0 w]
  else s

/-- WINDOW_REQUEST_DONE (R417): an admitted request with every line performed. -/
def execWindowRequestDone (w : BitVec 8) (tag : Nat) (s : State) : Res :=
  .next (match s.req? tag with
    | none => s
    | some r =>
      match r.sender with
      | .carter _ _ _ _ => s
      | .peer _ win requester ptag =>
        if win = w ∧ r.allDone then
          let s1 := { s with reqs := s.reqs.filter (fun q => q.tag != tag) }
          let n := s1.rd Reg.FAB_WIN_STAT_OUTSTANDING 0 w.toNat
          ((s1.winRespond r w requester ptag).put Reg.FAB_WIN_STAT_OUTSTANDING 0 w.toNat (n - 1)).winSettle w.toNat
        else s)

/-- A write of 1 to OPEN of a window (R418). -/
def State.winOpen (s : State) (w : Nat) : State :=
  if s.rd Reg.FAB_WIN_STAT_STATE 0 w = 0 then s.put Reg.FAB_WIN_STAT_STATE 0 w 1 else s.put Reg.FAB_WIN_STAT_WIN_ERR 0 w 1

/-- A write of 1 to CLOSE of a window (R417). -/
def State.winClose (s : State) (w : Nat) : State :=
  if s.rd Reg.FAB_WIN_STAT_STATE 0 w = 1 then (s.put Reg.FAB_WIN_STAT_STATE 0 w 2).winSettle w else s

/-- FAB_WIN_OPEN (R418). -/
def execFabWinOpen (w : BitVec 8) (s : State) : Res := .next (s.winOpen w.toNat)

/-- FAB_WIN_CLOSE (R417). -/
def execFabWinClose (w : BitVec 8) (s : State) : Res := .next (s.winClose w.toNat)

/-! ## Rings (R419) -/

/-- What a write to a local address meets before it is performed: an error code, 0 for none (R376, R415, R496, R499). -/
def State.placeError (s : State) (a n : Nat) : Nat :=
  match placeOf a with
  | .dram d => if !s.rangeOk a n then errBound else if s.dramLost d then errDisabled else 0
  | .gran c _ => if !s.rangeOk a n then errBound else (s.granClosed c).getD 0
  | _ => errBound

/-- A RING_PUT at its target (R355, R419): the response status. -/
def State.ringAccept (s : State) (ring : Nat) (entry : Line) : Option Nat × State :=
  let r := ringId ring
  let x := s.ringIdx r
  let off := match r with
    | .core c k => decide (s.ringKind c k = 0)
    | .fab _ => true
    | .host _ => false
  let a := s.slotOf r x.tail
  if off then (some 2, s)
  else if x.free = 0 then (some 4, s)
  else
    match s.placeError a 64 with
    | 0 =>
      let (code, s1) := s.linesPut 7 a (lineBytes entry)
      (codeStatus code, if code = codeOk then (s1.tailWrite r ((x.tail + 1) % 2 ^ 32)).2 else s1)
    | e => (codeStatus e, s)

/-- RING_PUT (R419). -/
def execRingPut (p : PortId) (k : Packet) (ring : BitVec 14) (s : State) : Res :=
  .next (s.arrive p k 3 (fun q k => .ringPut q k ring.toNat) (fun (x : State) =>
    let (st, x1) := x.ringAccept ring.toNat (k.data.headD 0)
    match st with
    | none => x1
    | some n => x1.fabAnswer (x1.reply k 0xA n []) .packet))

/-- A fabric ring's flight. -/
def State.fabRing (s : State) (f : Nat) : FabRing := cellGet FabRing.idle s.fab.rings f

/-- Replaces a fabric ring's flight. -/
def State.setFabRing (s : State) (f : Nat) (x : FabRing) : State :=
  { s with fab := { s.fab with rings := cellPut FabRing.idle s.fab.rings f x } }

/-- A fabric ring stops (R419). -/
def State.fabRingStop (s : State) (f status : Nat) : State :=
  ((s.setFabRing f FabRing.idle).put Reg.FAB_RING_CFG_ERR 0 f 1).fabEvent 0x8E8 0 [f, status]

/-- The entry of a fabric ring's HEAD goes out as a RING_PUT (R419); a peer declared lost refuses it (R421). A poisoned entry
sends a free value. -/
def State.fabRingOut (s : State) (f : Nat) : State :=
  let peer := s.rd Reg.FAB_RING_CFG_PEER 0 f
  let a := s.slotOf (.fab f) (s.rd Reg.FAB_RING_HEAD_HEAD 0 f)
  if s.fab.lost.contains peer then s.fabRingStop f 2
  else
    let (entry, s1) := s.entryRead 7 a
    let tag := s1.nextTag % 2 ^ 16
    let k : Packet := { dst := BitVec.ofNat 16 peer, src := BitVec.ofNat 16 s.fabAddr, ty := 3, vl := false, status := 0,
                        tag := BitVec.ofNat 16 tag, win := 0, off := 0, data := [entry], hchk := true }
    (({ s1 with nextTag := s1.nextTag + 1 } : State).setFabRing f { sent := some tag, again := false }).fabSend k
      (fun q k => .ringPut q k (s.rd Reg.FAB_RING_TGT_TRING 0 f))

/-- Whether a fabric ring may send: enabled, not stopped, with an entry at HEAD. -/
def State.fabRingReady (s : State) (f : Nat) : Bool :=
  s.on Reg.FAB_RING_CFG_EN 0 f && !s.on Reg.FAB_RING_CFG_ERR 0 f && !s.fab.stopped
    && s.rd Reg.FAB_RING_HEAD_HEAD 0 f != s.rd Reg.FAB_RING_TAIL_TAIL 0 f

/-- FAB_RING_SEND (R419). -/
def execFabRingSend (f : Fin 8192) (s : State) : Res :=
  .next (if s.fabRingReady f && s.fabRing f == FabRing.idle then s.fabRingOut f else s)

/-- FAB_RING_RETRY (R419). -/
def execFabRingRetry (f : Fin 8192) (s : State) : Res :=
  .next (if s.fabRingReady f && (s.fabRing f).again then s.fabRingOut f else s)

/-- FAB_RING_TIMEOUT (R419). No status came, so the event's STATUS is a free value. -/
def execFabRingTimeout (f : Fin 8192) (s : State) : Res :=
  .next (if s.on Reg.FAB_CTRL_RING_TO 0 0 && (s.fabRing f).sent.isSome then
      let (st, s1) := s.draw 5
      s1.fabRingStop f st.toNat
    else s)

/-- The response of a fabric ring's RING_PUT (R419). -/
def State.fabRingAnswer (s : State) (f status : Nat) : State :=
  let h := s.rd Reg.FAB_RING_HEAD_HEAD 0 f
  match status with
  | 0 =>
    let s1 := ((s.setFabRing f FabRing.idle).linePut 7 (s.slotOf (.fab f) h) 56 [BitVec.ofNat 8 codeOk, 0x80, 0, 0, 0, 0, 0, 0]).2
    (s1.put Reg.FAB_RING_HEAD_HEAD 0 f ((h + 1) % 2 ^ 32)).put Reg.FAB_RING_DONE_DONE 0 f ((h + 1) % 2 ^ 32)
  | 4 => s.setFabRing f { sent := none, again := true }
  | _ => s.fabRingStop f status

/-- RING_RESP (R419). -/
def execRingResp (p : PortId) (k : Packet) (s : State) : Res :=
  .next (s.arrive p k 0xA .packet (fun (x : State) =>
    match x.fab.rings.find? (fun e => e.2.sent == some k.tag.toNat
        && x.rd Reg.FAB_RING_CFG_PEER 0 e.1 == k.src.toNat) with
    | none => x
    | some e => x.fabRingAnswer e.1 k.status.toNat))

/-! ## Responses to the Carters (R401) -/

/-- The request to a peer that a response answers. -/
def State.remoteReq (s : State) (k : Packet) (write : Bool) : Option MemReq :=
  s.reqs.find? (fun r => r.remote && r.write == write && r.tag % 2 ^ 16 == k.tag.toNat
    && r.parts.all (fun p => p.addr / 2 ^ 48 == k.src.toNat))

/-- A response marks its request performed: the lines in ascending order, and the error its status stands for (R401). -/
def MemReq.answer (r : MemReq) (k : Packet) : MemReq :=
  let code := statusCode k.status.toNat
  let parts := r.parts.zipIdx.map (fun (e : ReqPart × Nat) =>
    { e.1 with stage := .done, data := if r.write then e.1.data
        else if code = codeOk then lineBytes (k.data.getD e.2 0) else [] })
  { r with err := if r.err = 0 then code else r.err, parts := parts }

/-- A response of a peer; one whose request was given up only frees the tag (R364, R378). -/
def State.peerAnswer (s : State) (k : Packet) (write : Bool) : State :=
  match s.remoteReq k write with
  | none => s
  | some r =>
    if r.dead then { s with reqs := s.reqs.filter (fun q => q.tag != r.tag) }
    else s.modReq r.tag (fun q => q.answer k)

/-- READ_RESP (R401). -/
def execReadResp (p : PortId) (k : Packet) (s : State) : Res :=
  .next (s.arrive p k 8 .packet (fun (x : State) => x.peerAnswer k false))

/-- WRITE_RESP (R401). -/
def execWriteResp (p : PortId) (k : Packet) (s : State) : Res :=
  .next (s.arrive p k 9 .packet (fun (x : State) => x.peerAnswer k true))

/-! ## Locks (R420, R421) -/

/-- A peer's lock operation: its result answers this packet, and an earlier one still queued keeps its own tag. -/
def State.peerLockOp (s : State) (addr : BitVec 16) (tag op l : Nat) : State :=
  let key := addr.toNat * 1024 + l
  let s1 := s.deathsBefore (.peer addr)
  let old := cellGet 0 s1.fab.peerLocks key
  let s2 := ({ s1 with fab := { s1.fab with peerLocks := cellPut 0 s1.fab.peerLocks key (tag + 1) } } : State).lockOp
    (.peer addr) op l
  if cellGet 0 s2.fab.peerLocks key = 0 then { s2 with fab := { s2.fab with peerLocks := cellPut 0 s2.fab.peerLocks key old } }
  else s2

/-- LOCK_PACKET (R420). -/
def execLockPacket (p : PortId) (k : Packet) (op : BitVec 3) (l : Fin 1024) (s : State) : Res :=
  .next (s.arrive p k 4 (fun q k => .lock q k op.toNat l) (fun (x : State) => x.peerLockOp k.src k.tag.toNat op.toNat l))

/-- A lock result at its port (R420, R422). -/
def State.fabLockResult (s : State) (i : Nat) (result : Nat) (broken : Bool) : State :=
  s.csrPut Reg.FAB_LOCK_RESP 0 i (BitVec.ofNat 64 (result + bit01 broken * 4 + 2 ^ 31))

/-- FAB_LOCK_REQ (R420): the packet goes to DEST, or REFUSED is written at once while the port has an operation outstanding
or the peer is declared lost (R421), and counted (R386). -/
def State.fabLockWrite (s : State) (i : Nat) (v : Word) : State :=
  let dest := bitsOf v.toNat 16 16
  if cellGet 0 s.fab.lockOut i ≠ 0 ∨ s.fab.lost.contains dest then
    (s.bump Reg.LOCK_ERR_CNT_COUNT 0 0 1).fabLockResult i resRefused false
  else
    let tag := s.nextTag % 2 ^ 16
    let k : Packet := { dst := BitVec.ofNat 16 dest, src := BitVec.ofNat 16 s.fabAddr, ty := 4, vl := false, status := 0,
                        tag := BitVec.ofNat 16 tag, win := 0, off := 0, data := [], hchk := true }
    let s1 := { s with nextTag := s.nextTag + 1, fab := { s.fab with lockOut := cellPut 0 s.fab.lockOut i (tag + 1) } }
    s1.fabSend k (fun q k => .lock q k (bitsOf v.toNat 12 3) (bitsOf v.toNat 0 10))

/-- FAB_LOCK_REQ (R420). -/
def execFabLockReq (i : Fin 8) (v : Word) (s : State) : Res := .next (s.fabLockWrite i v)

/-- LOCK_RESP (R420): the result of the operation outstanding at a port; a QUEUED result is followed by another. -/
def execLockResp (p : PortId) (k : Packet) (i : Fin 8) (result : BitVec 2) (broken : Bool) (s : State) : Res :=
  .next (s.arrive p k 0xB (fun q k => .lockResp q k result.toNat broken) (fun (x : State) =>
    if cellGet 0 x.fab.lockOut i = k.tag.toNat + 1 then
      let x1 := x.fabLockResult i result.toNat broken
      if result.toNat = resQueued then x1
      else { x1 with fab := { x1.fab with lockOut := cellPut 0 x1.fab.lockOut i 0 } }
    else x))

/-- A peer is declared lost (R421). -/
def State.peerLost (s : State) (addr : BitVec 16) : State :=
  let lost := if s.fab.lost.contains addr.toNat then s.fab.lost else s.fab.lost ++ [addr.toNat]
  ({ s with fab := { s.fab with lost := lost } } : State).deathNotice (.peer addr)

/-- FAB_PEER_LOST_SET (R421). -/
def execFabPeerLostSet (addr : BitVec 16) (s : State) : Res := .next (s.peerLost addr)

/-- A declaration ends (R421). -/
def State.peerFound (s : State) (addr : BitVec 16) : State :=
  { s with fab := { s.fab with lost := s.fab.lost.filter (fun a => a != addr.toNat) } }

/-- FAB_PEER_LOST_CLEAR (R421). -/
def execFabPeerLostClear (addr : BitVec 16) (s : State) : Res := .next (s.peerFound addr)

/-! ## Forwarding and links -/

/-- PACKET_FORWARD (R408). A packet for this device, and a CONTROL packet of a known CTYPE, has its own row; a reserved CTYPE is
discarded and counted (R413). -/
def execPacketForward (p : PortId) (k : Packet) (s : State) : Res :=
  .next (if s.accepts p then
      if k.hchk && k.ty == 0xC then
        if 1 ≤ k.win.toNat ∧ k.win.toNat ≤ 7 then s else (s.bump Reg.FAB_HDR_ERR_CNT_COUNT 0 0 1).consume p k
      else
        match s.packetDrop p k with
        | some s' => s'
        | none => if k.dst.toNat = s.fabAddr then s else s.fabRoute k (arrivedIn p k) .packet
    else s)

/-- LINK_REPLAY (R397). -/
def execLinkReplay (p : PortId) (s : State) : Res :=
  .next (if s.portUp p then (s.bump Reg.FAB_PORT_FEC_UE_COUNT 0 p 1).bump Reg.FAB_PORT_REPLAY_COUNT 0 p 1 else s)

/-- Lanes of a port whose LANE_OK is 1. -/
def State.lanesOk (s : State) (p : Nat) : Nat := (numsWhere 4 (s.rd Reg.FAB_PORT_STAT_LANE_OK 0 p).testBit).length

/-- A port leaves service (R399). -/
def State.portRetire (s : State) (p : Nat) : State :=
  (s.put Reg.FAB_PORT_STAT_OK 0 p 0).put Reg.GLOBAL_UNITS_PORT_OK 0 0 (setBits (s.rd Reg.GLOBAL_UNITS_PORT_OK 0 0) p 1 0)

/-- A port goes down (R399): packets queued for it are dropped and counted, and with fewer than three good lanes it is
retired. Whether it is, the event's journal entry tells (R500). -/
def State.portDown (s : State) (p : PortId) (cause : Nat) : State :=
  let gone := s.fab.outQ.filter (fun (q : OutPkt) => q.port == p.val)
  let s1 := ((s.put Reg.FAB_PORT_STAT_STATE 0 p 0).put Reg.FAB_PORT_STAT_LANES 0 p 0).fabEvent 0xCE2 p [p.val, cause]
  let s2 := { s1 with fab := { s1.fab with outQ := s1.fab.outQ.filter (fun (q : OutPkt) => q.port != p.val) } }
  let s3 := gone.foldl (fun (x : State) (q : OutPkt) => (x.bump Reg.FAB_DROP_CNT_COUNT 0 0 1).creditBack q.arrived q.cost) s2
  if s3.lanesOk p < 3 then s3.portRetire p else s3

/-- FAB_PORT_DOWN (R399); causes 1 lanes, 2 replay, 3 far end (R503). -/
def execFabPortDown (p : PortId) (cause : Fin 4) (s : State) : Res :=
  .next (if s.portUp p && decide (cause ≠ 0) then s.portDown p cause else s)

/-- LANE_FAIL (R398): the lane is retired; a second lane takes the port down (R399). -/
def execLaneFail (p : PortId) (lane : Fin 4) (s : State) : Res :=
  .next (if s.portUp p && (s.rd Reg.FAB_PORT_STAT_LANES 0 p).testBit lane then
      let s1 := s.put Reg.FAB_PORT_STAT_LANE_OK 0 p (setBits (s.rd Reg.FAB_PORT_STAT_LANE_OK 0 p) lane 1 0)
      let s2 := (s1.put Reg.FAB_PORT_STAT_LANES 0 p (setBits (s.rd Reg.FAB_PORT_STAT_LANES 0 p) lane 1 0)).fabEvent
        0x4E1 p [p.val, lane.val]
      if s2.rd Reg.FAB_PORT_STAT_LANES 0 p = 7 ∨ s2.rd Reg.FAB_PORT_STAT_LANES 0 p = 11
          ∨ s2.rd Reg.FAB_PORT_STAT_LANES 0 p = 13 ∨ s2.rd Reg.FAB_PORT_STAT_LANES 0 p = 14 then s2
      else s2.portDown p 1
    else s)

/-- CREDIT_RETURN (R403): the credits of a buffer rise, to 256 at most, and waiting packets leave. -/
def execCreditReturn (p : PortId) (buf : Fin 4) (n : Nat) (s : State) : Res :=
  .next (if s.portUp p then
      let f := credFld buf
      let s1 := s.put f 0 p (min 256 (s.rd f 0 p + n))
      s1.portDrain p buf s1.fab.outQ.length
    else s)

/-- LINK_UP (R396, R403): a port in service that may come up, with the FEC mode of both ends. -/
def execLinkUp (p : PortId) (peerFec : Bool) (s : State) : Res :=
  .next (if s.on Reg.FAB_CTRL_EN 0 0 && s.on Reg.FAB_PORT_CFG_EN 0 p && s.on Reg.FAB_PORT_STAT_OK 0 p && !s.portUp p
        && !s.fab.stopped then
      if s.on Reg.FAB_PORT_CFG_FEC 0 p = peerFec then
        let s1 := (s.put Reg.FAB_PORT_STAT_STATE 0 p 2).put Reg.FAB_PORT_STAT_LANES 0 p (s.rd Reg.FAB_PORT_STAT_LANE_OK 0 p)
        [0, 1, 2, 3].foldl (fun (x : State) (b : Nat) => x.put (credFld b) 0 p 256) s1
      else s.put Reg.FAB_PORT_STAT_LINK_ERR 0 p 1
    else s)

/-- FAB_STAT.TAG_FREE as it reads (R378, R422). -/
def State.fabTagFree (s : State) : Nat := 8192 - s.fabTagsUsed

end Sys2Proof.Machine
end

