-- ==== Sys2Proof/Machine/LoomDesc.lean ====
section
/-! DEFINITION. The Loom's descriptors and what its setup checks (07 R208, R209, R220, R221; 08 R242, R258; 09 R263..R287). -/

namespace Sys2Proof.Machine

/-- A field of a 64 B descriptor. -/
def dfld (d : Line) (byte bit width : Nat) : Nat := bitsOf d.toNat (8 * byte + bit) width

/-! ## The job descriptor (R220) -/

def jobFmtA (d : Line) : Fmt := fmtOf (dfld d 2 0 4)
def jobFmtW (d : Line) : Fmt := fmtOf (dfld d 2 4 4)
def jobFmtO (d : Line) : Fmt := fmtOf (dfld d 3 0 4)
def jobOutEn (d : Line) : Bool := dfld d 3 4 1 == 1
def jobKeep (d : Line) : Bool := dfld d 3 5 1 == 1
def jobMax (d : Line) : Bool := dfld d 3 6 1 == 1
def jobIrq (d : Line) : Bool := dfld d 3 7 1 == 1
def jobMode (d : Line) : Nat := dfld d 4 0 2
def jobAsc (d : Line) : Bool := dfld d 4 2 1 == 1
def jobRot (d : Line) : Nat := dfld d 4 3 3
def jobOsc (d : Line) : Nat := dfld d 4 6 2
def jobSlot (d : Line) : Nat := dfld d 5 0 8
def jobM (d : Line) : Nat := dfld d 6 0 12
def jobAcc (d : Line) : Nat := dfld d 8 0 11
def jobN (d : Line) : Nat := dfld d 10 0 8 + 1
def jobKL (d : Line) : Nat := dfld d 11 0 8 + 1
def jobKT (d : Line) : Nat := dfld d 12 0 16
def jobQ (d : Line) : Nat := dfld d 14 0 6
def jobWAddr (d : Line) : Nat := dfld d 16 0 32
def jobWStride (d : Line) : Nat := dfld d 20 0 32
def jobAct (d : Line) : Nat := dfld d 24 0 32
def jobOut (d : Line) : Nat := dfld d 28 0 32
def jobPitch (d : Line) : Nat := dfld d 32 0 32
def jobScl (d : Line) : Nat := dfld d 36 0 32
def jobQsfW (d : Line) : Nat := dfld d 40 0 12
def jobQsfA (d : Line) : Nat := dfld d 42 0 12
def jobQsfO (d : Line) : Nat := dfld d 44 0 12
def jobRsc (d : Line) : Nat := dfld d 48 0 32

/-- Whether every reserved bit of a job descriptor is 0 (R220). -/
def jobReserved0 (d : Line) : Bool :=
  decide (dfld d 6 12 4 = 0 ∧ dfld d 8 11 5 = 0 ∧ dfld d 14 6 10 = 0 ∧ dfld d 40 12 4 = 0 ∧ dfld d 42 12 4 = 0
    ∧ dfld d 44 12 4 = 0 ∧ dfld d 46 0 16 = 0 ∧ dfld d 52 0 32 = 0)

/-- The rate classes of R208. -/
inductive LClass where
  | q | b | h
deriving DecidableEq, Repr

/-- A format of 16 bits (R208). -/
def is16 (f : Fmt) : Bool := fmtBits f == 16

/-- The rate class of a job (R208). -/
def jobClass (d : Line) : LClass :=
  if fmtBits (jobFmtA d) = 4 ∧ fmtBits (jobFmtW d) = 4 then .q
  else if is16 (jobFmtA d) || is16 (jobFmtW d) then .h else .b

/-- K elements per tile, TW (R208). -/
def jobTW (d : Line) : Nat := if jobClass d = .q then 256 else 128

/-- K elements of tile `t` (R212). -/
def jobRows (d : Line) (t : Nat) : Nat := if t + 1 = jobKT d then jobKL d else jobTW d

/-- Bytes of a weight row (R212). -/
def jobRowBytes (d : Line) : Nat := 16 * fmtBits (jobFmtW d)

/-- Whether the job's weights load as two parts (R208, R213). -/
def jobSplit (d : Line) : Bool := is16 (jobFmtW d)

/-- The rotation block, 0 for none (R214). -/
def jobBlock (d : Line) : Nat := if jobRot d = 0 then 0 else 2 ^ (3 + jobRot d)

/-- Formats of activations and weights (R209). -/
def loomIn (f : Fmt) : Bool :=
  match f with
  | .s32 | .fp32 | .s48 | .c21 | .rsvd => false
  | _ => true

/-- Formats of outputs (R209). -/
def loomOut (f : Fmt) : Bool :=
  match f with
  | .s48 | .c21 | .rsvd => false
  | _ => true

/-! ## The activation descriptor (R266) -/

def actLayout (d : Line) : Nat := dfld d 0 0 2
def actBorder (d : Line) : Nat := dfld d 0 2 2
def actPool (d : Line) : Bool := dfld d 0 4 1 == 1
def actCB (d : Line) : Nat := if dfld d 0 5 1 = 1 then 32 else 16
def actRS (d : Line) : Nat := dfld d 1 0 3
def actKH (d : Line) : Nat := dfld d 2 0 4 + 1
def actKW (d : Line) : Nat := dfld d 2 4 4 + 1
def actSY (d : Line) : Nat := dfld d 3 0 4 + 1
def actSX (d : Line) : Nat := dfld d 3 4 4 + 1
def actDY (d : Line) : Nat := dfld d 4 0 4 + 1
def actDX (d : Line) : Nat := dfld d 4 4 4 + 1
def actKY0 (d : Line) : Nat := dfld d 5 0 6
def actKX0 (d : Line) : Nat := dfld d 6 0 6
def actPadT (d : Line) : Nat := dfld d 8 0 10
def actPadB (d : Line) : Nat := dfld d 10 0 10
def actPadL (d : Line) : Nat := dfld d 12 0 10
def actPadR (d : Line) : Nat := dfld d 14 0 10
def actBase (d : Line) : Nat := dfld d 16 0 32
def actPitch (d : Line) : Nat := dfld d 20 0 32
def actPix (d : Line) : Nat := dfld d 24 0 16
def actW (d : Line) : Nat := dfld d 26 0 15
def actYMod (d : Line) : Nat := dfld d 28 0 13
def actC (d : Line) : Nat := dfld d 30 0 13
def actYLo (d : Line) : Nat := dfld d 32 0 32
def actYHi (d : Line) : Nat := dfld d 36 0 32
def actC0 (d : Line) : Nat := dfld d 40 0 13
def actCJ (d : Line) : Nat := dfld d 42 0 13
def actOX0 (d : Line) : Nat := dfld d 44 0 14
def actPW (d : Line) : Nat := dfld d 46 0 12
def actOY0 (d : Line) : Nat := dfld d 48 0 32
def actScl (d : Line) : Nat := dfld d 52 0 32
def actConst (d : Line) : Nat := dfld d 56 0 16
def actFKH (d : Line) : Nat := dfld d 58 0 6 + 1
def actFKW (d : Line) : Nat := dfld d 59 0 6 + 1

/-- Whether every reserved bit of an activation descriptor is 0 (R266). -/
def actReserved0 (d : Line) : Bool :=
  decide (dfld d 0 6 2 = 0 ∧ dfld d 1 3 5 = 0 ∧ dfld d 5 6 2 = 0 ∧ dfld d 6 6 2 = 0 ∧ dfld d 7 0 8 = 0 ∧ dfld d 8 10 6 = 0
    ∧ dfld d 10 10 6 = 0 ∧ dfld d 12 10 6 = 0 ∧ dfld d 14 10 6 = 0 ∧ dfld d 26 15 1 = 0)
  && decide (dfld d 28 13 3 = 0 ∧ dfld d 30 13 3 = 0 ∧ dfld d 40 13 3 = 0 ∧ dfld d 42 13 3 = 0 ∧ dfld d 44 14 2 = 0
    ∧ dfld d 46 12 4 = 0 ∧ dfld d 58 6 2 = 0 ∧ dfld d 59 6 2 = 0 ∧ dfld d 60 0 32 = 0)

/-- The factor f of space-to-depth or depth-to-space (R277, R278). -/
def actF (d : Line) : Nat :=
  match actRS d with
  | 1 => 2 | 2 => 4 | 3 => 8 | 5 => 2 | 6 => 4 | 7 => 8 | _ => 1

/-- Whether the map is presented space-to-depth (R277). -/
def actS2D (d : Line) : Bool := decide (1 ≤ actRS d ∧ actRS d ≤ 3)

/-- Whether the map is presented depth-to-space (R278). -/
def actD2S (d : Line) : Bool := decide (5 ≤ actRS d)

/-- Rows of the map, H (R266). -/
def actH (d : Line) : Nat := actYHi d + 1 - actYLo d

/-- The presented height H′ (R267, R277, R278). -/
def actHP (d : Line) : Nat :=
  if actS2D d then (actH d + actF d - 1) / actF d else if actD2S d then actH d * actF d else actH d

/-- The presented width W′. -/
def actWP (d : Line) : Nat :=
  if actS2D d then (actW d + actF d - 1) / actF d else if actD2S d then actW d * actF d else actW d

/-- The presented channels C′. -/
def actCP (d : Line) : Nat :=
  if actS2D d then actC d * actF d ^ 2 else if actD2S d then actC d / actF d ^ 2 else actC d

/-- CPAD for a channel count (R264). -/
def padTo (cb n : Nat) : Nat := (n + cb - 1) / cb * cb

/-- CPAD of the stored map (R264). -/
def actCPad (d : Line) : Nat := padTo (actCB d) (actC d)

/-- Groups of a ZC pixel, GP (R282). -/
def actGP (d : Line) (f : Fmt) : Nat := actCPad d * fmtBits f / 128

/-- Bytes of a ZC mask, MB (R282). -/
def actMB (d : Line) (f : Fmt) : Nat := 64 * ((actW d * actGP d f + 511) / 512)

/-- Slices of row-scale entries, SL (R281). -/
def actSL (d : Line) : Nat := (actCPad d + 127) / 128

/-- Bytes of a slice of row-scale entries, SRP (R281). -/
def actSRP (d : Line) : Nat := 64 * ((actW d * 8 + 63) / 64)

/-- Rows stored: YMOD of a ring, else H (R265). -/
def actStored (d : Line) : Nat := if actYMod d = 0 then actH d else actYMod d

/-- The output height OH (R271). -/
def actOH (d : Line) : Int :=
  ((actHP d : Int) + actPadT d + actPadB d - (((actFKH d : Int) - 1) * actDY d + 1)) / actSY d + 1

/-- The output width OW (R271). -/
def actOW (d : Line) : Int :=
  ((actWP d : Int) + actPadL d + actPadR d - (((actFKW d : Int) - 1) * actDX d + 1)) / actSX d + 1

/-! ## The checks of setup (R221, R287) -/

/-- Step 1: alignment, of every address whatever uses it (R220, R221, R258, R287). `a` is none while ACT_DESC is misaligned or outside
the window. PIX is tested against an FMT_A that a job may have; another is step 2's (R209; DEDUCED, log 14). -/
def loomAligned (d : Line) (a : Option Line) : Bool :=
  let mul (x k : Nat) : Bool := x % k == 0
  mul (jobWAddr d) 64 && mul (jobWStride d) 64 && mul (jobAct d) 64
    && mul (jobOut d) 64 && mul (jobPitch d) 64 && mul (jobScl d) 8
    && (match a with
        | none => true
        | some a => mul (actBase a) 64 && mul (actPitch a) 64
            && mul (actScl a) 8
            && (jobMode d != 0 || actLayout a != 0 || !loomIn (jobFmtA d) || mul (actPix a) (actCB a * fmtBits (jobFmtA d) / 8)))

/-- The fields of a job descriptor lie within what the spec allows (R209, R214, R219..R221); `slotOk` is R242's condition on
the slot of OSC 2. -/
def jobFieldsOk (d : Line) (tile slotOk : Bool) : Bool :=
  jobReserved0 d && loomIn (jobFmtA d) && loomIn (jobFmtW d) && loomOut (jobFmtO d)
    && decide (jobMode d ≤ 1 ∧ jobRot d ≤ 4 ∧ jobOsc d ≤ 2 ∧ jobM d ≤ 2048 ∧ jobAcc d + jobM d ≤ 2048 ∧ jobN d ≤ 128
        ∧ jobKL d ≤ jobTW d ∧ 1 ≤ jobKT d ∧ jobQ d ≤ 47)
    && (!tile || (decide (jobKT d = 1) && !jobOutEn d))
    && (jobOsc d != 2 || (fmtInt (jobFmtO d) && slotOk))
    && decide (jobQsfW d + jobN d ≤ 4096) && (jobOsc d != 1 || decide (jobQsfO d + jobN d ≤ 4096))
    && (jobRot d == 0 || (decide (jobClass d = .b) && decide (jobKL d % jobBlock d = 0)
        && (jobKT d == 1 || decide (jobTW d % jobBlock d = 0))))

/-- The ranges of a job descriptor lie in a window of `len` bytes (R221). -/
def jobRangesOk (d : Line) (len : Nat) : Bool :=
  let rb := jobRowBytes d
  decide (jobWAddr d + (jobKT d - 1) * jobWStride d + jobKL d * rb ≤ len)
    && (decide (jobKT d < 2) || decide (jobWAddr d + (jobKT d - 2) * jobWStride d + jobTW d * rb ≤ len))
    && decide (jobAct d + 64 ≤ len)
    && (!jobOutEn d || (decide (jobOut d + jobM d * jobPitch d ≤ len)
        && (jobOsc d != 2 || decide (jobScl d + 8 * jobM d ≤ len))))

/-- Matrix addressing (R279, R280): MATRIX_EN, the row's footprint and the ranges. -/
def matrixOk (d a : Line) (matrixEn : Bool) (len : Nat) : Bool :=
  matrixEn
    && decide ((((jobKT d - 1) * jobTW d + jobKL d) * fmtBits (jobFmtA d) + 7) / 8 ≤ actPitch a)
    && decide (actBase a + jobM d * actPitch a ≤ len)
    && (!jobAsc d || decide (actScl a + 8 * jobM d ≤ len))

/-- The limits of a window's fields (R264, R266, R273, R277, R278, R281). -/
def windowFieldsOk (d a : Line) : Bool :=
  let cb := actCB a
  actReserved0 a
    && decide (actLayout a ≤ 2 ∧ actRS a ≠ 4 ∧ 1 ≤ actW a ∧ actW a ≤ 16384 ∧ actYMod a ≤ 4096 ∧ 1 ≤ actC a ∧ actC a ≤ 4096
        ∧ 1 ≤ actCJ a ∧ actCJ a ≤ 4096 ∧ 1 ≤ actPW a ∧ actPW a ≤ 2048)
    && decide (actC0 a % cb = 0 ∧ actCJ a % cb = 0 ∧ actC0 a + actCJ a ≤ padTo cb (actCP a))
    && (actPool a || decide (actKH a ≤ 7 ∧ actKW a ≤ 7))
    && decide (actKY0 a + actKH a ≤ actFKH a ∧ actKX0 a + actKW a ≤ actFKW a)
    && (!actS2D a || (actLayout a == 1 && !jobAsc d))
    && (!actD2S a || (actLayout a == 0 && !jobAsc d && decide (actC a % actF a ^ 2 = 0) && decide (actCP a % cb = 0)))
    && (!jobAsc d || (decide (actC0 a % 128 + actCJ a ≤ 128) && actRS a == 0
        && (jobRot d == 0 || decide (actCJ a % jobBlock d = 0))))

/-- The tiles cover the pass exactly (R269). -/
def windowTilesOk (d a : Line) : Bool :=
  let k := actKH a * actKW a * actCJ a
  decide (jobKT d = (k + jobTW d - 1) / jobTW d) && decide (jobKL d = k - (jobKT d - 1) * jobTW d)

/-- The footprint of a map (R264, R281, R282, R287). -/
def windowMapOk (d a : Line) (len : Nat) : Bool :=
  let f := jobFmtA d
  let rows := actStored a
  (match actLayout a with
    | 0 => decide (actCPad a * fmtBits f ≤ 8 * actPix a) && decide (actW a * actPix a ≤ actPitch a)
    | 1 => decide ((actW a * actC a * fmtBits f + 7) / 8 ≤ actPitch a)
    | _ => (fmtBits f == 4 || fmtBits f == 8) && decide (actCB a * fmtBits f % 128 = 0)
        && decide (actW a * actGP a f ≤ 32768) && decide (192 + actMB a f ≤ actPitch a))
    && decide (actBase a + rows * actPitch a ≤ len)
    && (!jobAsc d || rows == 0 || decide (actScl a + (rows * actSL a - 1) * actSRP a + actW a * 8 ≤ len))

/-- An integer cut to a range of naturals 0..n − 1. -/
def clampN (x : Int) (n : Nat) : Nat := (clampi x 0 ((n : Int) - 1)).toNat

/-- The stored rows a job's span reaches, lowest to highest (R272). -/
def windowSpan (d a : Line) : Nat :=
  let lo := clampN ((actOY0 a : Int) * actSY a - actPadT a + actKY0 a * actDY a) (actHP a)
  let hi := clampN (((actOY0 a + (jobM d - 1) / actPW a : Nat) : Int) * actSY a - actPadT a
    + ((actKY0 a + actKH a - 1) * actDY a : Nat)) (actHP a)
  if actS2D a then min (hi * actF a + actF a - 1) (actH a - 1) + 1 - lo * actF a
  else if actD2S a then hi / actF a + 1 - lo / actF a
  else hi + 1 - lo

/-- The positions and the ring span (R272). -/
def windowReachOk (d a : Line) : Bool :=
  decide (((actOX0 a + actPW a : Nat) : Int) ≤ actOW a)
    && decide (((actOY0 a + (jobM d - 1) / actPW a : Nat) : Int) < actOH a)
    && (actYMod a == 0 || decide (windowSpan d a ≤ actYMod a))

/-- Whether the output is empty (R271, R279). -/
def outputEmpty (d a : Line) : Bool :=
  jobM d == 0 || (jobMode d == 0 && (decide (actOH a ≤ 0) || decide (actOW a ≤ 0)))

/-- The code that setup gives, 0 for a job that runs (R221, R271, R272, R287). -/
def setupCode (d : Line) (a : Option Line) (tile slotOk matrixEn : Bool) (len : Nat) : Nat :=
  if !loomAligned d a then errAlign
  else match a with
    | none => errBound
    | some a =>
      if !(jobFieldsOk d tile slotOk && jobRangesOk d len
          && (if jobMode d = 0 then windowFieldsOk d a && windowTilesOk d a && windowMapOk d a len
              else matrixOk d a matrixEn len)) then errBound
      else if outputEmpty d a then codeEmpty
      else if jobMode d = 0 && !windowReachOk d a then errBound
      else codeOk

end Sys2Proof.Machine
end

