-- ==== Sys2Proof/Machine/CarterOps.lean ====
section
/-! DEFINITION. What the Carter's rows share (12 R349..R366): descriptors and their checks, channels, completions, the start and
the disabling of a channel. -/

namespace Sys2Proof.Machine

/-! ## Descriptor fields (R353) -/

def cdOp (d : Line) : Nat := dfld d 0 0 3
def cdBar (d : Line) : Bool := dfld d 0 4 1 == 1
def cdIrq (d : Line) : Bool := dfld d 0 5 1 == 1
def cdPub (d : Line) : Bool := dfld d 0 6 1 == 1
def cdPace (d : Line) : Nat := dfld d 1 0 2
def cdEntries (d : Line) : Nat := dfld d 2 0 6 + 1
def cdPubCtr (d : Line) : Nat := dfld d 3 0 4
def cdTag (d : Line) : Nat := dfld d 6 0 16
def cdSrc (d : Line) : Nat := dfld d 8 0 64
def cdDst (d : Line) : Nat := dfld d 16 0 64
def cdLen (d : Line) : Nat := dfld d 24 0 32
def cdPring (d : Line) : Nat := dfld d 28 0 16
def cdHw (d : Line) : Nat := dfld d 32 0 16
def cdLw (d : Line) : Nat := dfld d 34 0 16

/-- The parts of an address word (R352). -/
def awAddr (w : Nat) : Nat := bitsOf w 0 40
def awWin (w : Nat) : Nat := bitsOf w 40 8
def awPeer (w : Nat) : Nat := bitsOf w 48 16

/-- Whether an address word lies in this device's CSR space (R356). -/
def awCsr (w : Nat) : Bool := awPeer w == 0 && decide (0x60_0000_0000 ≤ awAddr w)

/-- Whether a descriptor copies CSR words. -/
def cdCsr (d : Line) : Bool := cdOp d == 0 && (awCsr (cdSrc d) || awCsr (cdDst d))

/-- Reserved bits of a descriptor are 0 (R353). -/
def cdReserved0 (d : Line) : Bool :=
  decide (cdOp d < 4) && dfld d 0 3 1 == 0 && dfld d 0 7 1 == 0 && decide (cdPace d ≠ 3) && dfld d 1 2 6 == 0
    && dfld d 2 6 2 == 0 && dfld d 3 4 4 == 0 && dfld d 4 0 16 == 0 && dfld d 30 0 16 == 0 && dfld d 36 0 96 == 0
    && (if bitsOf (cdPring d) 15 1 = 1 then bitsOf (cdPring d) 7 8 == 0 else bitsOf (cdPring d) 14 1 == 0)
    && (cdOp d != 3 || decide (cdDst d < 2 ^ 14)) && (cdOp d != 1 || cdLen d == 0)

/-- The list address of a GATHER or SCATTER. -/
def cdList (d : Line) : Option Nat :=
  match cdOp d with
  | 1 => some (cdSrc d)
  | 2 => some (cdDst d)
  | _ => none

/-- A list entry: address word, length, and whether its reserved bytes are 0 (R354). -/
structure ListEnt where
  word : Nat
  len : Nat
  ok : Bool

/-- The entries of a list as read from a Granary. -/
def listOf (bs : List Byte) (n : Nat) : List ListEnt :=
  (List.range n).map (fun i =>
    let e := (bs.drop (16 * i)).take 16
    { word := leNat (e.take 8), len := leNat ((e.drop 8).take 4), ok := leNat (e.drop 12) == 0 })

/-- The segments of a descriptor with its list (R354). -/
def segsOf (d : Line) (es : List ListEnt) : List Seg :=
  let mk (src dst len : Nat) : Seg :=
    { src := BitVec.ofNat 64 src, dst := BitVec.ofNat 64 dst, len := len, rd := 0, wr := 0, buf := [], err := 0 }
  let at' (i : Nat) : Nat := ((es.take i).map (fun (e : ListEnt) => e.len)).foldl (· + ·) 0
  match cdOp d with
  | 1 => es.zipIdx.map (fun (e : ListEnt × Nat) => mk e.1.word (cdDst d + at' e.2) e.1.len)
  | 2 => es.zipIdx.map (fun (e : ListEnt × Nat) => mk (cdSrc d + at' e.2) e.1.word e.1.len)
  | _ => [mk (cdSrc d) (cdDst d) (cdLen d)]

/-! ## Checks (R358) -/

/-- What setup checks a descriptor against: the core and channel, the descriptor's window, its bytes and its list. -/
structure CdCtx where
  c : CoreId
  ch : Nat
  winBase : Nat
  winLen : Nat
  d : Line
  es : List ListEnt

/-- Alignment of an address word and a length. -/
def cdAligned (csr : Bool) (w : Nat) : Bool := if csr then w % 4 == 0 else w % 64 == 0

/-- Check 1 of R358. -/
def CdCtx.aligned (x : CdCtx) : Bool :=
  let csr := cdCsr x.d
  let words := match cdOp x.d with
    | 1 => [cdDst x.d, cdLen x.d]
    | 2 => [cdSrc x.d, cdLen x.d]
    | 3 => [cdSrc x.d, cdLen x.d]
    | _ => [cdSrc x.d, cdDst x.d, cdLen x.d]
  words.all (cdAligned csr) && (cdList x.d).all (fun a => a % 16 == 0)
    && x.es.all (fun (e : ListEnt) => e.word % 64 == 0 && e.len % 64 == 0)

/-- A range that a descriptor names may be used (R356, R358). -/
def State.cdRange (s : State) (x : CdCtx) (w n : Nat) : Bool :=
  let peer := awPeer w
  if peer ≠ 0 then peer != 0xFFFF && decide (peer < 4096) && peer != s.fabAddr
  else
    match placeOf (awAddr w) with
    | .gran c off => s.rangeOk (awAddr w) n
        && (c != x.c || (decide (x.winBase ≤ off) && decide (off + n ≤ x.winBase + x.winLen)))
    | .dram _ => s.rangeOk (awAddr w) n
    | .csr off => decide (off + n ≤ 0x1000_0000) && decide (cdOp x.d = 0) && decide (x.ch < 4)
        && decide (4 ≤ cdLen x.d ∧ cdLen x.d ≤ 256)
    | .nowhere => false

/-- The other side of a COPY of CSR words lies in the own Granary (R356). -/
def CdCtx.csrSides (x : CdCtx) : Bool :=
  let own (w : Nat) : Bool := awPeer w == 0 && (match placeOf (awAddr w) with | .gran c _ => c == x.c | _ => false)
  !cdCsr x.d || (awCsr (cdSrc x.d) && own (cdDst x.d)) || (awCsr (cdDst x.d) && own (cdSrc x.d))

/-- The ring a PUT names may take it (R358). -/
def State.putOk (s : State) (d : Line) : Bool :=
  let r := ringId (cdDst d)
  let off := match r with
    | .core c k => decide (s.ringKind c k = 0)
    | _ => false
  !off && decide (cdLen d ≤ 64 * (s.ringIdx r).size)

/-- A paced ring belongs to a core in service (R358). -/
def State.paceOk (s : State) (d : Line) : Bool :=
  let p := cdPring d
  cdPace d == 0 || (if bitsOf p 15 1 = 1 then s.coreOk (bitsOf p 4 3)
    else match ringId (bitsOf p 0 14) with
      | .core c _ => s.coreOk c
      | _ => false)

/-- Total length. -/
def segTotal (es : List Seg) : Nat := (es.map (fun (g : Seg) => g.len)).foldl (· + ·) 0

/-- Check 2 of R358. -/
def State.cdFields (s : State) (x : CdCtx) : Bool :=
  let segs := segsOf x.d x.es
  let range (w n : Nat) : Bool := s.cdRange x w n
  cdReserved0 x.d && (!cdPub x.d || cdBar x.d || decide (x.ch < 4)) && x.es.all (fun (e : ListEnt) => e.ok) && x.csrSides && s.paceOk x.d
    && (cdOp x.d != 2 || segTotal segs == cdLen x.d)
    && (match cdOp x.d with
        | 3 => s.putOk x.d && range (cdSrc x.d) (cdLen x.d)
        | 1 => range (cdDst x.d) (segTotal segs) && segs.all (fun (g : Seg) => range g.src.toNat g.len)
        | 2 => range (cdSrc x.d) (cdLen x.d) && segs.all (fun (g : Seg) => range g.dst.toNat g.len)
        | _ => range (cdSrc x.d) (cdLen x.d) && range (cdDst x.d) (cdLen x.d))

/-- The list of a descriptor lies in its window, and what it holds (R353, R358). -/
def State.cdListRead (s : State) (c : CoreId) (winBase winLen : Nat) (d : Line) : Option (Nat × List ListEnt) :=
  match cdList d with
  | none => some (0, [])
  | some a =>
    let n := cdEntries d
    if a + 16 * n ≤ winLen then some (winBase + a, listOf (s.granBytes c (winBase + a) (16 * n)) n) else none

/-- Setup's verdict: a code, 0 for a descriptor that moves data, and its segments (R358). -/
def State.cdCheck (s : State) (c : CoreId) (ch winBase winLen : Nat) (d : Line) : Nat × List Seg :=
  match s.cdListRead c winBase winLen d with
  | none =>
    let x : CdCtx := { c := c, ch := ch, winBase := winBase, winLen := winLen, d := d, es := [] }
    (if x.aligned then errBound else errAlign, [])
  | some (_, es) =>
    let x : CdCtx := { c := c, ch := ch, winBase := winBase, winLen := winLen, d := d, es := es }
    if !x.aligned then (errAlign, [])
    else if !s.cdFields x then (errBound, [])
    else
      let segs := segsOf d es
      if segTotal segs = 0 then (codeEmpty, []) else (codeOk, segs)

/-! ## Channels -/

/-- A Carter channel. -/
def State.chan (s : State) (c : CoreId) (ch : Nat) : Chan := cellGet Chan.idle (s.core c).carter.chans ch

/-- Replaces a Carter channel. -/
def State.setChan (s : State) (c : CoreId) (ch : Nat) (k : Chan) : State :=
  s.modCarter c (fun r => { r with chans := cellPut Chan.idle r.chans ch k })

/-- The running descriptor changes. -/
def State.modRun (s : State) (c : CoreId) (ch : Nat) (f : DescRun → DescRun) : State :=
  let k := s.chan c ch
  s.setChan c ch { k with run := k.run.map f }

/-- Whether a request belongs to a channel. -/
def MemReq.ofChan (r : MemReq) (c : CoreId) (ch : Nat) : Bool :=
  match r.sender with
  | .carter d h _ _ => d == c && h.val == ch
  | .peer _ _ _ _ => false

/-- The segment a request of a Carter moves, and the offset of its first line. -/
def MemReq.segOff (r : MemReq) : Nat × Nat :=
  match r.sender with
  | .carter _ _ i off => (i, off)
  | .peer _ _ _ _ => (0, 0)

/-- Requests of a channel that still matter: neither given up nor outliving their descriptor. -/
def State.chanReqs (s : State) (c : CoreId) (ch : Nat) : List MemReq :=
  s.reqs.filter (fun r => r.ofChan c ch && !r.dead && !(s.core c).carter.late.any (fun e => e.1 == r.tag))

/-- A remote request whose packet has not been sent. -/
def MemReq.unsent (r : MemReq) : Bool := r.remote && r.parts.any (fun p => p.stage == .atGate)

/-- Tags of a core's pool in use (R378). -/
def State.coreTags (s : State) (c : CoreId) : Nat :=
  s.reqs.countP (fun r => match r.sender with | .carter d _ _ _ => d == c | .peer _ _ _ _ => false)

/-- Staging buffers in use (R359). -/
def State.coreBufs (s : State) (c : CoreId) : Nat :=
  ((s.core c).carter.chans.map (fun (e : Nat × Chan) => match e.2.run with
    | some d => d.chunks.length
    | none => 0)).foldl (· + ·) 0

/-- Bytes moved by one beat of a descriptor (R356, R360). -/
def DescRun.unit (d : DescRun) : Nat := if cdCsr d.desc then 4 else 64

/-- The segment that a channel reads next: the first that has not failed and is not read to its end. -/
def DescRun.readSeg (d : DescRun) : Option (Nat × Seg) :=
  (d.segs.zipIdx.find? (fun (e : Seg × Nat) => e.1.err == 0 && decide (e.1.rd < e.1.len))).map (fun e => (e.2, e.1))

/-- The chunk a channel reads next, by segment and number. -/
def DescRun.nextChunk (d : DescRun) : Option (Nat × Nat) := d.readSeg.map (fun e => (e.1, e.2.rd / 4096))

/-- Whether a descriptor holds the chunk it reads next. -/
def DescRun.holdsNext (d : DescRun) : Bool :=
  match d.nextChunk with
  | none => false
  | some (i, n) => d.chunks.any (fun e => e.1 == i && e.2.1 == n)

/-- A channel wants a staging buffer: its next chunk has none, it may start a chunk, and it holds fewer than MAXBUF
(R359, R361). -/
def State.wantsBuf (s : State) (c : CoreId) (ch : Nat) : Bool :=
  match (s.chan c ch).run with
  | none => false
  | some d =>
    let lim := min 64 (max 1 (s.rd Reg.CARTER_CH_CFG_MAXBUF c ch))
    d.isSetUp && d.code == 0 && d.nextChunk.isSome && !d.holdsNext && d.run && (cdPace d.desc == 0 || d.tested)
      && decide (d.chunks.length < lim)

/-- The channels of a core by falling PRIO, then by number (R359). -/
def State.byPrio (s : State) (c : CoreId) : List Nat :=
  [7, 6, 5, 4, 3, 2, 1, 0].flatMap (fun p => numsWhere 64 (fun ch => s.rd Reg.CARTER_CH_CFG_PRIO c ch == p))

/-- A channel takes a staging buffer for its next chunk. -/
def State.takeBuf (s : State) (c : CoreId) (ch : Nat) : State :=
  s.modRun c ch (fun d =>
    match d.nextChunk with
    | none => d
    | some (i, n) => { d with chunks := d.chunks ++ [(i, n, 0)], tested := false })

/-- Free staging buffers go to the channels that wait for one (R359). -/
def State.dealBufs (s : State) (c : CoreId) : State :=
  (s.byPrio c).foldl (fun (x : State) (ch : Nat) =>
    if x.wantsBuf c ch && decide (x.coreBufs c < 2048) then x.takeBuf c ch else x) s

/-! ## Errors and completions (R363..R365) -/

/-- A segment fails: it issues nothing more, its buffers go back, and its reads in flight no longer matter (R364). -/
def State.failSeg (s : State) (c : CoreId) (ch i code : Nat) : State :=
  let s1 := s.modRun c ch (fun d => { d with
    segs := d.segs.zipIdx.map (fun (e : Seg × Nat) =>
      if e.2 = i ∧ e.1.err = 0 then { e.1 with err := code, buf := [] } else e.1)
    chunks := d.chunks.filter (fun e => e.1 != i) })
  let here (r : MemReq) : Bool := r.ofChan c ch && r.segOff.1 == i && !r.dead
  let kept := s1.reqs.filter (fun r => !(here r && r.unsent))
  { s1 with reqs := kept.map (fun (r : MemReq) => if here r && !r.write then { r with dead := true } else r) }

/-- The code of a descriptor with its segments ended (R365). -/
def segsCode (segs : List Seg) : Nat :=
  let bad := segs.filter (fun (g : Seg) => g.err != 0)
  match bad with
  | [] => codeOk
  | g :: _ => if bad.length = segs.length then g.err else errPartial

/-- The completion bytes 48..63 (R353, R365). -/
def completionBytes (segs : List Seg) (code bytes : Nat) : List Byte :=
  let mask := (segs.zipIdx.map (fun (e : Seg × Nat) => if e.1.err = 0 then 2 ^ e.2 else 0)).foldl (· + ·) 0
  let first := segs.zipIdx.find? (fun (e : Seg × Nat) => e.1.err != 0)
  leBytes 8 mask ++ [BitVec.ofNat 8 code, BitVec.ofNat 8 (0x80 + (first.map (fun e => e.2)).getD 0),
    BitVec.ofNat 8 ((first.map (fun e => e.1.err)).getD 0), 0] ++ leBytes 4 bytes

/-- The signal of a completion (R363): the count, line 7, and the counter it raises. -/
def State.carterSignal (s : State) (c : CoreId) (ch : Nat) (d : Line) (code : Nat) : State :=
  let s1 := s.bump Reg.CARTER_CH_DONE_COUNT c ch 1
  let s2 := if cdIrq d || (s.on Reg.CARTER_CTRL_ERR_IRQ c 0 && decide (errAlign ≤ code)) then s1.setIrq c 7 else s1
  let s3 := if cdPub d && (code == codeOk || code == codeEmpty) then
      s2.setPub c (cdPubCtr d) (s2.rd Reg.PIPE_PUB_COUNT c (cdPubCtr d) + 1)
    else s2
  s3.wakeTasks c

/-- Writes a descriptor's completion bytes; DONE of its ring advances (R345, R363). -/
def State.carterWriteDone (s : State) (c : CoreId) (addr : Nat) (ring : Option (Nat × Nat)) (bytes : List Byte) : State :=
  let s1 := (s.linePut c.val addr 48 bytes).2
  match ring with
  | none => s1
  | some (k, i) => s1.ringDone c k i

/-- A CSTART that starts nothing (R349): the code goes into the descriptor's completion. -/
def State.carterRefuse (s : State) (c : CoreId) (off code : Nat) : State :=
  s.carterWriteDone c (granAddr c off) none (completionBytes [] code 0)

/-- CSTART at its W edge (R180, R349): the low six bits of the address are ignored. -/
def State.carterStart (s : State) (c : CoreId) (t : TaskId) (ch : ChanId) (addr : Word) : State :=
  let off := s.winBase c t + addr.toNat / 64 * 64
  if s.on Reg.CARTER_CH_CFG_SRC c ch then s.carterRefuse c off errBound
  else if s.on Reg.CARTER_CH_CTRL_DIS c ch then s.carterRefuse c off errDisabled
  else
    let k := s.chan c ch
    s.setChan c ch { k with queue := k.queue ++ [(off, s.winBase c t, s.winLen c t)] }

/-! ## Undefined bytes -/

/-- Free values over a local range of memory. -/
def State.freeRange (s : State) (a n : Nat) : State :=
  if n = 0 then s
  else
    let (v, s1) := s.draw (8 * n)
    s1.localWrite a (leBytes n v.toNat)

/-- Every destination byte of a disabled descriptor's segments holds a free value (R366); CSR words keep what was written. -/
def State.freeDests (s : State) (segs : List Seg) : State :=
  segs.foldl (fun (x : State) (g : Seg) => if g.dst.toNat < 0x60_0000_0000 then x.freeRange g.dst.toNat g.len else x) s

/-- Whether a PUT's write of a core to a ring has no response yet (R355). -/
def State.putOut (s : State) (c : CoreId) (ring : Nat) : Bool :=
  s.reqs.any (fun r => r.write && !r.dead && (match r.sender with
    | .carter d ch _ _ => d == c && ((s.core c).carter.late.any (fun e => e.1 == r.tag && e.2.2 == some ring)
        || (s.chan c ch).run.any (fun x => cdOp x.desc == 3 && cdDst x.desc == ring))
    | .peer _ _ _ _ => false))

/-- The slots of a disabled PUT hold free values (R355, R366): those it wrote, and the free ones that its other entries would have
taken; `next` is the index after its last write. -/
def State.freeSlots (s : State) (d : Line) (written : List Nat) (next : Nat) : State :=
  let r := ringId (cdDst d)
  let x := s.ringIdx r
  let ahead := (List.range (min (cdLen d / 64 - written.length) (x.size - idxSub next x.done))).map (fun i => s.slotOf r (next + i))
  (written ++ ahead).foldl (fun (y : State) (a : Nat) => y.freeRange a 64) s

/-! ## Disabling (R366) -/

/-- A descriptor ends with ERR_DISABLED: BYTES is a free value. `written` are the slots a PUT wrote, `out` whether its last write has
no response yet. -/
def State.disableDesc (s : State) (c : CoreId) (ch addr : Nat) (ring : Option (Nat × Nat)) (d : Line) (segs : List Seg)
    (written : List Nat) (out : Bool) : State :=
  let s1 := if cdOp d = 3 then s.freeSlots d written ((s.ringIdx (ringId (cdDst d))).tail + bit01 out) else s.freeDests segs
  let (bytes, s2) := s1.draw 32
  (s2.carterWriteDone c addr ring (completionBytes [] errDisabled bytes.toNat)).carterSignal c ch d errDisabled

/-- A queued descriptor ends with ERR_DISABLED. -/
def State.disableQueued (s : State) (c : CoreId) (ch : Nat) (q : Nat × Nat × Nat) : State :=
  let d := lineOf (s.granBytes c q.1 64)
  s.disableDesc c ch (granAddr c q.1) none d (s.cdCheck c ch q.2.1 q.2.2 d).2 [] false

/-- DIS of a channel becomes 1 (R366, R388): it stops, its descriptors end in order, and as a lock owner it dies. -/
def State.chanDisable (s : State) (c : CoreId) (ch : ChanId) : State :=
  let k := s.chan c ch
  let s1 := (s.put Reg.CARTER_CH_CTRL_DIS c ch 1).setChan c ch { Chan.idle with tag := k.tag }
  let left := s1.reqs.filter (fun r => !(r.ofChan c ch && r.unsent))
  let s2 := { s1 with reqs := left.map (fun (r : MemReq) => if r.ofChan c ch then { r with dead := true } else r) }
  let s3 := match k.run with
    | none => s2
    | some d =>
      let segs := if d.isSetUp then d.segs else (s2.cdCheck c ch d.winBase d.winLen d.desc).2
      let desc := if d.isSetUp || d.ring.isSome then d.desc else lineOf (s2.localBytes d.addr 64)
      s2.disableDesc c ch d.addr d.ring desc segs d.slots (cdOp desc == 3 && s.putOut c (cdDst desc))
  let s4 := k.queue.foldl (fun (x : State) (q : Nat × Nat × Nat) => x.disableQueued c ch q) s3
  let s5 := s4.dealBufs c
  if ch.val < 4 then s5.deathNotice (.chan c ch) else s5

/-- A write to DIS of a channel (R366). -/
def State.disWrite (s : State) (c : CoreId) (ch : ChanId) (v : Bool) : State :=
  if v then (if s.on Reg.CARTER_CH_CTRL_DIS c ch then s else s.chanDisable c ch)
  else s.put Reg.CARTER_CH_CTRL_DIS c ch 0

/-! ## Views (R367) -/

/-- Whether a channel's completion waits for write responses (R362). -/
def DescRun.waits (d : DescRun) (ch : Nat) : Bool := cdBar d.desc || decide (ch < 4)

/-- Whether every beat of a descriptor has issued: each segment failed, or read and written to its end. -/
def DescRun.moved (d : DescRun) : Bool :=
  d.segs.all (fun (g : Seg) => g.err != 0 || (decide (g.len ≤ g.rd) && decide (g.len ≤ g.wr)))

/-- CARTER_CH_STAT.STATE. -/
def State.chanState (s : State) (c : CoreId) (ch : Nat) : Nat :=
  let k := s.chan c ch
  if s.on Reg.CARTER_CH_CTRL_DIS c ch then 5
  else match k.run with
    | none => if k.queue.isEmpty then 0 else 1
    | some d =>
      if !d.isSetUp then 1
      else if d.moved then 4
      else if d.run then 2 else 3

/-- CARTER_CH_STAT as it reads. -/
def State.chanStat (s : State) (c : CoreId) (ch : Nat) : Nat :=
  let k := s.chan c ch
  let bufs := match k.run with | some d => d.chunks.length | none => 0
  s.chanState c ch + k.queue.length * 16 + bufs * 256 + k.tag.toNat * 65536

/-- CARTER_STAT.BUF_FREE as it reads. -/
def State.bufFree (s : State) (c : CoreId) : Nat := 2048 - s.coreBufs c

end Sys2Proof.Machine
end

