-- ==== Sys2Proof/Machine/Enum.lean ====
section
/-! DEFINITION. Enumeration and broadcasts (14 R405, R410..R414, R421): the walk, the spread of addresses, the neighbour
check, and the notices. -/

namespace Sys2Proof.Machine

/-- The codes of FAB_ENUM.STATE (R422). -/
def enumIdle : Nat := 0
def enumWalk : Nat := 1
def enumAssign : Nat := 2
def enumDone : Nat := 3
def enumFailed : Nat := 4
def enumConflict : Nat := 5

/-- FAB_ENUM.STATE. -/
def State.enumState (s : State) : Nat := s.rd Reg.FAB_ENUM_STATE 0 0

/-- Replaces FAB_ENUM.STATE. -/
def State.setEnum (s : State) (x : Nat) : State := s.put Reg.FAB_ENUM_STATE 0 0 x

/-- A root that has not given way to another (R410, R411). -/
def State.isRoot (s : State) : Bool := s.on Reg.FAB_CTRL_ROOT 0 0 && s.enumState != enumConflict

/-- This device's identity. -/
def State.deviceId (s : State) : BitVec 64 := s.csrGet Reg.FAB_DEVICE_ID 0 0

/-! ## The shape in force -/

/-- The shape: FAB_SHAPE once enumeration is done, else the planned one. -/
def State.shapeNow (s : State) : Nat :=
  if s.enumState = enumDone then (s.csrGet Reg.FAB_SHAPE 0 0).toNat else s.fab.shape.toNat

/-- The extent of an axis of a shape (R405, R422). -/
def shapeExtent (shape axis : Nat) : Nat := bitsOf shape (4 * axis) 4 + 1

/-- Whether an axis of a shape is a ring. -/
def shapeRing (shape axis : Nat) : Bool := bitsOf shape (12 + axis) 1 == 1

/-- The first coordinate of an axis (R405). -/
def coordBase (e : Nat) : Nat := if e = 16 then 0 else 1

/-- The coordinate after `c` in a direction, wrapped on an axis of extent `e`. -/
def coordStep (e c : Nat) (minus : Bool) : Nat :=
  let b := coordBase e
  b + (c + 16 * e - b + (if minus then e - 1 else 1)) % e

/-- An address with one coordinate replaced. -/
def setCoord (addr axis c : Nat) : Nat := setBits addr (4 * axis) 4 c

/-! ## CONTROL packets -/

/-- The port an AXIS and DIR name (R413). -/
def ctlPort (axis : Nat) (minus : Bool) : Nat := 2 * axis + bit01 minus

/-- Sends a CONTROL packet out of the port its AXIS and DIR name, where that port is up; it takes credits as any packet. -/
def State.sendCtl (s : State) (ctype axis : Nat) (minus : Bool) (arg : Nat) (line : Option (BitVec 64 × BitVec 16 × BitVec 8))
    (src : Nat) : State :=
  let p := ctlPort axis minus
  if s.portUp p && !s.fab.stopped then
    s.portPut { port := p, buf := 0, cost := if line.isSome then 2 else 1, fwd := false, arrived := none,
                out := .control p ctype minus arg line src }
  else s

/-- A CONTROL packet with a data line was consumed; one without (R413: HELLO, GOODBYE, ENUM_FAIL). -/
def State.ctlConsumed (s : State) (p : PortId) (line : Bool) : State := s.creditBack (some (p.val, 0)) (if line then 2 else 1)

/-! ## Broadcasts (R412) -/

/-- Whether a broadcast goes on from coordinate `c` in a direction: on a chain always (a missing link ends it), on a ring while
the next device lies on that side of the source. -/
def spreadsOn (shape axis origin c : Nat) (minus : Bool) : Bool :=
  let e := shapeExtent shape axis
  if shapeRing shape axis then
    let d := (coordStep e c minus + 16 * e - origin) % e
    d != 0 && (if minus then decide (e < 2 * d) else decide (2 * d ≤ e))
  else true

/-- A broadcast starts or goes on along the axes from `axis` up, both ways. -/
def State.spreadFrom (s : State) (ctype axis arg : Nat) (line : Option (BitVec 64 × BitVec 16 × BitVec 8)) (src : Nat) : State :=
  let sh := s.shapeNow
  ([0, 1, 2].filter (fun a => decide (axis ≤ a))).foldl (fun (x : State) (a : Nat) =>
    [false, true].foldl (fun (y : State) (m : Bool) =>
      if spreadsOn sh a (coord src a) (coord s.fabAddr a) m then y.sendCtl ctype a m arg line src else y) x) s

/-- This device's broadcast. -/
def State.broadcast (s : State) (ctype arg : Nat) (line : Option (BitVec 64 × BitVec 16 × BitVec 8)) : State :=
  s.spreadFrom ctype 0 arg line s.fabAddr

/-- A broadcast that arrived is passed on: an assigned device spreads it, one without an address passes it on by AXIS and DIR
(R410, R412). -/
def State.passBroadcast (s : State) (ctype : Nat) (k : Ctl) (line : Option (BitVec 64 × BitVec 16 × BitVec 8)) : State :=
  let a := k.axis.val
  let src := k.src.toNat
  if s.fabAddr = 0 then s.sendCtl ctype a k.minus k.arg.toNat line src
  else
    let s1 := if spreadsOn s.shapeNow a (coord src a) (coord s.fabAddr a) k.minus then
        s.sendCtl ctype a k.minus k.arg.toNat line src
      else s
    s1.spreadFrom ctype (a + 1) k.arg.toNat line src

/-! ## Failure (R411) -/

/-- The enumeration ends: the device returns to address 0x0000. -/
def State.enumStop (s : State) (port : Nat) : State :=
  let s1 := ((s.setEnum enumFailed).put Reg.FAB_ENUM_FAIL_PORT 0 0 port).put Reg.FAB_ADDR_ADDR 0 0 0
  { s1 with fab := { s1.fab with walk := none, heldAxis := none } }

/-- A device finds a failure: its status, the event and the broadcast. -/
def State.enumFault (s : State) (port step : Nat) : State :=
  let s1 := s.fabEvent 0xCE4 0 [port, step]
  (s1.broadcast 7 (port + step * 16) none).enumStop port

/-- A root meets a walk or ASSIGN of another root (R411): the lower FAB_DEVICE_ID continues. `true` when this device gives
way. -/
def State.rootMeets (s : State) (id : BitVec 64) : Bool × State :=
  if s.deviceId.toNat < id.toNat then (false, s)
  else
    let s1 := (s.setEnum enumConflict).fabEvent 0x0E5 0 [id.toNat % 2 ^ 32, id.toNat / 2 ^ 32]
    (true, ({ s1 with fab := { s1.fab with walk := none } } : State).put Reg.FAB_ADDR_ADDR 0 0 0)

/-! ## Assignment -/

/-- The data line of an ASSIGN. -/
def State.assignLine (s : State) (origin : Nat) : Option (BitVec 64 × BitVec 16 × BitVec 8) :=
  some (s.fab.rootId, s.fab.shape, BitVec.ofNat 8 origin)

/-- An ASSIGN to the neighbour of coordinate `c` in a direction, unless the ring is closed there (R413). -/
def State.assignNext (s : State) (axis : Nat) (minus : Bool) (addr origin : Nat) : State :=
  let sh := s.fab.shape.toNat
  let next := coordStep (shapeExtent sh axis) (coord addr axis) minus
  if shapeRing sh axis ∧ next = origin then s
  else s.sendCtl 3 axis minus (setCoord addr axis next) (s.assignLine origin) s.fabAddr

/-- The spread of the axes from `axis` up (R413): out of the plus port, and on a chain also out of the minus port. -/
def State.assignSpread (s : State) (axis : Nat) : State :=
  ([0, 1, 2].filter (fun a => decide (axis ≤ a))).foldl (fun (x : State) (a : Nat) =>
    let o := coord s.fabAddr a
    let x1 := x.assignNext a false s.fabAddr o
    if shapeRing s.fab.shape.toNat a then x1 else x1.assignNext a true s.fabAddr o) s

/-- Whether the device on port `p` holds the coordinates that it must (R410, step 4). -/
def State.neighbourOk (s : State) (p nb : Nat) : Bool :=
  let a := p / 2
  let sh := s.shapeNow
  let e := shapeExtent sh a
  let c := coord s.fabAddr a
  let minus := decide (p % 2 = 1)
  let inside := shapeRing sh a || (if minus then decide (coordBase e < c) else decide (c + 1 < coordBase e + e))
  inside && decide (nb = setCoord s.fabAddr a (coordStep e c minus))

/-- The check of one neighbour (R410, step 4). -/
def State.checkPort (s : State) (p : Nat) : State :=
  let nb := s.rd Reg.FAB_PORT_STAT_NEIGHBOUR 0 p
  if s.fabAddr ≠ 0 ∧ nb ≠ 0 ∧ ¬ s.neighbourOk p nb then s.enumFault p 4 else s

/-- HELLO out of every port that is up, and the check of the neighbours already heard (R410, R413). -/
def State.helloAll (s : State) : State :=
  let ports := (List.range 6).filter s.portUp
  let s1 := ports.foldl (fun (x : State) (p : Nat) => x.sendCtl 5 (p / 2) (p % 2 == 1) s.fabAddr none s.fabAddr) s
  ports.foldl (fun (x : State) (p : Nat) => x.checkPort p) s1

/-- An address is taken (R410, R413): the device's own, along axis `held` (none at the root), which it spreads on. -/
def State.takeAddress (s : State) (addr : Nat) (held : Option Nat) : State :=
  let s1 := (s.put Reg.FAB_ADDR_ADDR 0 0 addr).setEnum enumAssign
  { s1 with fab := { s1.fab with heldAxis := held } }

/-! ## The root's walk (R410, R413) -/

/-- The shape that the counts of the three axes give. -/
def planShape (counts : Vector (Nat × Nat × Bool) 3) : Nat :=
  let e (a : Fin 3) : Nat := (counts.get a).1 + (counts.get a).2.1
  let r (a : Fin 3) : Nat := bit01 (counts.get a).2.2
  e 0 % 16 + e 1 % 16 * 16 + e 2 % 16 * 256 + r 0 * 0x1000 + r 1 * 0x2000 + r 2 * 0x4000

/-- The root's own coordinate on an axis (R410, step 2). -/
def rootCoord (c : Nat × Nat × Bool) : Nat := coordBase (1 + c.1 + c.2.1) + (if c.2.2 then 0 else c.2.1)

/-- The walks are over: the root takes its address and assigns, or fails with all extents at 16. The port of that failure is a
free value. -/
def State.rootAssign (s : State) : State :=
  let n (a : Fin 3) : Nat × Nat × Bool := s.fab.counts.get a
  let s1 := { s with fab := { s.fab with walk := none, rootId := s.deviceId,
                                         shape := BitVec.ofNat 16 (planShape s.fab.counts) } }
  if (List.finRange 3).all (fun (a : Fin 3) => decide (1 + (n a).1 + (n a).2.1 = 16)) then
    let (port, s2) := s1.draw 3
    s2.enumFault port.toNat 2
  else
    let addr := rootCoord (n 0) % 16 + rootCoord (n 1) % 16 * 16 + rootCoord (n 2) % 16 * 256
    ((s1.takeAddress addr none).assignSpread 0).helloAll

/-- The count of one side of an axis. -/
def State.setCount (s : State) (a : Fin 3) (x : Nat × Nat × Bool) : State :=
  { s with fab := { s.fab with counts := s.fab.counts.set a x } }

/-- A WALK out of a side of an axis, when that port is up. -/
def State.sendWalk (s : State) (a : Nat) (minus : Bool) : Option State :=
  if s.portUp (ctlPort a minus) then
    let s1 := { s with fab := { s.fab with walk := some (a, minus) } }
    some (s1.sendCtl 1 a minus 0 (some (s.deviceId, 0, 0)) 0)
  else none

/-- The root walks the axes from `axis` up until it awaits an answer (R410, step 1); a side without a link counts none. -/
def State.walkAxes (s : State) : List (Fin 3) → State
  | [] => s.rootAssign
  | a :: rest =>
    let s0 := s.setCount a (0, 0, false)
    match s0.sendWalk a false with
    | some s1 => s1
    | none =>
      match s0.sendWalk a true with
      | some s1 => s1
      | none => s0.walkAxes rest

/-- The axes after `a`. -/
def axesAfter (a : Nat) : List (Fin 3) := (List.finRange 3).filter (fun (b : Fin 3) => decide (a < b.val))

/-- One side of the walk under way is counted; the plus side of a chain is followed by the minus side. -/
def State.walkAnswer (s : State) (a : Fin 3) (minus : Bool) (n : Nat) (ring : Bool) : State :=
  let old := s.fab.counts.get a
  if minus then (s.setCount a (old.1, n, false)).walkAxes (axesAfter a)
  else
    let s1 := s.setCount a (n, 0, ring)
    if ring then s1.walkAxes (axesAfter a)
    else
      match s1.sendWalk a true with
      | some s2 => s2
      | none => s1.walkAxes (axesAfter a)

/-- The root starts: every device returns to 0x0000 before the walk (R410, R411). -/
def State.enumBegin (s : State) : State :=
  let s1 := (s.setEnum enumWalk).put Reg.FAB_ADDR_ADDR 0 0 0
  let s2 := { s1 with fab := { s1.fab with counts := Vector.replicate 3 (0, 0, false), heldAxis := none, shape := 0 } }
  s2.walkAxes (List.finRange 3)

/-! ## Rows -/

/-- ENUM_START (R410): the root's first enumeration. -/
def execEnumStart (s : State) : Res :=
  .next (if s.isRoot && s.enumState == enumIdle && s.on Reg.FAB_CTRL_EN 0 0 && !s.fab.stopped then s.enumBegin else s)

/-- Whether no window and no fabric ring is in use (R411). -/
def State.fabQuiet (s : State) : Bool :=
  (List.range 256).all (fun w => s.rd Reg.FAB_WIN_STAT_STATE 0 w == 0)
    && (List.range 8192).all (fun f => s.rd Reg.FAB_RING_TAIL_TAIL 0 f == s.rd Reg.FAB_RING_DONE_DONE 0 f)

/-- A write of 1 to GO (R410, R411): for the root alone. -/
def State.enumGo (s : State) : State :=
  if s.isRoot && !s.fab.stopped then
    if s.fabQuiet then s.enumBegin else s.put Reg.FAB_STAT_ENUM_ERR 0 0 1
  else s

/-- FAB_ENUM_GO (R411). -/
def execFabEnumGo (s : State) : Res := .next s.enumGo

/-- A WALK at a device that is no root: passed on, or answered where its port has no link (R413). -/
def State.walkOn (s : State) (k : Ctl) : State :=
  let s1 := s.put Reg.FAB_ADDR_ADDR 0 0 0
  let line := some (k.id, k.shape, k.origin)
  if s1.portUp (ctlPort k.axis k.minus) then s1.sendCtl 1 k.axis k.minus (k.arg.toNat + 1) line k.src.toNat
  else s1.sendCtl 2 k.axis (!k.minus) (k.arg.toNat + 1) line k.src.toNat

/-- WALK (R413). -/
def execWalk (p : PortId) (k : Ctl) (s : State) : Res :=
  .next (if s.accepts p then
      let s0 := s.ctlConsumed p true
      if s0.isRoot then
        if k.id = s0.deviceId then
          if s0.fab.walk = some (k.axis.val, k.minus) then s0.walkAnswer k.axis false k.arg.toNat true else s0
        else
          let (gives, s1) := s0.rootMeets k.id
          if gives then s1.walkOn k else s1
      else s0.walkOn k
    else s)

/-- WALK_END (R413). It travels with DIR reversed, so it answers the walk of the other side. -/
def execWalkEnd (p : PortId) (k : Ctl) (s : State) : Res :=
  .next (if s.accepts p then
      let s0 := s.ctlConsumed p true
      if s0.isRoot then
        if s0.fab.walk = some (k.axis.val, !k.minus) ∧ k.id = s0.deviceId then
          s0.walkAnswer k.axis (!k.minus) k.arg.toNat false
        else s0
      else s0.sendCtl 2 k.axis k.minus k.arg.toNat (some (k.id, k.shape, k.origin)) k.src.toNat
    else s)

/-- An ASSIGN at a device that takes or holds an address (R411, R413). -/
def State.assigned (s : State) (p : PortId) (k : Ctl) : State :=
  let addr := k.arg.toNat
  if s.fabAddr = 0 then
    let s1 := { s with fab := { s.fab with rootId := k.id, shape := k.shape } }
    let s2 := s1.takeAddress addr (some k.axis.val)
    let s3 := s2.assignNext k.axis k.minus addr k.origin.toNat
    (s3.assignSpread (k.axis.val + 1)).helloAll
  else if s.fabAddr = addr then s
  else s.enumFault p 3

/-- ASSIGN (R413). -/
def execAssign (p : PortId) (k : Ctl) (s : State) : Res :=
  .next (if s.accepts p then
      let s0 := s.ctlConsumed p true
      if s0.isRoot && k.id != s0.deviceId then
        let (gives, s1) := s0.rootMeets k.id
        if gives then s1.assigned p k else s1
      else s0.assigned p k
    else s)

/-- HELLO (R410, R413). -/
def execHello (p : PortId) (k : Ctl) (s : State) : Res :=
  .next (if s.accepts p then ((s.ctlConsumed p false).put Reg.FAB_PORT_STAT_NEIGHBOUR 0 p k.arg.toNat).checkPort p else s)

/-- A device writes FAB_SHAPE (R410, step 5, R413); a completed enumeration ends every declaration of a lost peer (R421). -/
def State.enumFinish (s : State) (shape : Nat) : State :=
  let s1 := (s.csrPut Reg.FAB_SHAPE 0 0 (BitVec.ofNat 64 (shape % 0x8000))).setEnum enumDone
  { s1 with fab := { s1.fab with lost := [] } }

/-- ENUM_DONE (R410, R413): the root's own notice when `p` names no port, else one that arrived. -/
def execEnumDone (p : Option PortId) (k : Ctl) (s : State) : Res :=
  .next (match p with
    | none =>
      if s.isRoot && s.enumState == enumAssign && !s.fab.stopped then
        (s.enumFinish s.fab.shape.toNat).broadcast 4 0 (some (s.fab.rootId, s.fab.shape, 0))
      else s
    | some p =>
      if s.accepts p then
        let s0 := s.ctlConsumed p true
        if s0.fabAddr = 0 then s0.passBroadcast 4 k (some (k.id, k.shape, k.origin))
        else (s0.enumFinish k.shape.toNat).passBroadcast 4 k (some (k.id, k.shape, k.origin))
      else s)

/-- ENUM_FAIL (R411, R413): a failure this device found itself when `p` names no port, else the notice of another. -/
def execEnumFail (p : Option PortId) (k : Ctl) (s : State) : Res :=
  .next (match p with
    | none => if s.enumState = enumWalk ∨ s.enumState = enumAssign then
        s.enumFault (bitsOf k.arg.toNat 0 3) (bitsOf k.arg.toNat 4 3) else s
    | some p =>
      if s.accepts p then ((s.ctlConsumed p false).passBroadcast 7 k none).enumStop (bitsOf k.arg.toNat 0 3) else s)

/-- GOODBYE (R421). -/
def execGoodbye (p : PortId) (k : Ctl) (s : State) : Res :=
  .next (if s.accepts p then ((s.ctlConsumed p false).passBroadcast 6 k none).peerLost k.src else s)

/-- This device's GOODBYE, before it resets or its Drover stops (R421). -/
def State.sayGoodbye (s : State) : State := if s.fabAddr = 0 then s else s.broadcast 6 0 none

/-- A vote over the fabric address (`none`) or a route entry finds three differing copies (R414). -/
def State.voteFail (s : State) (route : Option Nat) : State :=
  match route with
  | none =>
    let s1 := (s.fabEvent 0xCE6 0 [0]).sayGoodbye
    { s1 with fab := { s1.fab with stopped := true } }
  | some d =>
    let s1 := s.fabEvent 0xCE6 0 [1, d]
    { s1 with fab := { s1.fab with badRoutes := if s.fab.badRoutes.contains d then s.fab.badRoutes else s.fab.badRoutes ++ [d] } }

/-- FAB_VOTE_FAIL (R414). -/
def execFabVoteFail (route : Option (Fin 4096)) (s : State) : Res := .next (s.voteFail (route.map (·.val)))

end Sys2Proof.Machine
end

