-- ==== Sys2Proof/Machine/Ledger.lean ====
section
/-! DEFINITION. The event arbiter, the Ledger and the flash it spills to (15 R437..R439; 16 R447, R448; 18 R502..R508, R510):
records, the journal, the copy to the host ring, pages, and the rows EVENT_GRANT, LEDGER_COPY, LEDGER_SPILL and LEDGER_DUMP. -/

namespace Sys2Proof.Machine

/-! ## The flash (R447) -/

/-- What an erased byte of the flash reads as (log 6). -/
def flashBlank : Byte := 0xFF

/-- Bytes of the flash. -/
def State.flashBytes (s : State) (a n : Nat) : List Byte := bytesGet flashBlank s.flash a n

/-- Erases a 64 KiB sector (R447). -/
def State.flashErase (s : State) (a : Nat) : State :=
  { s with flash := cellClear s.flash (a / 65536 * 65536) (a / 65536 * 65536 + 65536) }

/-- Programs bytes from `a` up (R447): an erased byte takes its value; what a byte that is not erased then holds is open. -/
def State.flashProgram (s : State) (a : Nat) : List Byte → State
  | [] => s
  | b :: bs =>
    if cellGet flashBlank s.flash a = flashBlank then
      State.flashProgram { s with flash := cellPut flashBlank s.flash a b } (a + 1) bs
    else
      let (x, s1) := s.draw 8
      State.flashProgram { s1 with flash := cellPut flashBlank s1.flash a x } (a + 1) bs

/-- The areas of R447. -/
def layoutBase : Nat := 0x0000_0000
def cfgBase : Nat := 0x0001_0000
def fcalBase : Nat := 0x0004_0000
def ucalBase : Nat := 0x0005_0000
def xmssBase : Nat := 0x0007_0000
def imageABase : Nat := 0x0010_0000
def imageBBase : Nat := 0x0090_0000
def imageSize : Nat := 0x0080_0000
def ledgerBase : Nat := 0x0110_0000

/-- Pages of the LEDGER area (R506, R510). -/
def ledgerPages : Nat := 192512

/-- The pages of the flash, of 256 B from `base` up and at most `n`, that hold any byte that is not erased. -/
def State.pagesIn (s : State) (base n : Nat) : List Nat :=
  ((s.flash.filter (fun c => decide (base ≤ c.1) && decide (c.1 < base + n * 256))).map (fun c => (c.1 - base) / 256)).eraseDups

/-! ## Records (R438, R502) -/

/-- The severity of an event (R502). -/
def evSev (code : Nat) : Nat := bitsOf code 10 2

/-- The record of an event (R438). -/
def recordLine (seq code source dom tick : Nat) (args : List Nat) (nc : Nat) : Line :=
  lineOf (leBytes 8 seq ++ leBytes 2 code ++ leBytes 2 source ++ leBytes 4 dom ++ leBytes 8 tick
    ++ (List.range 8).flatMap (fun i => leBytes 4 (args.getD i 0)) ++ leBytes 8 nc)

/-- The LEDGER_GAP record of `n` records missing from `first` on (R439). -/
def State.gapLine (s : State) (first n : Nat) : Line :=
  recordLine first 0x968 (12 * 1024) 1 (s.tick 1) [first % 2 ^ 32, first / 2 ^ 32, n % 2 ^ 32, n / 2 ^ 32] (s.tick 1)

/-- Whether a record needs a spill (R504). -/
def State.needsSpill (s : State) (r : Record) : Bool := decide (1 ≤ r.sev) || s.on Reg.LEDGER_CFG_SPILL_INFO 0 0

/-- Whether a record may leave the ring (R504). -/
def State.mayGo (s : State) (r : Record) : Bool :=
  (decide (r.seq < s.ledger.copyNext) || !s.on Reg.HOST_EVT_CFG_EN 0 0)
    && (decide (r.seq < s.ledger.spillNext) || !s.needsSpill r)

/-- Records that nothing needs leave the ring (R504). -/
def State.ledgerPrune (s : State) : State :=
  { s with ledger := { s.ledger with ring := s.ledger.ring.filter (fun r => !s.mayGo r) } }

/-- Adds a record to the runs overwritten before their spill. -/
def gapAdd (gs : List (Nat × Nat)) (seq : Nat) : List (Nat × Nat) :=
  match gs.getLast? with
  | some (f, n) => if f + n = seq then gs.dropLast ++ [(f, n + 1)] else gs ++ [(seq, 1)]
  | none => [(seq, 1)]

/-- A full ring of 8,192 records loses its oldest (R504). -/
def State.ledgerDrop (s : State) : State :=
  match s.ledger.ring with
  | [] => s
  | r :: rest =>
    if s.ledger.ring.length < 8192 then s
    else
      let late := s.needsSpill r && decide (s.ledger.spillNext ≤ r.seq)
      ({ s with ledger := { s.ledger with
          ring := rest, gaps := if late then gapAdd s.ledger.gaps r.seq else s.ledger.gaps } }).bump Reg.LEDGER_LOST_COUNT 0 0 1

/-- A new record enters the ring (R504). -/
def State.ledgerAdd (s : State) (r : Record) : State :=
  let s1 := s.ledgerPrune.ledgerDrop
  { s1 with ledger := { s1.ledger with ring := s1.ledger.ring ++ [r] } }

/-! ## The journal (R500, R505) -/

/-- The bits of the RETIRE bank (R469, R508; PRESUMED: the banks follow each other in the order R508 names them; log 26). -/
def retireCore (c : Nat) : Nat := c
def retireDram (c : Nat) : Nat := 6 + c
def retirePort (p : Nat) : Nat := 14 + p
def retireLane (p l : Nat) : Nat := 20 + p * 4 + l
def retireConnBit (n : Nat) : Nat := 44 + n

/-- What the journal records of an event, if it tells a retirement or a repair (R500). -/
def State.journalKind (s : State) (e : Ev) : Option JKind :=
  let a (i : Nat) : Nat := e.args.getD i 0
  match e.code with
  | 0xC09 => some (.retire (retireCore (a 0)))
  | 0xCA5 => some (.retire (retireDram (a 0)))
  | 0x403 => some (.repair (e.source / 1024 - 1) (a 0) (a 1) (a 2))
  | 0x4A7 => some (.dramRow (a 0) (a 1))
  | 0x4E1 => some (.retire (retireLane (a 0) (a 1)))
  | 0xCE2 => if (s.rd Reg.GLOBAL_UNITS_PORT_OK 0 0).testBit (a 0) then none else some (.retire (retirePort (a 0)))
  | 0xC45 => some (.retire (retireConnBit (a 0)))
  | _ => none

/-- An entry joins the journal of 512, which holds each retirement and repair once (R505; log 26). -/
def State.journalAdd (s : State) (k : Option JKind) (line : Line) : State :=
  match k with
  | none => s
  | some k =>
    if s.ledger.journal.any (fun j => j.kind == k) || decide (512 ≤ s.ledger.journal.length) then s
    else
      let j : JEntry := { kind := k, line := line, spilled := false, fused := false }
      { s with ledger := { s.ledger with journal := s.ledger.journal ++ [j] } }

/-- Whether an entry is to be fused (R505): a retirement, or a repair while the REPAIR bank has room. -/
def State.fusable (s : State) (k : JKind) : Bool :=
  match k with
  | .retire _ => true
  | .repair _ _ _ _ => decide (s.sec.fuses.repair.length < 2048)
  | .dramRow _ _ => false

/-- Entries spilled, and fused where they are to be, leave the journal (R505). -/
def State.journalPrune (s : State) : State :=
  { s with ledger := { s.ledger with
      journal := s.ledger.journal.filter (fun j => !(j.spilled && (j.fused || !s.fusable j.kind))) } }

/-- The unfused entries (R510, UNFUSED). -/
def State.unfused (s : State) : Nat := s.ledger.journal.countP (fun j => !j.fused && s.fusable j.kind)

/-! ## EVENT_GRANT (R437) -/

/-- An event is granted: it takes the next EVSEQ, and its record enters the Ledger (R437, R438, R504, R505). -/
def State.grantEvent (s : State) (e : Ev) : State :=
  let seq := s.ledger.next
  let line := recordLine seq e.code e.source e.dom e.tick e.args (s.tick 1)
  let s1 := ({ s with events := s.events.erase e, ledger := { s.ledger with next := seq + 1 } } : State).ledgerAdd
    { seq := seq, sev := evSev e.code, line := line }
  s1.journalAdd (s1.journalKind e) line

/-- Whether input `i` of the event arbiter has an event; before EVSEQ 0 is given, only BOOT_RESET's input has (R437). -/
def State.eventAt (s : State) (i : Nat) : Bool :=
  s.events.any (fun e => e.input == i) && (s.ledger.next != 0 || i == 6)

/-- The way an event takes to the arbiter, by its SOURCE: a DRAM channel and a fabric port have crossings of their own (R17, R19). -/
def eventPath (source : Nat) : Nat := if source / 1024 = 7 ∨ source / 1024 = 8 then source else source / 1024 * 1024

/-- The event that stands first at input `i` of the arbiter (R19, R437): events that take one way arrive in order; of several ways, the
one that the SOURCE `first` takes has its event there first, where it has one at this input. -/
def State.frontEvent (s : State) (i first : Nat) : Option Ev :=
  let here := s.events.filter (fun e => e.input == i)
  match here with
  | [] => none
  | [e] => some e
  | e :: _ => some ((here.find? (fun e => eventPath e.source == eventPath first)).getD e)

/-- EVENT_GRANT (R19, R437). Which way's event was the first to become present at the winning input is open (log 26). -/
def execEventGrant (s : State) : Res :=
  .next (if s.ledger.started then
      let (first, s0) := s.draw 16
      let (w, s1) := s0.gateDecide 26 9 false s0.eventAt
      match w with
      | none => s1
      | some i =>
        match s1.frontEvent i first.toNat with
        | none => s1
        | some e => s1.grantEvent e
    else s)

/-! ## LEDGER_COPY (R439) -/

/-- The next line to copy and the EVSEQ after it (R439): a record, or a gap up to the oldest record still held. -/
def State.copyLine (s : State) : Line × Nat :=
  let n := s.ledger.copyNext
  match s.ledger.ring.find? (fun r => decide (n ≤ r.seq)) with
  | some r => if r.seq = n then (r.line, n + 1) else (s.gapLine n (r.seq - n), r.seq)
  | none => (s.gapLine n (s.ledger.next - n), s.ledger.next)

/-- LEDGER_COPY (R439): into the next slot of the host event ring, whose TAIL then advances. -/
def execLedgerCopy (s : State) : Res :=
  let r : RingId := .host (s.rd Reg.HOST_EVT_CFG_RING 0 0)
  let x := s.ringIdx r
  .next (match if s.on Reg.HOST_EVT_CFG_EN 0 0 && decide (s.ledger.copyNext < s.ledger.next) && decide (1 ≤ x.free) then
        s.useGrants 8 (s.transfers true (s.slotOf r x.tail) 64) else none with
    | none => s
    | some s0 =>
      let (line, n) := s.copyLine
      let s1 := (s0.linesPut 8 (s.slotOf r x.tail) (lineBytes line)).2.put Reg.HOST_RING_TAIL_TAIL 0
        (s.rd Reg.HOST_EVT_CFG_RING 0 0) ((x.tail + 1) % 2 ^ 32)
      ({ s1 with ledger := { s1.ledger with copyNext := n } } : State).ledgerPrune)

/-! ## LEDGER_SPILL (R505, R506) -/

/-- The records the next page takes beside `k` journal entries: gaps first, which are older than every record held. -/
def State.spillRecords (s : State) (k : Nat) : List Line × List (Nat × Nat) × Nat :=
  let gs := s.ledger.gaps.take (3 - k)
  let rs := (s.ledger.ring.filter (fun r => s.needsSpill r && decide (s.ledger.spillNext ≤ r.seq))).take (3 - k - gs.length)
  (gs.map (fun g => s.gapLine g.1 g.2) ++ rs.map (fun r => r.line), s.ledger.gaps.drop (3 - k),
    match rs.getLast? with
    | some r => r.seq + 1
    | none => s.ledger.spillNext)

/-- Fills a page's records up to three with free values (R506 gives a page three records and none for a missing one). -/
def State.padLines (s : State) (ls : List Line) : Nat → List Line × State
  | 0 => (ls, s)
  | n + 1 =>
    if 3 ≤ ls.length then (ls, s)
    else
      let (x, s1) := s.draw 512
      State.padLines s1 (ls ++ [x]) n

/-- A page of the LEDGER area (R506). -/
def pageBytes (ls : List Line) (boot pseq kind : Nat) : List Byte :=
  let b := ls.flatMap lineBytes ++ leBytes 4 0x4C45_4447 ++ leBytes 4 boot ++ leBytes 8 pseq ++ [BitVec.ofNat 8 kind]
    ++ List.replicate 43 0
  b ++ leBytes 4 (crc32c b)

/-- Marks the first `n` entries not yet spilled. -/
def markSpilled : Nat → List JEntry → List JEntry
  | 0, js => js
  | _, [] => []
  | n + 1, j :: js => if j.spilled then j :: markSpilled (n + 1) js else { j with spilled := true } :: markSpilled n js

/-- Writes the next page, its sector erased first where the page is the sector's first (R506). -/
def State.pageWrite (s : State) (ls : List Line) (kind : Nat) : State :=
  let (full, s1) := s.padLines ls 3
  let p := s.ledger.pseq
  let a := ledgerBase + p % ledgerPages * 256
  let s2 := if p % 256 = 0 then s1.flashErase a else s1
  let s3 := s2.flashProgram a (pageBytes full s.ledger.boot p kind)
  { s3 with ledger := { s3.ledger with pseq := p + 1 } }

/-- LEDGER_SPILL (R506): journal entries go ahead of ring records. The hold-up checks of its flash commands have passed
(R465; log 26). -/
def execLedgerSpill (s : State) : Res :=
  let js := (s.ledger.journal.filter (fun j => !j.spilled)).take 3
  let (rs, gaps, nx) := s.spillRecords js.length
  .next (if s.ledger.started && !(js.isEmpty && rs.isEmpty) then
      let s1 := s.pageWrite (js.map (fun j => j.line) ++ rs) (2 ^ js.length - 1)
      let l := { s1.ledger with journal := markSpilled js.length s1.ledger.journal, gaps := gaps, spillNext := nx }
      ({ s1 with ledger := l } : State).journalPrune.ledgerPrune
    else s)

/-! ## LEDGER_DUMP (R510) -/

/-- A write of GO to LEDGER_DUMP (R510): the pages are copied as stored, or the range or destination is refused. -/
def State.ledgerDump (s : State) (first count : Nat) : State :=
  let a := s.rd Reg.LEDGER_DUMP_ADDR_ADDR 0 0 * 64
  if count = 0 ∨ ledgerPages < first + count ∨ ¬ s.rangeOk a (count * 256) then
    s.put Reg.LEDGER_STAT_DUMP_CODE 0 0 errBound
  else
    let (code, s1) := s.linesPut 9 a (s.flashBytes (ledgerBase + first * 256) (count * 256))
    s1.put Reg.LEDGER_STAT_DUMP_CODE 0 0 code

/-- LEDGER_DUMP (R510). -/
def execLedgerDump (first : BitVec 18) (count : BitVec 12) (s : State) : Res :=
  .next (s.ledgerDump first.toNat count.toNat)

end Sys2Proof.Machine
end

