-- ==== Sys2Proof/Machine/Mgmt.lean ====
section
/-! DEFINITION. The management controller's resets, hold-up checks and flash stores (16 R444..R468; 19 R521..R523): shared
operations, and the rows of resets, rails and stores. -/

namespace Sys2Proof.Machine

/-- An event of the MGMT block (R437 input 6). -/
def State.mgmtEvent (s : State) (code : Nat) (args : List Nat) : State := s.raise code 15 0 6 6 args

/-- The phase that start-up runs (R445). -/
def State.phase (s : State) : Nat := s.rd Reg.MGMT_BOOT_STAT_PHASE 0 0

/-- Whether management firmware runs: from phase CFG on (R445). -/
def State.fwRuns (s : State) : Bool := decide (5 ≤ s.phase)

/-- Whether the device is held in reset (R444, R522, R532), or its input supply has failed (R523). -/
def State.held (s : State) : Bool :=
  s.mgmt.resetLow || !s.mgmt.railLow.isEmpty || s.mgmt.tripped || s.mgmt.supplyFailed

/-- The life-cycle state in force: the voted shadow (R460, R474). -/
def State.lcState (s : State) : Nat := s.rd Reg.SEC_LC_SHADOW_STATE 0 0
def lcBlank : Nat := 0
def lcProvision : Nat := 1
def lcTest : Nat := 2
def lcDeployed : Nat := 3
def lcReturned : Nat := 4
def lcEnded : Nat := 5

/-- Whether the life-cycle shadow's copies all differ (R461). -/
def State.lcFailed (s : State) : Bool := s.on Reg.MGMT_VOTE_STAT_LC_FAIL 0 0

/-! ## Reset (R444, R446, R452, R521..R523, R532) -/

/-- A new nonce for return authorisations (R477). -/
def State.newNonce (s : State) : State :=
  let (n, s1) := s.draw 64
  s1.csrPut Reg.SEC_LC_NONCE 0 0 n

/-- Start-up begins, unless something still holds the device in reset (R445). -/
def State.startBoot (s : State) : State :=
  if s.held then s else s.newNonce.put Reg.MGMT_BOOT_STAT_PHASE 0 0 1

/-- What every reset keeps (log 6, 27): the flash, the fuses, the straps, what holds the device, and what stands outside it. -/
def State.wiped (s : State) : State :=
  let m := { Mgmt.reset with resetLow := s.mgmt.resetLow, railLow := s.mgmt.railLow, tripped := s.mgmt.tripped,
                             supplyFailed := s.mgmt.supplyFailed }
  let s1 := { State.reset with
    flash := s.flash, sec := { Sec.reset with fuses := s.sec.fuses }, mgmt := m, idle := s.idle, draws := s.draws,
    outbox := s.outbox, pending := s.pending }
  let s2 := s1.csrPut Reg.MGMT_STRAP 0 0 (s.csrGet Reg.MGMT_STRAP 0 0)
  s2.put Reg.FAB_CTRL_ROOT 0 0 (s.rd Reg.FAB_CTRL_ROOT 0 0)

/-- A device reset with its cause: 1 RESET_N, 2 watchdog, 3 MGMT_RESET (R446, R452). -/
def State.deviceReset (s : State) (cause : Nat) : State :=
  let s1 := ((s.wiped.put Reg.MGMT_RESET_CAUSE_CAUSE 0 0 cause).put Reg.MGMT_RESET_CAUSE_IMAGE 0 0
    (s.rd Reg.MGMT_BOOT_STAT_IMAGE 0 0)).put Reg.MGMT_RESET_CAUSE_CONFIRMED 0 0 (s.rd Reg.MGMT_BOOT_STAT_CONFIRMED 0 0)
  s1.startBoot

/-- A power-on reset: MGMT_RESET_CAUSE reads 0 after it (R446, R522). -/
def State.powerOnReset (s : State) : State := s.wiped.startBoot

/-- The reset that firmware performs for MGMT_RESET.GO (R446), after the GOODBYE of R421. -/
def State.mgmtReset (s : State) : State := s.sayGoodbye.deviceReset 3

/-- RESET_RELEASE (R444, R445, R525): the straps are sampled, and start-up begins. -/
def execResetRelease (rootEn smb1 smb0 : Bool) (s : State) : Res :=
  .next (if s.mgmt.resetLow then
      let s1 := ({ s with mgmt := { s.mgmt with resetLow := false } } : State).put Reg.MGMT_STRAP_ROOT_EN 0 0 (bit01 rootEn)
      let s2 := (s1.put Reg.MGMT_STRAP_SMB_ADDR 0 0 (2 * bit01 smb1 + bit01 smb0)).put Reg.FAB_CTRL_ROOT 0 0 (bit01 rootEn)
      s2.startBoot
    else s)

/-- RESET_N_FALL (R521): the device is reset, and the DRAM's rail enables go low in order. The supply failure it may follow is
over with it (R523). -/
def execResetNFall (s : State) : Res :=
  .next (if s.mgmt.resetLow then s
    else
      let s1 := (s.emit (.pin "DRAM_VDDQ_EN" false)).emit (.pin "DRAM_VPP_EN" false)
      ({ s1 with mgmt := { s1.mgmt with resetLow := true, supplyFailed := false } } : State).deviceReset 1)

/-- WATCHDOG_EXPIRY (R452): it runs from phase CFG; firmware services it while start-up waits for the host (R455). -/
def execWatchdogExpiry (s : State) : Res :=
  .next (if s.fwRuns && !s.mgmt.waiting && !s.held then s.deviceReset 2 else s)

/-- A write of 1 to MGMT_RESET.GO, which firmware performs (R446). -/
def State.resetGo (s : State) : State := if s.fwRuns && !s.held then s.mgmtReset else s

/-- MGMT_RESET_GO (R446). -/
def execMgmtResetGo (s : State) : Res := .next s.resetGo

/-- SUPPLY_FAIL (R523): core state, Granary and DRAM contents are lost, and every link goes down. -/
def execSupplyFail (s : State) : Res :=
  .next (if s.held then s
    else
      let s1 := { s with
        csr := cellClear s.csr 0x0100_0000 0x0160_0000, shadow := cellClear s.shadow 0x0100_0000 0x0160_0000,
        cores := Vector.replicate 6 Core.reset, dram := { s.dram with bytes := [], poison := [] }, reqs := [], msgs := [],
        fab := { s.fab with outQ := [] }, mgmt := { s.mgmt with supplyFailed := true } }
      let s2 := (List.finRange 6).foldl (fun (x : State) (p : Fin 6) =>
        (x.put Reg.FAB_PORT_STAT_STATE 0 p 0).put Reg.FAB_PORT_STAT_LANES 0 p 0) s1
      let s3 := (List.range 16).foldl (fun (x : State) (n : Nat) => x.put Reg.HOP_CONN_STAT_UP 0 n 0) s2
      s3.put Reg.HOST_STAT_LINK 0 0 0)

/-- The monitors whose rails hold the device in reset: VCORE, VSRAM, VIOD and VIO (R522). -/
def railHolds (j : Nat) : Bool := [0, 1, 2, 10].contains j

/-- RAIL_UNDERVOLTAGE (R522): a power-on reset. A thermal trip ends with the rails the board removes (R532). -/
def execRailUndervoltage (j : Fin 12) (s : State) : Res :=
  .next (if railHolds j && !s.mgmt.railLow.contains j.val then
      ({ s with mgmt := { s.mgmt with railLow := s.mgmt.railLow ++ [j.val], tripped := false } } : State).powerOnReset
    else s)

/-- RAIL_BAND_RETURN (R522). -/
def execRailBandReturn (j : Fin 12) (s : State) : Res :=
  .next (if s.mgmt.railLow.contains j.val then
      ({ s with mgmt := { s.mgmt with railLow := s.mgmt.railLow.filter (fun k => k != j.val) } } : State).startBoot
    else s)

/-- SMB_ALERT_N falls (R527). -/
def State.raiseAlert (s : State) : State :=
  if s.mgmt.alert then s else ({ s with mgmt := { s.mgmt with alert := true } } : State).emit (.pin "SMB_ALERT_N" false)

/-- RAIL_MONITOR_FLAG (R522, R527): a monitor of another rail. -/
def execRailMonitorFlag (j : Fin 12) (high : Bool) (mv : BitVec 13) (s : State) : Res :=
  .next (if railHolds j || s.held then s
    else ((s.put Reg.MGMT_VMON_MV 0 j mv.toNat).put (if high then Reg.MGMT_VMON_HIGH else Reg.MGMT_VMON_LOW) 0 j 1).raiseAlert)

/-- THERMTRIP (R532): a compute-die sensor at the trip point, 10 °C lower with FACTORY_BAD. -/
def execThermtrip (j : Fin 20) (temp : BitVec 12) (s : State) : Res :=
  let trip : Int := if s.on Reg.MGMT_CAL_STAT_FACTORY_BAD 0 0 then 100 * 8 else 110 * 8
  .next (if decide (j.val < 16) && decide (trip ≤ temp.toInt) && !s.mgmt.tripped then
      let s1 := s.emit (.pin "THERMTRIP_N" false)
      ({ s1 with mgmt := { s1.mgmt with tripped := true } } : State).powerOnReset
    else s)

/-! ## Hold-up energy (R465, R466) -/

/-- The hold-up check for an operation of `t` µs (R465), exact: sense × RATIO is 16 V in mV. `sense` is the calibrated mean. -/
def State.holdupOk (s : State) (sense t : Nat) : Bool :=
  let v := sense * s.rd Reg.MGMT_HOLDUP_PWR_RATIO 0 0
  let lo := s.rd Reg.MGMT_HOLDUP_CFG_VMIN 0 0 * 4 * 16
  let cap := s.rd Reg.MGMT_HOLDUP_CFG_CAP 0 0
  decide (cap ≠ 0) && decide (s.rd Reg.MGMT_HOLDUP_PWR_PWR 0 0 * t * s.rd Reg.MGMT_HOLDUP_PWR_MARGIN 0 0 * 256
    ≤ cap * (v * v - lo * lo) * 8)

/-- The energy held, in mJ (R465). -/
def State.holdupE (s : State) (sense : Nat) : Nat :=
  let v := sense * s.rd Reg.MGMT_HOLDUP_PWR_RATIO 0 0
  let lo := s.rd Reg.MGMT_HOLDUP_CFG_VMIN 0 0 * 4 * 16
  s.rd Reg.MGMT_HOLDUP_CFG_CAP 0 0 * (v * v - lo * lo) / 512000000

/-- The energy needed for `t` µs, in mJ (R465). -/
def State.holdupNeed (s : State) (t : Nat) : Nat :=
  s.rd Reg.MGMT_HOLDUP_PWR_PWR 0 0 * t * s.rd Reg.MGMT_HOLDUP_PWR_MARGIN 0 0 / 16000000

/-- A hold-up check: VCAP shows its voltage, and a pass clears LOW (R465, R466). -/
def State.holdup (s : State) (sense t : Nat) : Bool × State :=
  let s1 := s.put Reg.MGMT_HOLDUP_STAT_VCAP 0 0 (sense * s.rd Reg.MGMT_HOLDUP_PWR_RATIO 0 0 / 16)
  if s.holdupOk sense t then (true, s1.put Reg.MGMT_HOLDUP_STAT_LOW 0 0 0) else (false, s1)

/-- A deferral, once (R466). -/
def State.holdupDefer (s : State) (sense t : Nat) : State :=
  ((s.put Reg.MGMT_HOLDUP_STAT_LOW 0 0 1).bump Reg.MGMT_HOLDUP_STAT_DEFER_CNT 0 0 1).mgmtEvent 0x128
    [s.rd Reg.MGMT_HOLDUP_STAT_VCAP 0 0, s.holdupE sense, s.holdupNeed t]

/-! ## Copies (R453, R454, R459, R463) -/

/-- What a copy's header and digest say (R453). -/
structure CopyInfo where
  intact : Bool
  seq : Nat
  digest : BitVec 256
  nent : Nat
deriving DecidableEq, Repr

/-- The digest of a copy's bytes (R453): its bytes 0..15 and its entries. -/
def copyDigest (bs : List Byte) : BitVec 256 :=
  Config.shake256 (bs.take 16 ++ (bs.drop 64).take (16 * leNat ((bs.drop 8).take 4)))

/-- Judges the copy at `base` (R453). -/
def State.copyInfo (s : State) (base magic : Nat) : CopyInfo :=
  let h := s.flashBytes base 64
  let nent := leNat ((h.drop 8).take 4)
  let dig := leNat ((h.drop 16).take 32)
  { intact := decide (leNat (h.take 4) = magic) && decide (nent ≤ 4092)
      && decide (dig = (copyDigest (s.flashBytes base (64 + 16 * nent))).toNat),
    seq := leNat ((h.drop 4).take 4), digest := BitVec.ofNat 256 dig, nent := nent }

/-- The copies of an area: how many, where, and their MAGIC (R447, R453, R463). -/
def areaCopies (area : Nat) : Nat := if area = 0 then 3 else 2
def areaBase (area k : Nat) : Nat := (if area = 0 then cfgBase else ucalBase) + k * 65536
def areaMagic (area : Nat) : Nat := if area = 0 then 0x4346_4731 else 0x5543_414C

/-- The copies of an area, judged. -/
def State.areaInfo (s : State) (area : Nat) : List CopyInfo :=
  (List.range (areaCopies area)).map (fun k => s.copyInfo (areaBase area k) (areaMagic area))

/-- The largest SEQ among the intact copies (R454). -/
def topSeq (cs : List CopyInfo) : Option Nat :=
  ((cs.filter (fun c => c.intact)).map (fun c => c.seq)).max?

/-- Puts a copy behind those whose key is not greater. -/
def putByKey (x : Nat × Nat) : List (Nat × Nat) → List (Nat × Nat)
  | [] => [x]
  | y :: ys => if x.1 < y.1 then x :: y :: ys else y :: putByKey x ys

/-- The order in which a store writes the copies (R459): not intact first, then by SEQ, then by number. -/
def copyOrder (cs : List CopyInfo) : List Nat :=
  ((cs.zipIdx).foldl (fun (l : List (Nat × Nat)) (e : CopyInfo × Nat) =>
    putByKey (if e.1.intact then e.1.seq + 1 else 0, e.2) l) []).map (fun e => e.2)

/-- A copy's bytes with a SEQ and the digest that goes with it (R453, R459). -/
def withSeq (bs : List Byte) (seq : Nat) : List Byte :=
  let b := bs.take 4 ++ leBytes 4 seq ++ bs.drop 8
  b.take 16 ++ leBytes 32 (copyDigest b).toNat ++ b.drop 48

/-! ## Flash commands (R447, R448) -/

/-- Whether the xSPI controller refuses a program or erase command at an address (R448). -/
def State.flashRefused (s : State) (a : Nat) : Bool :=
  ((decide (a < 0x0001_0000) || (decide (fcalBase ≤ a) && decide (a < ucalBase))) && s.lcState != lcBlank)
    || (s.fwRuns && (let b := if s.on Reg.MGMT_BOOT_STAT_IMAGE 0 0 then imageBBase else imageABase
        decide (b ≤ a) && decide (a < b + imageSize)))

/-- The address of a flash command. -/
def FlashCmd.addr : FlashCmd → Nat
  | .erase a => a
  | .program a _ => a

/-- The time of a flash command in µs (R465). -/
def State.flashTime (s : State) : FlashCmd → Nat
  | .erase _ => s.rd Reg.MGMT_FLASH_TIME_T_ERASE 0 0 * 1000
  | .program _ _ => s.rd Reg.MGMT_FLASH_TIME_T_PROG 0 0

/-- Performs a flash command. -/
def State.flashDo (s : State) : FlashCmd → State
  | .erase a => s.flashErase a
  | .program a d => s.flashProgram a d

/-- The 256 B pages of data from `base` up, the last filled with erased bytes; at most `fuel`. -/
def pagesOf (base : Nat) (bs : List Byte) : Nat → List FlashCmd
  | 0 => []
  | fuel + 1 =>
    if bs.isEmpty then []
    else
      let p := bs.take 256
      .program base (p ++ List.replicate (256 - p.length) flashBlank) :: pagesOf (base + 256) (bs.drop 256) fuel

/-- The commands that write data at `base`: each 64 KiB sector is erased before its pages; at most `fuel` sectors. -/
def sectorsOf (base : Nat) (bs : List Byte) : Nat → List FlashCmd
  | 0 => []
  | fuel + 1 =>
    if bs.isEmpty then []
    else .erase base :: (pagesOf base (bs.take 65536) 256 ++ sectorsOf (base + 65536) (bs.drop 65536) fuel)

/-- Marks the last command of a copy. -/
def markLast : List FlashCmd → List (FlashCmd × Bool)
  | [] => []
  | [c] => [(c, true)]
  | c :: cs => (c, false) :: markLast cs

/-! ## Stores (R459, R466) -/

/-- The commands of a store whose source has been read with `code`, or the code that ends it before any (R448, R459). -/
def State.storeCmds (s : State) (st : Store) (code : Nat) : List (FlashCmd × Bool) × Nat :=
  let bs := s.localBytes st.src (st.lines * 64)
  if code ≠ codeOk then ([], code)
  else if st.area = 2 then
    (markLast (sectorsOf (if s.on Reg.MGMT_BOOT_STAT_IMAGE 0 0 then imageABase else imageBBase) bs 128), codeOk)
  else
    let cs := s.areaInfo st.area
    let seq := (match topSeq cs with | some q => q | none => 0) + 1
    if 0xFFFF_FFFE < seq then ([], errBound)
    else
      let new := withSeq bs seq
      ((copyOrder cs).flatMap (fun k => markLast (.erase (areaBase st.area k) :: pagesOf (areaBase st.area k) new 256)), codeOk)

/-- The largest source of an area, in lines (R447, R468). -/
def areaLines (area : Nat) : Nat := if area = 2 then 131072 else 1024

/-- The store at the head completes with a code; the next one's turn comes (R466). -/
def State.storeDone (s : State) (code : Nat) : State :=
  let rest := s.mgmt.stores.drop 1
  let s1 := (s.put Reg.MGMT_STORE_STAT_CODE 0 0 code).put Reg.MGMT_STORE_STAT_DEFERRED 0 0 0
  { s1.put Reg.MGMT_STORE_STAT_BUSY 0 0 (bit01 (!rest.isEmpty)) with mgmt := { s1.mgmt with stores := rest } }

/-- The store at the head with what is left of it. -/
def State.setStore (s : State) (st : Store) : State :=
  { s with mgmt := { s.mgmt with stores := st :: s.mgmt.stores.drop 1 } }

/-- A write of GO to MGMT_STORE_REQ (R459, R466, R468): the request joins the stores in order, or completes at once. -/
def State.storeRequest (s : State) (area lines src : Nat) : State :=
  if 2 < area ∨ areaLines area < lines ∨ ¬ s.rangeOk src (lines * 64) then s.put Reg.MGMT_STORE_STAT_CODE 0 0 errBound
  else
    let st : Store := { area := area, lines := lines, src := src, begun := false, cmds := [] }
    ({ s with mgmt := { s.mgmt with stores := s.mgmt.stores ++ [st] } } : State).put Reg.MGMT_STORE_STAT_BUSY 0 0 1

/-- STORE_REQUEST (R459). -/
def execStoreRequest (area : BitVec 4) (lines : BitVec 18) (src : BitVec 34) (s : State) : Res :=
  .next (if s.fwRuns && !s.mgmt.resetLow then s.storeRequest area.toNat lines.toNat (src.toNat * 64) else s)

/-- The store at the head begins, unless the life-cycle vote has failed (R461): its source is read. A new configuration leaves
no damaged copy to repair (R458). -/
def State.storeBegin (s : State) : State :=
  match s.mgmt.stores with
  | [] => s
  | st :: _ =>
    if st.begun || s.lcFailed then s
    else
      let (read, s0) := s.localRead 9 st.src (st.lines * 64)
      let (cmds, code) := s0.storeCmds st read
      let s1 := (s0.setStore { st with begun := true, cmds := cmds }).put Reg.MGMT_STORE_STAT_COPIES 0 0 0
      let s2 := if st.area = 0 ∧ code = codeOk then { s1 with mgmt := { s1.mgmt with repair := [] } } else s1
      if cmds.isEmpty then s2.storeDone code else s2

/-- The next command of the store at the head: issued after a passing hold-up check, refused by R448, or deferred (R465, R466). -/
def State.storeIssue (s : State) (sense : Nat) : State :=
  match s.mgmt.stores with
  | [] => s
  | st :: _ =>
    match st.cmds with
    | [] => s
    | (c, last) :: rest =>
      let t := s.flashTime c
      let (ok, s1) := s.holdup sense t
      if ok then
        let s2 := s1.put Reg.MGMT_STORE_STAT_DEFERRED 0 0 0
        if s2.flashRefused c.addr then s2.storeDone errBound
        else
          let s3 := (s2.flashDo c).setStore { st with cmds := rest }
          let s4 := if last then s3.bump Reg.MGMT_STORE_STAT_COPIES 0 0 1 else s3
          if rest.isEmpty then s4.storeDone codeOk else s4
      else if s1.on Reg.MGMT_STORE_STAT_DEFERRED 0 0 then s1
      else (s1.holdupDefer sense t).put Reg.MGMT_STORE_STAT_DEFERRED 0 0 1

/-- FLASH_COMMAND (R465): the next command of the store at the head, which is not deferred. -/
def execFlashCommand (senseMv : Nat) (s : State) : Res :=
  .next (if s.fwRuns && !s.mgmt.resetLow && !s.on Reg.MGMT_STORE_STAT_DEFERRED 0 0 then s.storeBegin.storeIssue senseMv else s)

/-- HOLDUP_RECHECK (R466): of the deferred store. -/
def execHoldupRecheck (senseMv : Nat) (s : State) : Res :=
  .next (if s.fwRuns && !s.mgmt.resetLow && s.on Reg.MGMT_STORE_STAT_DEFERRED 0 0 then s.storeIssue senseMv else s)

/-- CFG_REPAIRED (R458): the next copy to repair takes the applied content. Its hold-up checks have passed (log 27). -/
def execCfgRepaired (s : State) : Res :=
  .next (match s.mgmt.repair with
    | [] => s
    | k :: rest =>
      if s.lcFailed || s.phase != 9 then s
      else
        let s1 := (pagesOf (areaBase 0 k) s.mgmt.cfgBytes 256).foldl (fun (x : State) (c : FlashCmd) => x.flashDo c)
          (s.flashErase (areaBase 0 k))
        ({ s1 with mgmt := { s1.mgmt with repair := rest } } : State).mgmtEvent 0x524 [0, k, s.mgmt.cfgSeq])

/-- A write to MGMT_FLASH_CMD in the halted ROM (R451, R468). -/
def State.flashCmdGo (s : State) (op addr : Nat) : State :=
  if s.mgmt.halted && decide (s.rd Reg.MGMT_BOOT_STAT_ERR 0 0 = 3) && !s.held && !s.flashRefused addr then
    match op with
    | 1 => s.flashErase addr
    | 2 => s.flashProgram (addr / 256 * 256) s.mgmt.pageBuf
    | _ => s
  else s

/-- FLASH_ACCESS (R451): the page buffer is written first, then the command. -/
def execFlashAccess (op : BitVec 2) (addr : BitVec 26) (page : List Byte) (s : State) : Res :=
  .next (if s.mgmt.halted && decide (s.rd Reg.MGMT_BOOT_STAT_ERR 0 0 = 3) && !s.held then
      ({ s with mgmt := { s.mgmt with pageBuf := (page ++ List.replicate 256 0).take 256 } } : State).flashCmdGo op.toNat
        addr.toNat
    else s)

end Sys2Proof.Machine
end

