-- ==== Sys2Proof/Machine/Clocks.lean ====
section
/-! DEFINITION. What passes while no command waits: edges of the clock domains that run (01 R20; log 1). -/

namespace Sys2Proof.Machine

/-- Whether a domain's clock runs (R445, R523): kc from the lock of its PLL, the others from phase CLOCKS on, and kc alone once the
supply has failed. -/
def State.clockRuns (s : State) (d : Dom) : Bool :=
  if s.mgmt.resetLow || !s.mgmt.railLow.isEmpty || s.mgmt.tripped then false
  else match d with
    | .kc => decide (2 ≤ s.phase)
    | _ => (decide (7 ≤ s.phase) || s.mgmt.waiting) && !s.mgmt.supplyFailed

/-- The DOM code of a domain (R24, R438). -/
def domCode : Dom → Fin 7
  | .cc => 0
  | .nc => 1
  | .fc => 2
  | .mc => 3
  | .hc => 4
  | .xc => 5
  | .kc => 6

/-- Edges of a domain pass (R20): how many is open (log 7). The cores' own cc pass with those of the domain cc. -/
def State.edgesPass (s : State) (d : Dom) : State :=
  if s.clockRuns d then
    let n := Config.edges d s.idle
    let s1 := { s with ticks := s.ticks.set (domCode d) (BitVec.ofNat 64 (s.tick (domCode d) + n)) }
    if d = .cc then (List.finRange 6).foldl (fun x c => x.coreTime c n) s1 else s1
  else s

/-- The block idles: the counters of the domains that run advance, errors may arise in the memory cells, and nothing else changes
(log 1, 8). -/
def State.idleStep (s : State) : State :=
  let s1 := [Dom.cc, .nc, .fc, .mc, .hc, .xc, .kc].foldl State.edgesPass s
  let s2 := s1.struck (Config.upsets s.idle)
  { s2 with idle := s.idle + 1 }

end Sys2Proof.Machine
end

