-- ==== Sys2Proof/Machine/Granary.lean ====
section
/-! DEFINITION. The Granary's own rows (06 R187, R193..R202): the grant of a bank phase to an untimed request, scrubbing,
row repair and region fill. -/

namespace Sys2Proof.Machine

/-- The bank of a Granary offset (R181). -/
def bankOf (off : Nat) : Nat := off / 64 % 32

/-- Whether a part of a request waits for a bank of core `c` (R187). -/
def partAtBank (c : CoreId) (bank : Nat) (p : ReqPart) : Bool :=
  match placeOf p.addr with
  | .gran d off => p.stage == .granted && d == c && bankOf off == bank
  | _ => false

/-- Whether a request waits for a phase of a bank of core `c`. -/
def MemReq.atBank (r : MemReq) (c : CoreId) (bank : Nat) (write : Bool) : Bool :=
  !r.remote && r.write == write && r.parts.any (partAtBank c bank)

/-- Performs one part of a request at a Granary: a read brings its bytes unless they are poisoned, a write stores
(R184, R193, R194). -/
def State.granPart (s : State) (c : CoreId) (r : MemReq) (p : ReqPart) : ReqPart × Bool × State :=
  match placeOf p.addr with
  | .gran _ off =>
    if r.write then ({ p with stage := .done }, false, s.granWrite c off p.data)
    else
      let (bad, s1) := s.granRead c off p.len
      ({ p with stage := .done, data := if bad then [] else s.granBytes c off p.len }, bad, s1)
  | _ => (p, false, s)

/-- Grants the bank phase to a request: its waiting part in that bank is performed. -/
def State.bankGrant (s : State) (c : CoreId) (bank : Nat) (r : MemReq) : State :=
  match r.parts.find? (partAtBank c bank) with
  | none => s
  | some p =>
    let (p', bad, s1) := s.granPart c r p
    s1.modReq r.tag (fun q => { q with bad := q.bad || bad, parts := modFirst (partAtBank c bank) (fun _ => p') q.parts })

/-- `n` cc of waiting for the requests of a bank phase that were not granted, of the Hopper, the host port or management one where
`agent` says so (R187). -/
def State.bankWait (s : State) (c : CoreId) (bank : Nat) (write agent : Bool) (won : Option Nat) (n : Nat) : State :=
  let left := s.reqs.filter (fun r => r.atBank c bank write && won != some r.tag)
  if left.isEmpty && !agent then s
  else
    let aged (p : ReqPart) : ReqPart := if partAtBank c bank p then { p with age := p.age + n } else p
    let reqs := s.reqs.map (fun (r : MemReq) =>
      if r.atBank c bank write && won != some r.tag then { r with parts := r.parts.map aged } else r)
    ({ s with reqs := reqs }).bump Reg.GRAN_EXT_WAIT_COUNT c 0 n

/-- UNTIMED_GRANT (R187). `others` are the requests of which the state holds none: 0 Loom weight load, 1 activation feeders, 2 output
writes, 3 Sieve, 4 row repair and fill, 5 scrubber, 6 an access of the Hopper, the host port or management, 7 that access has waited
EXT_AGE. `lost` are the cc before it that timed accesses took of the phase while these requests waited (log 13). -/
def execUntimedGrant (c : CoreId) (bank : Fin 32) (write : Bool) (others : BitVec 8) (lost : Nat) (s0 : State) : Res :=
  let lim := s0.rd Reg.GRAN_ARB_EXT_AGE c 0
  let agent := others.getLsbD 6
  let s := s0.bankWait c bank write agent none lost
  let here := s.reqs.filter (fun r => r.atBank c bank write)
  let old := here.find? (fun r => decide (lim ≠ 0) && r.parts.any (fun p => partAtBank c bank p && decide (lim ≤ p.age)))
  let looms := [0, 1, 2].countP (fun i => others.getLsbD i)
  let agentOld := agent && others.getLsbD 7 && decide (lim ≠ 0) && old.isNone
  let ext := if old.isSome then old else if looms = 0 && !agentOld then here.head? else none
  let agentWins := agentOld || (agent && decide (looms = 0) && ext.isNone)
  let loomWaits := (if looms = 0 then 0 else lost) + (if looms - (if ext.isNone && !agentWins then 1 else 0) = 0 then 0 else 1)
  let s1 := s.bump Reg.GRAN_LOOM_WAIT_COUNT c 0 loomWaits
  let s2 := s1.bankWait c bank write (agent && !agentWins) (ext.map (·.tag)) 1
  .next (match ext with
    | none => s2
    | some r => s2.bankGrant c bank r)

/-- The line the scrubber checks, with the walk or the queue advanced (R197). -/
def State.scrubNext (s : State) (c : CoreId) : Nat × State :=
  match (s.core c).gran.scrubQ with
  | l :: q => (l, s.modGran c (fun g => { g with scrubQ := q }))
  | [] =>
    let l := s.rd Reg.GRAN_SCRUB_POS_LINE c 0
    let s1 := s.put Reg.GRAN_SCRUB_POS_LINE c 0 (l + 1)
    (l, if l + 1 = 2 ^ 20 then s1.bump Reg.GRAN_SCRUB_POS_PASSES c 0 1 else s1)

/-- The scrubber's automatic repair of a row (R200). -/
def State.scrubRepair (s : State) (c : CoreId) (line : Nat) : State :=
  if s.on Reg.GRAN_REPAIR_CTRL_AUTO c 0 then s.askRepair c (line % 32) (line / 32) else s

/-- A weight line that fails its CRC is stored poisoned (R198). -/
def State.crcFail (s : State) (c : CoreId) (line : Nat) : State :=
  let s1 := (s.unitHeads c (line * 64) 64).foldl (fun x w => x.setPoison c w true) s
  ((s1.bump Reg.GRAN_CRC_FAIL_CNT_COUNT c 0 1).coreEvent c 0x802 [line]).scrubRepair c line

/-- The scrubber's check of a line (R193, R197, R198): an uncorrectable line is left as it is, correctable errors are counted
and written back, and a weight line is then compared with its stored CRC. -/
def State.scrubCheck (s : State) (c : CoreId) (line : Nat) : State :=
  let units := s.unitHeads c (line * 64) 64
  let ce := units.countP (fun w => s.unitFlawed c w)
  let s1 := if ce = 0 then s else s.granCount c line ce
  let s2 := units.foldl (fun x w => if s.wordBad c w then x else x.unitFix c w) s1
  if s.granBad c (line * 64) 64 then (s2.granUe c line).scrubRepair c line
  else if s.weightClass c (line * 64) && s.storedCrc c line != lineCrc (s.granBytes c (line * 64) 64) then s2.crcFail c line
  else s2

/-- SCRUB_LINE (R197, R198): granted only where both phases of the line's bank are free in that cc, which `free` says. -/
def execScrubLine (c : CoreId) (errs : List Upset) (free : Bool) (s0 : State) : Res :=
  let s := s0.struck errs
  if free && s.on Reg.GRAN_SCRUB_CTRL_EN c 0 && s.on Reg.GRAN_STAT_READY c 0 then
    let (line, s1) := s.scrubNext c
    .next (s1.scrubCheck c line)
  else .next s

/-- The FREE field of a bank's spare count (R206). -/
def spareFree (bank : Nat) : Fld :=
  match bank % 4 with
  | 0 => Reg.GRAN_SPARE_FREE0
  | 1 => Reg.GRAN_SPARE_FREE1
  | 2 => Reg.GRAN_SPARE_FREE2
  | _ => Reg.GRAN_SPARE_FREE3

/-- The spare rows of a bank that serve no row (R199). -/
def State.sparesLeft (s : State) (c : CoreId) (bank : Nat) : List Nat :=
  (List.range 64).filter (fun k => !(s.core c).gran.repairs.any (fun e => e.1 = bank && e.2.2 = k))

/-- The repair's read of the row and its write of the spare: corrected data moves corrected, uncorrectable or poisoned data
moves poisoned (R193, R201). -/
def State.moveRow (s : State) (c : CoreId) (line : Nat) : State :=
  let s1 := (s.granRead c (line * 64) 64).2
  (s1.unitHeads c (line * 64) 64).foldl (fun x w => x.unitFix c w) s1

/-- A row moves to a spare of its bank, or no spare is free (R199, R201, R202). Which of the bank's free spares it takes is a free
value (log 2). -/
def State.rowRepair (s : State) (c : CoreId) (bank row : Nat) : State :=
  let f := spareFree bank
  let asked (x : State) : State := x.modGran c (fun g => { g with repairReq := g.repairReq.filter (fun e => e != (bank, row)) })
  let free := s.rd f c (bank / 4)
  if free = 0 then (asked s).coreEvent c 0xC04 [bank, row]
  else
    let left := s.sparesLeft c bank
    let (k, s1) := (asked (s.moveRow c (row * 32 + bank))).draw 6
    let spare := left.getD (k.toNat % max 1 left.length) 0
    let s2 := s1.put f c (bank / 4) (free - 1)
    (s2.modGran c (fun g => { g with repairs := g.repairs ++ [(bank, row, spare)] })).coreEvent c 0x403 [bank, row, spare]

/-- ROW_REPAIR (R201): of a row whose repair has been asked for. -/
def execRowRepair (c : CoreId) (bank : Fin 32) (row : Fin 32768) (s : State) : Res :=
  .next (if (s.core c).gran.repairReq.contains (bank.val, row.val) then s.rowRepair c bank row else s)

/-- GRAN_REPAIR_REQ (R200): a write with GO = 1. -/
def execGranRepairReq (c : CoreId) (bank : Fin 32) (row : Fin 32768) (s : State) : Res :=
  .next (s.askRepair c bank row)

/-- Fills a region with code 0 and the check bits of its class, and for the weight class the CRC (R196). -/
def State.fillRegion (s : State) (c : CoreId) (region : Nat) : State :=
  s.modGran c (fun g => { g with bytes := cellClear g.bytes (region * 0x40000) ((region + 1) * 0x40000),
                                 poison := cellClear g.poison (region * 0x8000) ((region + 1) * 0x8000),
                                 flaws := cellClear g.flaws (region * 0x8000) ((region + 1) * 0x8000),
                                 crc := cellClear g.crc (region * 0x1000) ((region + 1) * 0x1000) })

/-- REGION_FILL (R196): the fill of the first region waiting for one. -/
def execRegionFill (c : CoreId) (s : State) : Res :=
  .next (match (s.core c).gran.fill with
    | [] => s
    | region :: rest => (s.fillRegion c region).modGran c (fun g => { g with fill := rest }))

/-- A write to a class register: regions whose class changes are to be filled (R190, R196). -/
def State.classWrite (s : State) (c : CoreId) (k v : Nat) : State :=
  let old := s.rd Reg.GRAN_PCLASS_CLASS c k
  let changed := (numsWhere 32 (fun j => v.testBit j != old.testBit j)).map (fun j => 32 * k + j)
  (s.put Reg.GRAN_PCLASS_CLASS c k v).modGran c
    (fun g => { g with fill := g.fill ++ changed.filter (fun r => !g.fill.contains r) })

end Sys2Proof.Machine
end

