-- ==== Sys2Proof/Machine/HopOps.lean ====
section
/-! DEFINITION. What the Hopper's rows share (10 R292..R306; 11 R307..R316): formats, the pool, loss runs, pieces and the
turnover of a swath. -/

namespace Sys2Proof.Machine

/-- A camera binding. -/
def State.cam (s : State) (c : CamId) : Cam := s.cams.get c

/-- Changes a camera binding. -/
def State.modCam (s : State) (c : CamId) (f : Cam → Cam) : State := { s with cams := s.cams.set c (f (s.cam c)) }

/-- An event of the Hopper (R437 input 8, R438). -/
def State.hopEvent (s : State) (code unit : Nat) (args : List Nat) : State := s.raise code 10 unit 5 8 args

/-- The states of a camera (R306). -/
def camOff : Nat := 0
def camDiscover : Nat := 1
def camIdle : Nat := 2
def camStream : Nat := 3
def camDown : Nat := 4
def camInvalid : Nat := 5

/-- STATE of a camera. -/
def State.camState (s : State) (c : CamId) : Nat := s.rd Reg.HOP_CAM_STAT_STATE 0 c

/-- Replaces STATE of a camera. -/
def State.setCamState (s : State) (c : CamId) (x : Nat) : State := s.put Reg.HOP_CAM_STAT_STATE 0 c x

/-! ## Pixel formats (R294) -/

/-- The SRC code of a source format. -/
def monoCode : Mono → Nat
  | .mono8 => 0 | .mono10 => 1 | .mono12 => 2 | .mono14 => 3

/-- The bits of a source pixel by SRC. -/
def srcBits (src : Nat) : Nat := 8 + 2 * src

/-- Bits of a delivered pixel by DELIV: U8, U12, U16. -/
def delivBits (deliv : Nat) : Nat :=
  match deliv with
  | 0 => 8 | 1 => 12 | _ => 16

/-- The FMT code of a delivered format (R33, R302). -/
def delivFmt (deliv : Nat) : Nat :=
  match deliv with
  | 0 => 2 | 1 => 4 | _ => 5

/-- Whether a source and a delivered format are a pair of R294. -/
def pairOk (src deliv : Nat) : Bool :=
  match src, deliv with
  | 0, 0 => true
  | 1, 1 | 1, 2 | 2, 1 | 2, 2 => true
  | 3, 2 => true
  | _, _ => false

/-- The delivered code of a pixel (R294). -/
def delivered (src deliv : Nat) (align : Bool) (x : Nat) : Nat :=
  let v := x % 2 ^ srcBits src
  if align then v * 2 ^ (delivBits deliv - srcBits src) else v

/-- Bits of a camera's delivered pixel now. -/
def State.camBits (s : State) (c : CamId) : Nat := delivBits (s.rd Reg.HOP_CAM_CFG_DELIV 0 c)

/-- The plan of a camera. -/
def State.camPlan (s : State) (c : CamId) : Nat := s.rd Reg.HOP_CAM_CFG_PLAN 0 c

/-! ## Connections and bindings (R292, R309) -/

/-- Connections of a binding's group. -/
def State.camGroup (s : State) (c : CamId) : List Nat :=
  (List.range (2 ^ s.rd Reg.HOP_CAM_CFG_NCONN 0 c)).map (fun i => s.rd Reg.HOP_CAM_CFG_FIRST 0 c + i)

/-- Connections that carry a camera: those its last discovery chose, none while it has had none (R305). -/
def State.camConns (s : State) (c : CamId) : List Nat := numsWhere 16 (fun n => (s.cam c).conns.getLsbD n)

/-- The master connection of a camera. -/
def State.camMaster (s : State) (c : CamId) : Nat :=
  (firstWhere 16 (fun n => s.on Reg.HOP_CONN_STAT_MASTER 0 n && decide (s.rd Reg.HOP_CONN_STAT_CAM 0 n = c.val))).getD
    (s.rd Reg.HOP_CAM_CFG_FIRST 0 c)

/-- Whether a binding may be started (R292, R309): its own fields, and no lower-numbered enabled binding that overlaps it or
names its plan. -/
def State.bindingOk (s : State) (c : CamId) : Bool :=
  let n := s.rd Reg.HOP_CAM_CFG_NCONN 0 c
  decide (n ≤ 4) && decide (s.rd Reg.HOP_CAM_CFG_FIRST 0 c % 2 ^ n = 0)
    && pairOk (s.rd Reg.HOP_CAM_CFG_SRC 0 c) (s.rd Reg.HOP_CAM_CFG_DELIV 0 c)
    && (List.finRange 16).all (fun (d : Fin 16) => decide (c.val ≤ d.val) || !s.on Reg.HOP_CAM_CFG_EN 0 d
        || (s.camPlan d != s.camPlan c && !(s.camGroup d).any (fun k => (s.camGroup c).contains k)))

/-- The started camera whose group has a connection (R292). -/
def State.connCam (s : State) (n : Nat) : Option CamId :=
  (List.finRange 16).find? (fun (c : Fin 16) => s.on Reg.HOP_CAM_CFG_EN 0 c && decide (s.camState c ≠ camOff)
    && decide (s.camState c ≠ camInvalid) && (s.camGroup c).contains n)

/-- A camera uses no connection any more: their MASTER and CAM read 0 (R306). -/
def State.freeConns (s : State) (c : CamId) : State :=
  let s1 := (s.camConns c).foldl (fun x n => (x.put Reg.HOP_CONN_STAT_MASTER 0 n 0).put Reg.HOP_CONN_STAT_CAM 0 n 0) s
  s1.modCam c (fun k => { k with conns := 0 })

/-! ## The pool (R296) -/

/-- Blocks a camera's lines hold, USED_c. -/
def Cam.used (k : Cam) : Nat := (k.rows.map (·.blocks)).foldl (· + ·) 0

/-- Blocks a line of `x` pixels needs. -/
def blocksFor (x bits : Nat) : Nat := (x * bits + 4096 * 8 - 1) / (4096 * 8)

/-- Free blocks. -/
def State.poolFree (s : State) : Nat := 8192 - ((List.finRange 16).map (fun (c : Fin 16) => (s.cam c).used)).foldl (· + ·) 0

/-- The pool's registers follow its lines (R306). -/
def State.poolSync (s : State) (c : CamId) : State :=
  let s1 := (s.put Reg.HOP_CAM_STAT_USED 0 c (s.cam c).used).put Reg.HOP_CAM_STAT_RUNS 0 c (s.cam c).runs.length
  let free := s1.poolFree
  (s1.put Reg.HOP_POOL_STAT_FREE 0 0 free).put Reg.HOP_POOL_STAT_MINFREE 0 0 (min (s1.rd Reg.HOP_POOL_STAT_MINFREE 0 0) free)

/-- Whether a line that needs `b` blocks is admitted (R296). -/
def State.poolAdmits (s : State) (c : CamId) (b : Nat) : Bool :=
  let used (d : Fin 16) : Nat := (s.cam d).used
  let left (d : Fin 16) : Nat := s.rd Reg.HOP_CAM_POOL_RSV 0 d - used d
  let reserved : Nat := ((List.finRange 16).map left).foldl (· + ·) 0
  let shared : Int := (s.poolFree : Int) - reserved
  decide (used c + b ≤ s.rd Reg.HOP_CAM_POOL_CAP 0 c) && decide ((b : Int) ≤ (left c : Int) + shared)

/-! ## Loss runs (R299) -/

/-- The rows of a run have reached every core they go to. -/
def Cam.runWritten (k : Cam) (r : LossRun) : Bool :=
  k.rows.all (fun x => x.todo.isEmpty || decide (r.endSwath < x.swath)
    || (decide (x.swath = r.endSwath) && decide (r.endRow < x.row)))

/-- Lost rows that every core has are done with; runs that have closed and whose headers are all written leave the queue. -/
def Cam.pruneRuns (k : Cam) : Cam :=
  let runs := k.runs.filter (fun r => !(r.closed && k.runWritten r))
  { k with rows := k.rows.filter (fun x => !(x.loss != 0 && x.todo.isEmpty)), runs := runs, runFull := k.runFull && decide (runs.length = 64) }

/-- A lost line is recorded (R299): it extends the newest run after a lost line or under a full queue, else opens a run. `swath` is
the camera's own count of image headers. -/
def State.loseLine (s : State) (c : CamId) (swath row cause : Nat) : State :=
  let k := s.cam c
  let shown := swath - k.bound
  let s1 := s.bump Reg.HOP_CONN_LOST_COUNT 0 (s.camMaster c) 1
  let total := min (k.lostTotal + 1) 0xFFFFFFFF
  let extend (r : LossRun) : LossRun := { r with len := r.len + 1, endSwath := swath, endRow := row, closed := false }
  if k.lastLost || k.runFull then
    let runs := k.runs.dropLast ++ (k.runs.getLast?.map extend).toList
    s1.modCam c (fun k => { k with runs := runs, lostTotal := total, lastLost := true })
  else
    let r : LossRun := { swath := shown, first := row, len := 1, endSwath := swath, endRow := row, closed := false }
    (s1.modCam c (fun k => { k with runs := k.runs ++ [r], lostTotal := total, lastLost := true })).hopEvent
      0x841 c [c.val, shown, row, cause]

/-- The first line admitted after a run closes it (R299). -/
def State.closeRun (s : State) (c : CamId) : State :=
  match (s.cam c).lastLost, (s.cam c).runs.getLast? with
  | true, some r =>
    (s.modCam c (fun k => ({ k with runs := k.runs.dropLast ++ [{ r with closed := true }], lastLost := false } : Cam).pruneRuns)).hopEvent
      0x042 c [c.val, r.swath, r.first, r.len]
  | _, _ => s.modCam c (fun k => { k with lastLost := false })

/-! ## Pieces (R307, R308) -/

/-- The index of piece `n` of plan `p` among the piece registers. -/
def pieceIdx (p : Nat) (n : CoreId) : Nat := p * 16 + n.val

/-- The base of ring geometry `r` of a core, and its pitch in bytes and rows (R204). -/
def State.geoBase (s : State) (c : CoreId) (r : Nat) : Nat := s.rd Reg.GRAN_RING_BASE_BASE c r * 64
def State.geoPitch (s : State) (c : CoreId) (r : Nat) : Nat := s.rd Reg.GRAN_RING_SHAPE_PITCH c r * 64
def State.geoRows (s : State) (c : CoreId) (r : Nat) : Nat := s.rd Reg.GRAN_RING_SHAPE_ROWS c r

/-- Whether every region a range touches is in the activation class (R190). -/
def State.activationOnly (s : State) (c : CoreId) (lo len : Nat) : Bool :=
  decide (len = 0) || (List.range 256).all (fun g =>
    decide (g < lo / 0x40000) || decide ((lo + len - 1) / 0x40000 < g) || !s.weightClass c (g * 0x40000))

/-- VALID of a ring geometry (R204). -/
def State.geoOk (s : State) (c : CoreId) (r : Nat) : Bool :=
  let len := s.geoRows c r * s.geoPitch c r
  decide (2 ≤ s.geoRows c r) && decide (s.geoRows c r ≤ 4096) && decide (s.geoPitch c r ≠ 0)
    && decide (s.geoBase c r + len ≤ 0x0400_0000) && s.activationOnly c (s.geoBase c r) len

/-- Whether the active piece of a core under plan `p` is valid (R308); PIECE_W 0 and a core out of service give no valid piece. -/
def State.pieceOk (s : State) (cam : CamId) (p : Nat) (c : CoreId) : Bool :=
  let i := pieceIdx p c
  let r := s.rd Reg.HOP_PIECE_RING 0 i
  let hdr := s.rd Reg.HOP_PIECEH_HDR_BASE 0 i * 64
  let len := s.geoRows c r * 64
  s.coreOk c && s.geoOk c r && s.on Reg.HOP_PIECEW_PIECE_W 0 i && decide (s.rd Reg.HOP_PIECEW_PIECE_W 0 i * s.camBits cam ≤ s.geoPitch c r * 8)
    && decide (hdr + len ≤ 0x0400_0000) && s.activationOnly c hdr len

/-- A ring's bookkeeping. -/
def State.pipe (s : State) (c : CoreId) (r : Nat) : PipeRing := cellGet PipeRing.idle s.pipes (c.val * 16 + r)

/-- Replaces a ring's bookkeeping. -/
def State.setPipe (s : State) (c : CoreId) (r : Nat) (p : PipeRing) : State :=
  { s with pipes := cellPut PipeRing.idle s.pipes (c.val * 16 + r) p }

/-- The ring of a core that takes a camera's pieces. -/
def State.servingRing (s : State) (cam : CamId) (c : CoreId) : Option Nat :=
  firstWhere 16 (fun r => (s.pipe c r).cam == some cam)

/-- Rows of a camera's swaths up to one no longer wait for a core. -/
def Cam.dropCore (k : Cam) (c : CoreId) (swath : Nat) : Cam :=
  ({ k with rows := k.rows.map (fun x =>
    if x.swath = swath then { x with todo := x.todo.filter (fun t => t.core != c) } else x) } : Cam).pruneRuns

/-- No row waits for a core any more (R27). -/
def Cam.forgetCore (k : Cam) (c : CoreId) : Cam :=
  ({ k with rows := k.rows.map (fun x => { x with todo := x.todo.filter (fun t => t.core != c) }) } : Cam).pruneRuns

/-- FILL of a ring takes a value: the counter sets out to every copy (R312, R316). -/
def State.setFill (s : State) (c : CoreId) (r v : Nat) : State :=
  (s.put Reg.PIPE_RING_FILL_FILL c r v).counterChanged c r

/-- The counters of a ring start over (R315). -/
def State.zeroRing (s : State) (c : CoreId) (r : Nat) : State :=
  let s1 := ((s.put Reg.PIPE_RING_REL_REL c r 0).put Reg.PIPE_RING_END_ROWS c r 0).put Reg.PIPE_RING_STAT_END c r 0
  s1.setFill c r 0

/-- The end of a ring's swath is known (R314). -/
def State.ringEnd (s : State) (c : CoreId) (r rows : Nat) : State :=
  ((s.put Reg.PIPE_RING_END_ROWS c r rows).put Reg.PIPE_RING_STAT_END c r 1).wakeTasks c

/-- One turnover of a core to a swath of a camera (R308, R315): counters, staged piece and geometry, the check, and the end of
the swath where it is already known. `old` is the ring that served the swath before. -/
def State.turnTo (s : State) (cam : CamId) (c : CoreId) (old : Option Nat) (swath : Nat) (ends : List (Nat × Nat)) : State :=
  let plan := s.camPlan cam
  let i := pieceIdx plan c
  let s1 := match old with
    | some r => (s.zeroRing c r).setPipe c r PipeRing.idle
    | none => s
  let s2 := ((s1.activate Reg.HOP_PIECE 0 i).activate Reg.HOP_PIECEW 0 i).activate Reg.HOP_PIECEH 0 i
  if s2.on Reg.HOP_PIECE_EN 0 i then
    let r := s2.rd Reg.HOP_PIECE_RING 0 i
    let s3 := ((s2.activate Reg.GRAN_RING_BASE c r).activate Reg.GRAN_RING_SHAPE c r).zeroRing c r
    let ok := s3.pieceOk cam plan c
    let s4 := (s3.put Reg.PIPE_RING_STAT_PLAN_INV c r (bit01 (!ok))).setPipe c r
      { cam := some cam, plan := plan, swath := swath, ends := ends.filter (fun e => e.1 != swath), valid := ok }
    if ok then
      match ends.find? (fun e => e.1 = swath) with
      | some e => s4.ringEnd c r e.2
      | none => s4
    else
      (s4.modCam cam (fun k => k.dropCore c swath)).hopEvent 0x861 cam [plan, c.val]
  else s2.modCam cam (fun k => k.dropCore c swath)

/-- The turnover of a core to a swath of a camera. A swath of which the core takes no row is over for it once the camera's next has
begun, and it turns over again, at most `fuel` times (R308, R315). -/
def State.turnover (s : State) (cam : CamId) (c : CoreId) (old : Option Nat) (swath : Nat) (ends : List (Nat × Nat)) :
    Nat → State
  | 0 => s
  | fuel + 1 =>
    let s1 := s.turnTo cam c old swath ends
    let ring := s1.servingRing cam c
    let takes := match ring with | some r => (s1.pipe c r).valid | none => false
    if takes || decide ((s1.cam cam).swath ≤ swath) then s1
    else State.turnover s1 cam c ring (swath + 1) ends fuel

/-- The end of a camera's swath is told to a core's ring: at once, or kept until its turnover to that swath (R314). A swath the ring
has left has ended there by LAST. -/
def State.tellEnd (s : State) (c : CoreId) (r swath rows : Nat) : State :=
  let p := s.pipe c r
  if p.swath = swath then
    if p.valid then s.ringEnd c r rows else s
  else if swath < p.swath then s
  else s.setPipe c r { p with ends := p.ends ++ [(swath, rows)] }

end Sys2Proof.Machine
end

