-- ==== Sys2Proof/Machine/Sec.lean ====
section
/-! DEFINITION. The security block (17): fuses, life-cycle transitions, the device key, leaf reservation and signatures, and
their rows. -/

namespace Sys2Proof.Machine

/-- An event of the security block (R437 input 7). -/
def State.secEvent (s : State) (code : Nat) (args : List Nat) : State := s.raise code 13 0 6 7 args

/-- The majority of three cells (R469). -/
def maj (a b c : Nat) : Nat := (a &&& b) ||| (a &&& c) ||| (b &&& c)

/-- The life-cycle bits: each the majority of its cells (R469). -/
def Fuses.lcBits (f : Fuses) : Nat := maj (f.lc.get 0).toNat (f.lc.get 1).toNat (f.lc.get 2).toNat

/-- The life-cycle state of a thermometer code; any other code reads as ENDED (R474). -/
def lcOf (bits : Nat) : Nat := ((List.range 6).find? (fun n => bits = 2 ^ n - 1)).getD lcEnded

/-- The bytes of a 256-bit digest. -/
def digestBytes (d : BitVec 256) : List Byte := leBytes 32 d.toNat

/-- The bytes of the SECRET bank: SK_SEED, SK_PRF, PUB_SEED, REC_KEY (R469). -/
def Fuses.secretBytes (f : Fuses) : List Byte := leBytes 128 f.secret.toNat

/-- REC_KEY (R469, R482). -/
def Fuses.recKey (f : Fuses) : BitVec 256 := BitVec.ofNat 256 (f.secret.toNat / 2 ^ 768)

/-- PK_DIGEST (R479). -/
def Fuses.pkDigest (f : Fuses) : BitVec 256 := Config.shake256 (Config.xmssMtOid ++ leBytes 64 f.devPk.toNat)

/-- Whether the device key has been generated (R480, R489). -/
def State.keyPresent (s : State) : Bool := s.on Reg.SEC_KEY_STAT_PRESENT 0 0

/-- Whether KEY_CHECK matches the SECRET bank (R480). -/
def Fuses.keyMatches (f : Fuses) : Bool := decide (Config.shake256 f.secretBytes = f.keyCheck)

/-- Replaces the fuses. -/
def State.setFuses (s : State) (f : Fuses) : State := { s with sec := { s.sec with fuses := f } }

/-- Whether something waits on hold-up energy. -/
def State.secWaits (s : State) (what : Nat) : Bool := s.sec.deferred.contains what

/-- What waited on hold-up energy no longer does. -/
def State.secGoes (s : State) (what : Nat) : State :=
  { s with sec := { s.sec with deferred := s.sec.deferred.filter (fun w => w != what) } }

/-- A hold-up check before `t` µs of fuse or flash work (R470, R479, R483): whether it passed. A check that fails defers, once. -/
def State.secCheck (s : State) (what sense t : Nat) : Bool × State :=
  let (ok, s1) := s.holdup sense t
  if ok then (true, s1.secGoes what)
  else if s1.secWaits what then (false, s1)
  else
    let s2 := s1.holdupDefer sense t
    (false, { s2 with sec := { s2.sec with deferred := s2.sec.deferred ++ [what] } })

/-- The time of one fuse operation in µs (R470). -/
def fuseTime : Nat := 5000

/-! ## Fuse operations (R470, R473, R476) -/

/-- A fuse operation takes effect (R470, R473, R476): the last cell of a transition completes its request. -/
def State.fuseDo (s : State) : FuseOp → State
  | .svn v =>
    (s.setFuses { s.sec.fuses with svn := max s.sec.fuses.svn v }).put Reg.SEC_SVN_FLOOR 0 0 (max s.sec.fuses.svn v)
  | .lc cell target =>
    let f := s.sec.fuses
    let f' := { f with lc := f.lc.set cell (f.lc.get cell ||| BitVec.ofNat 5 (2 ^ target - 1)) }
    let s1 := (s.setFuses f').put Reg.SEC_LC_STAT_PENDING 0 0 (lcOf f'.lcBits)
    if cell = 2 then
      let s2 := (s1.put Reg.SEC_LC_STAT_REQ_CODE 0 0 codeOk).put Reg.SEC_LC_STAT_REQ_BUSY 0 0 0
      { s2 with sec := { s2.sec with target := none } }
    else s1

/-- FUSE_PROGRAM (R470): the next operation, after its hold-up check. -/
def execFuseProgram (senseMv : Nat) (s : State) : Res :=
  .next (match s.sec.ops with
    | [] => s
    | op :: rest =>
      if s.mgmt.resetLow then s
      else
        let (ok, s1) := s.secCheck 0 senseMv fuseTime
        if ok then ({ s1 with sec := { s1.sec with ops := rest } } : State).fuseDo op else s1)

/-- A write of GO to SEC_SVN (R473). -/
def State.svnRaise (s : State) (v : Nat) : State :=
  if v ≤ s.rd Reg.SEC_SVN_FLOOR 0 0 ∨ 64 < v ∨ s.mgmt.imgSvn < v ∨ s.lcState = lcEnded then
    s.put Reg.SEC_LC_STAT_REQ_CODE 0 0 errBound
  else { s with sec := { s.sec with ops := s.sec.ops ++ [.svn v] } }

/-- SEC_SVN_RAISE (R473). -/
def execSecSvnRaise (v : BitVec 7) (s : State) : Res := .next (s.svnRaise v.toNat)

/-- Whether JTAG reaches the debug registers in a life-cycle state (R475). -/
def jtagDebug (lc : Nat) : Bool := lc == lcBlank || lc == lcTest || lc == lcReturned

/-- The address of the return authorisation (R477). -/
def State.rmaAddr (s : State) : Nat := s.rd Reg.SEC_RMA_ADDR_ADDR 0 0 * 64

/-- The authorisation is read (R193, R370, R477). -/
def State.rmaRead (s : State) : State :=
  if s.rangeOk s.rmaAddr 2820 then (s.localRead 9 s.rmaAddr 2820).2 else s

/-- Whether the signature at SEC_RMA_ADDR authorises a return (R477). -/
def State.rmaValid (s : State) : Bool :=
  let a := s.rmaAddr
  s.rangeOk a 2820 && !s.localBad a 2820 && decide (s.sec.fuses.fwPk ≠ 0)
    && Config.xmssVerify s.sec.fuses.fwPk
      (leBytes 8 (s.csrGet Reg.FAB_DEVICE_ID 0 0).toNat ++ leBytes 8 (s.csrGet Reg.SEC_LC_NONCE 0 0).toNat) (s.localBytes a 2820)

/-- Whether a transition is in the table of R476 and its condition holds. -/
def State.lcAllowed (s : State) (target : Nat) : Bool :=
  match s.lcState, target with
  | 0, 1 => decide (s.sec.fuses.fwPk ≠ 0)
  | 1, 2 => s.keyPresent
  | 2, 3 => true
  | 3, 4 => s.rmaValid
  | lc, 5 => decide (lc < 5)
  | _, _ => false

/-- A write of GO to SEC_LC_REQ (R476, R477). A transition to ENDED waits for ENDED_TRANSITION (R478). -/
def State.lcRequest (s : State) (target : Nat) : State :=
  let s1 := if s.lcState = lcDeployed ∧ target = lcReturned then s.rmaRead.newNonce else s
  if s.lcAllowed target && s.sec.target.isNone && !s.lcFailed then
    let ops := if target = lcEnded then [] else [FuseOp.lc 0 target, FuseOp.lc 1 target, FuseOp.lc 2 target]
    ({ s1 with sec := { s1.sec with target := some target, ops := s1.sec.ops ++ ops } } : State).put
      Reg.SEC_LC_STAT_REQ_BUSY 0 0 1
  else s1.put Reg.SEC_LC_STAT_REQ_CODE 0 0 errBound

/-- The paths on which SEC_LC_REQ is written (R476). -/
def State.lcPath (s : State) (p : Path) : Bool :=
  match p with
  | .host => true
  | .carter _ _ => true
  | .jtag => jtagDebug s.lcState
  | .core _ | .mgmt => false

/-- SEC_LC_REQ (R476). -/
def execSecLcReq (target : BitVec 3) (p : Path) (s : State) : Res :=
  .next (if s.lcPath p then s.lcRequest target.toNat else s)

/-- ENDED_TRANSITION (R478): SECRET is zeroised, LC is programmed, and the device is reset by R446. -/
def execEndedTransition (s : State) : Res :=
  .next (if s.sec.target = some lcEnded then
      (s.setFuses { s.sec.fuses with secret := BitVec.allOnes 1024, lc := Vector.replicate 3 (BitVec.allOnes 5) }).mgmtReset
    else s)

/-! ## Leaf reservation (R481..R485) -/

/-- The 32 bytes of a record before its MAC (R482). -/
def recordHead (recSeq leaf : Nat) (pk : BitVec 256) : List Byte :=
  leBytes 4 0x5853_5452 ++ leBytes 4 recSeq ++ leBytes 8 leaf ++ (digestBytes pk).take 8 ++ List.replicate 8 0

/-- The NEXT_LEAF that the next reservation writes (R483, R484). -/
def State.nextRsv (s : State) : Nat :=
  max (s.rd Reg.SEC_XMSS_NEXT_LEAF 0 0) (s.rd Reg.SEC_XMSS_RSV_NEXT_LEAF 0 0) + 1024

/-- Writes the record of a reservation (R481..R483): a segment's fuse bit first, the sector erased before its first slot. -/
def State.reserveLeaves (s : State) (new : Nat) : State :=
  let f := s.sec.fuses
  let seg := max f.seg ((new - 1) / 2 ^ 28 + 1)
  let n := match s.sec.recSeq with | some q => q + 1 | none => 0
  let head := recordHead n new f.pkDigest
  let a := xmssBase + n % 1024 * 256
  let s1 := if n % 256 = 0 then s.flashErase a else s
  let s2 := s1.flashProgram a (head ++ digestBytes (Config.kmac256 f.recKey head))
  let s3 := ((s2.setFuses { f with seg := seg }).put Reg.SEC_XMSS_STAT_SEGS 0 0 seg).put Reg.SEC_XMSS_RSV_NEXT_LEAF 0 0 new
  { s3 with sec := { s3.sec with recSeq := some n, reserve := false } }

/-- LEAF_RESERVATION (R483): of the reservation asked for, after the hold-up check of its longest command. -/
def execLeafReservation (senseMv : Nat) (s : State) : Res :=
  .next (if s.sec.reserve && decide (s.nextRsv ≤ 2 ^ 40) && !s.mgmt.resetLow then
      let (ok, s1) := s.secCheck 1 senseMv (max (s.flashTime (.erase 0)) fuseTime)
      if ok then s1.reserveLeaves s.nextRsv else s1
    else s)

/-- Whether the record in a slot is valid, and its REC_SEQ and NEXT_LEAF (R482). -/
def State.slotRecord (s : State) (slot : Nat) : Option (Nat × Nat) :=
  let b := s.flashBytes (xmssBase + slot * 256) 64
  let f := s.sec.fuses
  let head := b.take 32
  if leNat (head.take 4) = 0x5853_5452 ∧ (head.drop 16).take 8 = (digestBytes f.pkDigest).take 8
      ∧ b.drop 32 = digestBytes (Config.kmac256 f.recKey head) then
    some (leNat ((head.drop 4).take 4), leNat ((head.drop 8).take 8) % 2 ^ 41)
  else none

/-- The key is exhausted (R485). -/
def State.keyExhausted (s : State) : State :=
  if s.on Reg.SEC_KEY_STAT_EXHAUSTED 0 0 then s else (s.put Reg.SEC_KEY_STAT_EXHAUSTED 0 0 1).secEvent 0xD45 []

/-- SEC_LEAF_RESUME (R484): a slot that holds anything but a valid record counts as a bad one. -/
def execSecLeafResume (s : State) : Res :=
  .next (if s.fwRuns && s.keyPresent && !s.on Reg.SEC_KEY_STAT_BAD 0 0 && !s.sec.resumed then
      let slots := s.pagesIn xmssBase 1024
      let good := slots.filterMap s.slotRecord
      let r := (good.map (fun e => e.2)).foldl max 0
      let q := (good.map (fun e => e.1)).max?
      let resume := max r (2 ^ 28 * s.sec.fuses.seg)
      let s1 := { s with sec := { s.sec with recSeq := q, resumed := true } }
      let s2 := (s1.bump Reg.SEC_XMSS_STAT_BADREC 0 0 (slots.length - good.length)).put Reg.SEC_XMSS_RSV_NEXT_LEAF 0 0 r
      let s3 := (s2.put Reg.SEC_XMSS_NEXT_LEAF 0 0 resume).secEvent 0x144 [resume % 2 ^ 32, resume / 2 ^ 32]
      if 2 ^ 40 ≤ resume then s3.keyExhausted else s3
    else s)

/-! ## The device key (R479, R480) -/

/-- The words of a digest argument (R503). -/
def digestArgs (d : BitVec 256) : List Nat := (List.range 4).map (fun i => bitsOf d.toNat (32 * i) 32)

/-- The device key is generated (R479): the draw, the banks, leaf block 0, and the event. Programmed fuse bits stay. -/
def State.keygen (s : State) : State :=
  let (sk, s1) := s.draw 1024
  let f := s1.sec.fuses
  let root := Config.xmssMtRoot sk
  let pk := BitVec.ofNat 512 (root.toNat + bitsOf sk.toNat 512 256 * 2 ^ 256)
  let f' := { f with secret := f.secret ||| sk, devPk := f.devPk ||| pk,
                     keyCheck := f.keyCheck ||| Config.shake256 (leBytes 128 sk.toNat) }
  let s2 := (s1.setFuses f').reserveLeaves 1024
  let s3 := ({ s2 with sec := { s2.sec with resumed := true } } : State).put Reg.SEC_KEY_STAT_PRESENT 0 0 1
  s3.secEvent 0x142 (digestArgs f'.pkDigest)

/-- A write of GO to SEC_KEYGEN, and the check that follows it (R479). -/
def State.keygenGo (s : State) (sense : Nat) : State :=
  if s.lcState = lcProvision ∧ ¬ s.keyPresent then
    let (ok, s1) := s.secCheck 2 sense 400000
    if ok then s1.keygen else s1
  else s.put Reg.SEC_LC_STAT_REQ_CODE 0 0 errBound

/-- SEC_KEYGEN (R479): a GO, or the check repeated for a generation that was deferred. -/
def execSecKeygen (senseMv : Nat) (s : State) : Res := .next (s.keygenGo senseMv)

/-- SUBTREE_REBUILD (R480). -/
def execSubtreeRebuild (s : State) : Res :=
  let f := s.sec.fuses
  .next (if s.fwRuns then
      if f.keyMatches || decide (f.keyCheck = 0) then
        if s.keyPresent && !s.on Reg.SEC_KEY_STAT_BAD 0 0 then s.put Reg.SEC_KEY_STAT_READY 0 0 1 else s
      else if s.on Reg.SEC_KEY_STAT_BAD 0 0 then s
      else (s.put Reg.SEC_KEY_STAT_BAD 0 0 1).secEvent 0xD43 []
    else s)

/-! ## Signatures (R483..R488) -/

/-- Whether a signature request is answered ERR_DISABLED (R478, R488). -/
def State.signDisabled (s : State) : Bool :=
  !s.keyPresent || s.on Reg.SEC_KEY_STAT_BAD 0 0 || s.on Reg.SEC_KEY_STAT_EXHAUSTED 0 0 || s.lcState == lcBlank || s.lcFailed

/-- Answers the signature request at the head; a session that has ended takes no answer. -/
def State.signAnswer (s : State) (r : SignReq) (code : Nat) (data : List Byte) : State :=
  let s1 := { s with sec := { s.sec with signQ := s.sec.signQ.drop 1 } }
  if s1.host.session = r.session then s1.hostRespond 0x08 r.tag code data else s1

/-- Whether a further reservation can be made (R485). -/
def State.canReserve (s : State) : Bool := decide (s.nextRsv ≤ 2 ^ 40)

/-- A signature takes the next leaf (R483, R485, R486, R487). -/
def State.signOne (s : State) (r : SignReq) : State :=
  let leaf := s.rd Reg.SEC_XMSS_NEXT_LEAF 0 0
  let rsv := s.rd Reg.SEC_XMSS_RSV_NEXT_LEAF 0 0
  let msg := r.report.take 40 ++ leBytes 8 leaf ++ r.report.drop 48
  let s1 := ((s.put Reg.SEC_XMSS_NEXT_LEAF 0 0 (leaf + 1)).bump Reg.SEC_SIGN_CNT_COUNT 0 0 1).put Reg.SEC_KEY_STAT_WAIT 0 0 0
  let s2 := if decide (rsv ≤ leaf + 1 + 256) && s1.canReserve then { s1 with sec := { s1.sec with reserve := true } } else s1
  let s3 := if leaf + 1 = rsv ∧ 2 ^ 40 < rsv + 1024 then s2.keyExhausted else s2
  s3.signAnswer r codeOk (msg ++ Config.xmssMtSign s.sec.fuses.secret leaf msg ++ r.tail)

/-- SIGNATURE (R486): of the request at the head. Before READY it waits; without a reserved leaf it asks for a reservation and
waits, or finds the key exhausted (R483, R485). -/
def execSignature (s : State) : Res :=
  .next (match s.sec.signQ with
    | [] => s
    | r :: _ =>
      if s.signDisabled then s.signAnswer r errDisabled []
      else if !s.on Reg.SEC_KEY_STAT_READY 0 0 || !s.sec.resumed then s
      else if s.rd Reg.SEC_XMSS_NEXT_LEAF 0 0 < s.rd Reg.SEC_XMSS_RSV_NEXT_LEAF 0 0 then s.signOne r
      else if s.canReserve then
        ({ s with sec := { s.sec with reserve := true } } : State).put Reg.SEC_KEY_STAT_WAIT 0 0 1
      else s.keyExhausted.signAnswer r errDisabled [])

/-! ## Time-outs of what waits on hold-up energy (R466, R470, R483) -/

/-- Signatures that wait for a reservation that failed (R483). -/
def State.signTimeouts (s : State) : Nat → State
  | 0 => s
  | fuel + 1 =>
    match s.sec.signQ with
    | [] => s
    | r :: _ => State.signTimeouts (s.signAnswer r errTimeout []) fuel

/-- The oldest of the security block's deferrals ends in ERR_TIMEOUT (R466): a fuse operation with the rest of its request, a
reservation with the signatures that wait for it, a key generation, a fuse window. -/
def State.secTimeout (s : State) : State :=
  match s.sec.deferred with
  | [] => s
  | w :: _ =>
    let s1 := s.secGoes w
    match w with
    | 0 =>
      let s2 := (s1.put Reg.SEC_LC_STAT_REQ_CODE 0 0 errTimeout).put Reg.SEC_LC_STAT_REQ_BUSY 0 0 0
      { s2 with sec := { s2.sec with target := none, ops := match s2.sec.ops with
          | .lc _ _ :: rest => rest.filter (fun o => match o with | .lc _ _ => false | .svn _ => true)
          | ops => ops.drop 1 } }
    | 1 =>
      let s2 := { s1 with sec := { s1.sec with reserve := false } }
      if s2.on Reg.SEC_KEY_STAT_WAIT 0 0 then (s2.signTimeouts s2.sec.signQ.length).put Reg.SEC_KEY_STAT_WAIT 0 0 0 else s2
    | 2 => s1.put Reg.SEC_LC_STAT_REQ_CODE 0 0 errTimeout
    | _ => s1.put Reg.ASSAY_FUSE_BUSY 0 0 0

/-- STORE_TIMEOUT (R466): the deferred store at the head, or else the security block's oldest deferral. -/
def execStoreTimeout (s : State) : Res :=
  .next (if s.on Reg.MGMT_STORE_STAT_DEFERRED 0 0 then s.storeDone errTimeout else s.secTimeout)

/-- SEC_VOTE_FAIL (R461): the copies of the life-cycle shadow all differ. -/
def State.lcVoteFail (s : State) : State :=
  if s.lcFailed then s else (s.put Reg.MGMT_VOTE_STAT_LC_FAIL 0 0 1).secEvent 0xD41 []

end Sys2Proof.Machine
end

