-- ==== Sys2Proof/Machine/Assay.lean ====
section
/-! DEFINITION. The Assay engine, core retirement and fuse windows (18 R490..R500, R508), and their rows. -/

namespace Sys2Proof.Machine

/-- An event of the ASSAY block (R437 input 6). -/
def State.assayEvent (s : State) (code : Nat) (args : List Nat) : State := s.raise code 14 0 6 6 args

/-- The slice states (R510). -/
def asIdle : Nat := 0
def asNotice : Nat := 1
def asWait : Nat := 2
def asRun : Nat := 3

/-- ASSAY_STAT.STATE. -/
def State.asState (s : State) : Nat := s.rd Reg.ASSAY_STAT_STATE 0 0

/-- ASSAY_STAT.CORE, the core of the current or last slice. -/
def State.asCore (s : State) : CoreId := Fin.ofNat 6 (s.rd Reg.ASSAY_STAT_CORE 0 0)

/-- Whether a core is scheduled (R492). -/
def State.scheduled (s : State) (c : CoreId) : Bool :=
  s.on Reg.ASSAY_CTRL_EN 0 0 && s.coreOk c && (s.rd Reg.ASSAY_SCHED_CORE_MASK 0 0).testBit c

/-- ASSAY_NOTICE (R493). While a slice waits or runs, STATE goes on showing it (log 30). -/
def execAssayNotice (c : CoreId) (kc : BitVec 64) (s : State) : Res :=
  .next (if s.scheduled c && decide (s.phase = 9) && !s.assay.noticed.contains c.val then
      let s1 := { s with assay := { s.assay with noticed := s.assay.noticed ++ [c.val] } }
      let s2 := (s1.assayEvent 0x161 [c.val, kc.toNat % 2 ^ 32, kc.toNat / 2 ^ 32]).setIrq c 12
      if s2.asState < asWait then (s2.put Reg.ASSAY_STAT_STATE 0 0 asNotice).put Reg.ASSAY_STAT_CORE 0 0 c else s2
    else s)

/-- A slice of a core begins to wait for its start (R494). -/
def State.asBeginWait (s : State) (c : Nat) (external : Bool) : State :=
  let s1 := { s with assay := { s.assay with external := external } }
  (s1.put Reg.ASSAY_STAT_STATE 0 0 asWait).put Reg.ASSAY_STAT_CORE 0 0 c

/-- After a slice, or in place of one (R492): a start time that moved comes now, for a core still in service; else a notice or
nothing stands. -/
def State.asNext (s : State) : State :=
  match s.assay.moved.filter (fun c => s.coreOk c) with
  | c :: rest => ({ s with assay := { s.assay with moved := rest } } : State).asBeginWait c false
  | [] =>
    ({ s with assay := { s.assay with moved := [] } } : State).put Reg.ASSAY_STAT_STATE 0 0
      (if s.assay.noticed.isEmpty then asIdle else asNotice)

/-- ASSAY_START_TIME (R492, R494). -/
def execAssayStartTime (c : CoreId) (s : State) : Res :=
  .next (if s.assay.noticed.contains c.val then
      let s1 := { s with assay := { s.assay with noticed := s.assay.noticed.filter (fun d => d != c.val) } }
      if s1.scheduled c then
        if asWait ≤ s1.asState then { s1 with assay := { s1.assay with moved := s1.assay.moved ++ [c.val] } }
        else s1.asBeginWait c false
      else if s1.asState < asWait then s1.asNext else s1
    else s)

/-- A core is idle (R494). -/
def State.coreIdle (s : State) (c : CoreId) : Bool :=
  (s.core c).seq.tasks.all (fun k => k.st == .free || k.st == .halted) && (s.core c).loom.jobs.isEmpty
    && (s.core c).sieve.isEmpty && (List.range 64).all (fun ch => s.chanState c ch == 0)

/-- Whether the power headroom covers a slice (R494, R495). -/
def State.headroomOk (s : State) : Bool := decide (s.rd Reg.ASSAY_PWR_NEED 0 0 ≤ s.rd Reg.ASSAY_PWR_HEADROOM 0 0)

/-- ASSAY_START (R494): MATRIX_EN is set for the slice (R280). -/
def execAssayStart (s : State) : Res :=
  let c := s.asCore
  .next (if s.asState = asWait ∧ s.coreIdle c ∧ s.headroomOk then
      let s1 := { s with assay := { s.assay with matrixEn := s.on Reg.AGEN_CTRL_MATRIX_EN c 0 } }
      ((s1.put Reg.AGEN_CTRL_MATRIX_EN c 0 1).put Reg.ASSAY_STAT_STATE 0 0 asRun).assayEvent 0x162
        [c.val, s.rd Reg.ASSAY_PWR_HEADROOM 0 0]
    else s)

/-- A slice is skipped, with its cause (R494, R531). -/
def State.asSkip (s : State) (cause : Nat) : State :=
  let c := s.asCore
  let s1 := (s.assayEvent 0x165 [c.val, cause]).bump Reg.ASSAY_CORE_SKIPS 0 c 1
  let n := s1.rd Reg.ASSAY_CORE_SKIPS 0 c
  let s2 := if s1.on Reg.ASSAY_SCHED_SKIP_LIM 0 0 && n == s1.rd Reg.ASSAY_SCHED_SKIP_LIM 0 0 then
    s1.assayEvent 0x166 [c.val, n] else s1
  (s2.put Reg.ASSAY_STAT_RESULT 0 0 3).asNext

/-- ASSAY_SKIPPED (R494): GRACE ends with a condition not met. -/
def execAssaySkipped (s : State) : Res :=
  let cause := bit01 (!s.coreIdle s.asCore) + 2 * bit01 (!s.headroomOk)
  .next (if s.asState = asWait ∧ cause ≠ 0 then s.asSkip cause else s)

/-- What the end of a slice leaves (R491): cleared registers, planes, accumulator bank and loop cache, the vector unit powered
down, and MATRIX_EN as it was. -/
def State.asClear (s : State) (c : CoreId) : State :=
  let s1 := s.modVec c (fun v => { v with v := Vector.replicate 32 0, a := Vector.replicate 4 0, vstart := 0, vfault := 0,
                                          pwr := .down })
  let s2 := s1.modLoom c (fun l => { l with back := none, front := none, backW := [], frontW := [], backNonfin := false,
                                            frontNonfin := false, acc := [] })
  let s3 := s2.modSeq c (fun q => { q with lcBase := 0, lcLen := 0, lcHeld := [] })
  s3.put Reg.AGEN_CTRL_MATRIX_EN c 0 (bit01 s.assay.matrixEn)

/-- The owners of a core that hold a lock or wait for one. -/
def State.coreOwners (s : State) (c : CoreId) : List Owner :=
  let all := s.locks.flatMap (fun e => e.2.owner.toList ++ e.2.waiters)
  (all.filter (fun o => match o with
    | .task n _ => n == c
    | .chan n _ => n == c
    | .host | .peer _ => false)).eraseDups

/-- A core leaves service (R499): its bit reads 0, CORE_RETIRED is raised, it runs nothing, and as an owner of locks it dies. -/
def State.retireCore (s : State) (c : CoreId) (part : Nat) : State :=
  if s.coreOk c then
    let s1 := s.put Reg.GLOBAL_UNITS_CORE_OK 0 0 (setBits (s.rd Reg.GLOBAL_UNITS_CORE_OK 0 0) c 1 0)
    let s2 := s1.raise 0xC09 (1 + c.val) 0 6 6 [c.val, part]
    let k := s2.core c
    let seq := { k.seq with tasks := k.seq.tasks.map (fun t => { t with st := .halted, wait := .none }), running := none,
                            bundle := none, loads := [], sbuf := [], fault := none, pre := [] }
    let s3 := s2.setCore c { k with seq := seq, loom := { k.loom with jobs := [] }, sieve := [],
                                    carter := { k.carter with chans := [] } }
    let s4 := { s3 with pipes := s3.pipes.filter (fun e => e.1 / 16 != c.val), reqs := s3.reqs.map (fun (r : MemReq) => match r.sender with
      | .carter n _ _ _ => if n = c then { r with dead := true } else r
      | .peer _ _ _ _ => r) }
    (List.finRange 16).foldl (fun (x : State) cam => (x.modCam cam (fun k => k.forgetCore c)).poolSync cam)
      ((s.coreOwners c).foldl State.deathNotice s4)
  else s

/-- A slice has run (R494): SLICES rises, the skips end, and its result shows. -/
def State.asDone (s : State) (c : CoreId) (result : Nat) : State :=
  (((s.bump Reg.ASSAY_CORE_SLICES 0 c 1).put Reg.ASSAY_CORE_SKIPS 0 c 0).put Reg.ASSAY_STAT_RESULT 0 0 result).asNext

/-- Repairs of the rows that failed the march, and the first whose bank has no spare (R498). -/
def State.marchRepairs (s : State) (c : CoreId) : List (Fin 32 × Fin 32768) → Option (Nat × Nat) × State
  | [] => (none, s)
  | (bank, row) :: rest =>
    let out := s.rd (spareFree bank) c (bank / 4) == 0
    let (r, s1) := State.marchRepairs (s.rowRepair c bank row) c rest
    (if out then some (bank.val, row.val) else r, s1)

/-- ASSAY_SLICE_END (R491, R498): a pass with the rows repaired, or a failure that retires the core. -/
def execAssaySliceEnd (f : Finding) (s : State) : Res :=
  let c := s.asCore
  .next (if s.asState = asRun then
      match f with
      | .clean rows =>
        let (out, s1) := (s.asClear c).marchRepairs c rows
        match out with
        | none => (s1.assayEvent 0x163 [c.val, rows.length]).asDone c 1
        | some (bank, _) =>
          let (unit, s2) := s1.draw 32
          ((s2.assayEvent 0xD64 [c.val, 3, unit.toNat, bank]).retireCore c 3).asDone c 2
      | .logic part unit column =>
        if part.val = 0 ∨ part.val = 3 then s
        else (((s.asClear c).assayEvent 0xD64 [c.val, part.val, unit, column]).retireCore c part.val).asDone c 2
    else s)

/-- A write of GO to ASSAY_REQ (R475, R497): a slice with no notice, or ignored with REQ_ERR. A failed life-cycle vote refuses it
(R461). -/
def State.assayReq (s : State) (core : Nat) : State :=
  if jtagDebug s.lcState && !s.lcFailed then
    if s.coreOk core && decide (core < 6) then
      if asWait ≤ s.asState then { s with assay := { s.assay with moved := s.assay.moved ++ [core] } }
      else s.asBeginWait core true
    else s
  else s.put Reg.ASSAY_STAT_REQ_ERR 0 0 1

/-- ASSAY_REQ (R497). -/
def execAssayReq (_p : Path) (core : BitVec 3) (s : State) : Res := .next (s.assayReq core.toNat)

/-- A write of GO to ASSAY_RETIRE (R493, R499): a slice of that core which has not started is cancelled. -/
def State.assayRetire (s : State) (core : Nat) : State :=
  if h : core < 6 then
    let a := { s.assay with noticed := s.assay.noticed.filter (fun d => d != core),
                            moved := s.assay.moved.filter (fun d => d != core) }
    let s1 := ({ s with assay := a } : State).retireCore ⟨core, h⟩ 0
    if s1.asState = asNotice ∨ (s1.asState = asWait ∧ s1.asCore.val = core) then s1.asNext else s1
  else s

/-- ASSAY_RETIRE (R499). -/
def execAssayRetire (core : BitVec 3) (s : State) : Res := .next (s.assayRetire core.toNat)

/-! ## Fuse windows (R508) -/

/-- A write of GO to ASSAY_FUSE (R508). -/
def State.fuseGo (s : State) : State := if s.lcState = lcEnded then s else s.put Reg.ASSAY_FUSE_BUSY 0 0 1

/-- ASSAY_FUSE_GO (R508). -/
def execAssayFuseGo (s : State) : Res := .next s.fuseGo

/-- An entry's bits are programmed (R508): whether they are, the bank's room tells. -/
def fuseEntry (f : Fuses) (j : JEntry) : Fuses × JEntry :=
  if j.fused then (f, j)
  else
    match j.kind with
    | .retire bit => ({ f with retire := f.retire ||| BitVec.ofNat 60 (2 ^ bit) }, { j with fused := true })
    | .repair c b r sp =>
      if f.repair.length < 2048 then ({ f with repair := f.repair ++ [(c, b, r, sp)] }, { j with fused := true }) else (f, j)
    | .dramRow _ _ => (f, j)

/-- Programs the entries in journal order. -/
def fuseAll (f : Fuses) : List JEntry → Fuses × List JEntry
  | [] => (f, [])
  | j :: js =>
    let (f1, j1) := fuseEntry f j
    let (f2, js2) := fuseAll f1 js
    (f2, j1 :: js2)

/-- FUSE_WINDOW (R508): opened by GO, by time or by 448 entries; its operations follow a passing hold-up check. -/
def execFuseWindow (senseMv : Nat) (s : State) : Res :=
  .next (if s.fwRuns && !s.mgmt.resetLow && s.lcState != lcEnded
        && (s.on Reg.ASSAY_FUSE_BUSY 0 0 || decide (s.unfused ≠ 0)) then
      let (ok, s1) := s.secCheck 3 senseMv fuseTime
      if ok then
        let (f, js) := fuseAll s1.sec.fuses s1.ledger.journal
        let s2 := ({ s1 with ledger := { s1.ledger with journal := js } } : State).setFuses f
        let s3 := (s2.put Reg.ASSAY_FUSE_BUSY 0 0 0).assayEvent 0x167 [s.unfused - s2.unfused, s2.unfused]
        s3.journalPrune
      else s1.put Reg.ASSAY_FUSE_BUSY 0 0 1
    else s)

end Sys2Proof.Machine
end

