-- ==== Sys2Proof/Machine/Hopper.lean ====
section
/-! DEFINITION. The Hopper's rows (10 R290..R306; 11 R307..R316). -/

namespace Sys2Proof.Machine

/-! ## Lines -/

/-- Whether a row's pixels are all there: the line is lost, has ended, or has all its pixels (R298, R301). -/
def PoolRow.full (x : PoolRow) : Bool := x.loss != 0 || !x.isOpen || decide (x.xsize ≤ x.pixels.length)

/-- Whether a row's header is fixed: the line is lost or has ended, for excess pixels flag a line until it ends. The last line of an image
is taken to end with its last pixel (R298, R302; DEDUCED, log 17). -/
def PoolRow.complete (x : PoolRow) : Bool := x.loss != 0 || !x.isOpen || (x.last && x.full)

/-- The line in progress ends; pixels it misses are a short line's (R298). -/
def PoolRow.close (x : PoolRow) : PoolRow :=
  { x with isOpen := false, lenErr := x.lenErr || (x.isOpen && decide (x.pixels.length < x.xsize)) }

/-- The line in progress of a camera ends. -/
def State.endLine (s : State) (c : CamId) : State :=
  s.modCam c (fun k => { k with rows := k.rows.map (fun (x : PoolRow) => if x.isOpen then x.close else x) })

/-- The cores that a row of a swath still has to reach (R301, R308, R322). -/
def State.rowTodo (s : State) (c : CamId) (swath : Nat) (lost : Bool) : List PieceTodo :=
  ((List.finRange 6).filter (fun (n : Fin 6) =>
    match s.servingRing c n with
    | none => false
    | some r => s.coreOk n && (decide ((s.pipe n r).swath < swath) || (decide ((s.pipe n r).swath = swath) && (s.pipe n r).valid)))).map
    (fun n => { core := n, pixels := lost })

/-- The cause that loses a line, 0 for none (R295, R299, R300, R304). -/
def State.lineCause (s : State) (c : CamId) : Nat :=
  let k := s.cam c
  if k.runFull then 2
  else if k.linkLost then 3
  else if k.hdrSrc.map monoCode ≠ some (s.rd Reg.HOP_CAM_CFG_SRC 0 c) then 5
  else if k.hdrX = 0 ∨ 65536 < k.hdrX then 4
  else if s.poolAdmits c (blocksFor k.hdrX (s.camBits c)) then 0
  else 1

/-- A line begins (R293, R296, R299, R302): a row takes its number, admitted or lost. -/
def State.beginLine (s : State) (c : CamId) : State :=
  let cause0 := s.lineCause c
  let k0 := s.cam c
  let full := decide (cause0 ≠ 0) && !k0.lastLost && decide (64 ≤ k0.runs.length)
  let cause := if full then 2 else cause0
  let s1 := if full then s.modCam c (fun k => { k with runFull := true }) else s
  let s2 := if cause = 0 then s1.closeRun c else s1.loseLine c k0.swath k0.nextRow cause
  let lost := decide (cause ≠ 0)
  let x : PoolRow :=
    { row := k0.nextRow, swath := k0.swath, shown := k0.swath - k0.bound, deliv := s.rd Reg.HOP_CAM_CFG_DELIV 0 c, plan := s.camPlan c,
      tick := s.tick 5, xsize := k0.hdrX, pixels := [], isOpen := !lost, crcErr := false, lenErr := false,
      last := decide (k0.hdrY ≠ 0) && decide (k0.nextRow + 1 = k0.hdrY), conns := k0.conns, lostTotal := (s2.cam c).lostTotal,
      loss := cause, blocks := if lost then 0 else blocksFor k0.hdrX (s.camBits c), todo := s2.rowTodo c k0.swath lost,
      dram := !lost && k0.dramOk }
  (s2.modCam c (fun k => ({ k with rows := k.rows ++ [x], nextRow := k0.nextRow + 1 } : Cam).pruneRuns)).poolSync c

/-- Whether a camera's line takes a row number: the Hopper is enabled, and the camera streams or has lost its link since it did (R304,
R306). -/
def State.takesLine (s : State) (c : CamId) : Bool :=
  s.on Reg.HOP_CTRL_EN 0 0 && (decide (s.camState c = camStream)
    || ((s.cam c).linkLost && decide (s.camState c ≠ camOff) && decide (s.camState c ≠ camInvalid)))

/-- LINE_MARKER (R293, R296): the line in progress ends, and the new one takes its row, or is discarded uncounted (R306). `edges` are
the edges of xc from the last command on to the one at which the marker is decoded (log 7). -/
def execLineMarker (cam : CamId) (edges : Nat) (s : State) : Res :=
  let s1 := { s with ticks := s.ticks.set 5 (BitVec.ofNat 64 (s.tick 5 + edges)) }
  .next (if s.takesLine cam then (s1.endLine cam).beginLine cam else s.endLine cam)

/-- Pixels of a packet join the line in progress (R294, R298). -/
def PoolRow.take (x : PoolRow) (codes : List (BitVec 16)) (crcOk : Bool) : PoolRow :=
  let all := x.pixels ++ codes
  { x with pixels := all.take x.xsize, lenErr := x.lenErr || decide (x.xsize < all.length), crcErr := x.crcErr || !crcOk }

/-- STREAM_PACKET (R298). `pixels` are the values that CoaXPress 2.1's unpacking gives, which the spec leaves to that standard
(log 17). -/
def execStreamPacket (cam : CamId) (pixels : List (BitVec 16)) (crcOk : Bool) (s : State) : Res :=
  .next (match (s.cam cam).rows.find? (fun x => x.isOpen) with
    | none => s
    | some x =>
      let src := s.rd Reg.HOP_CAM_CFG_SRC 0 cam
      let al := s.on Reg.HOP_CAM_CFG_ALIGN 0 cam
      let codes := pixels.map (fun p => BitVec.ofNat 16 (delivered src x.deliv al p.toNat))
      let s1 := s.modCam cam (fun k => { k with rows := modFirst (fun y => y.isOpen) (fun y => y.take codes crcOk) k.rows })
      if !crcOk && !x.crcErr then s1.bump Reg.HOP_CONN_CRC_COUNT 0 (s.camMaster cam) 1 else s1)

/-- The DRAM copy of a plan is valid (R308): it ends within the DRAM, of which a spare reserve in use is no part (R376). -/
def State.dramCopyOk (s : State) (p : Nat) : Bool :=
  let top := if s.on Reg.DRAM_MAP_RSV_USED 0 0 then 0x1C_0000_0000 else 0x20_0000_0000
  s.on Reg.HOP_PLAN_ROWS_DRAM_ROWS 0 p && decide (s.rd Reg.HOP_PLAN_BASE_DRAM_BASE 0 p
    + s.rd Reg.HOP_PLAN_ROWS_DRAM_ROWS 0 p * s.rd Reg.HOP_PLAN_PITCH_DRAM_PITCH 0 p ≤ top)

/-- A core meets a new swath of a camera: it is told the end of the last one; a core that takes none of its rows turns over
at once (R314, R315). A core out of service meets none (R322). -/
def State.coreMeets (s : State) (c : CamId) (n : CoreId) (swath rows : Nat) : State :=
  if s.coreOk n then
    match s.servingRing c n with
    | none => s.turnover c n none (swath + 1) [] 1
    | some r =>
      let s1 := s.tellEnd n r swath rows
      let p := s1.pipe n r
      if !p.valid && decide (p.swath = swath) then s1.turnover c n (some r) (swath + 1) p.ends 1 else s1
  else s

/-- An image header (R299, R307, R308, R314): the swath count advances, the plan's copy fields activate, and the cores meet
the new swath. -/
def State.imageHeader (s : State) (c : CamId) (xsize ysize : Nat) (src : Mono) : State :=
  let k0 := s.cam c
  let p := s.camPlan c
  let s1 := ((s.activate Reg.HOP_PLAN_CTL 0 p).activate Reg.HOP_PLAN_BASE 0 p).activate Reg.HOP_PLAN_PITCH 0 p
  let s2 := s1.activate Reg.HOP_PLAN_ROWS 0 p
  let ok := s2.on Reg.HOP_PLAN_CTL_DRAM_EN 0 p && s2.dramCopyOk p
  let s3 := if s2.on Reg.HOP_PLAN_CTL_DRAM_EN 0 p && !s2.dramCopyOk p then s2.hopEvent 0x861 c [p, 7] else s2
  let back := decide (s.camState c = camIdle)
  let s4 := s3.modCam c (fun k =>
    { k with swath := k0.swath + 1, nextRow := 0, hdrX := xsize, hdrY := ysize, hdrSrc := some src, dramOk := ok,
             linkLost := k.linkLost && !back })
  let s5 := (List.finRange 6).foldl (fun (x : State) (n : Fin 6) => x.coreMeets c n k0.swath k0.nextRow) s4
  (s5.setCamState c camStream).poolSync c

/-- IMAGE_HEADER (R307): the line in progress ends (R298), and a camera that is discovered streams the new image. -/
def execImageHeader (cam : CamId) (xsize ysize : Nat) (src : Mono) (s : State) : Res :=
  .next (if s.on Reg.HOP_CTRL_EN 0 0 && (decide (s.camState cam = camIdle) || decide (s.camState cam = camStream)) then
      (s.endLine cam).imageHeader cam xsize ysize src
    else s.endLine cam)

/-- HOP_CTRL takes a value (R306): with EN 0 nothing streams, so every line in progress ends there, and a streaming camera is IDLE until
its next image header (DEDUCED, log 17). -/
def State.hopCtrlWritten (s : State) : State :=
  if s.on Reg.HOP_CTRL_EN 0 0 then s
  else (List.finRange 16).foldl (fun (x : State) (c : CamId) =>
    let y := x.endLine c
    if y.camState c = camStream then y.setCamState c camIdle else y) s

/-! ## Pieces -/

/-- The row a ring takes next, when the Hopper holds its pixels, or its header is fixed (R301). -/
def State.nextPiece (s : State) (c : CoreId) (r : Nat) (pixels : Bool) : Option (CamId × PoolRow) :=
  let p := s.pipe c r
  match p.cam with
  | none => none
  | some cam =>
    let k := s.rd Reg.PIPE_RING_FILL_FILL c r
    ((s.cam cam).rows.find? (fun x => decide (x.swath = p.swath) && decide (x.row = k) && (if pixels then x.complete else x.full)
      && x.todo.any (fun t => t.core == c && t.pixels == pixels))).map (fun x => (cam, x))

/-- The bytes of a piece (R35, R36, R310): `width` pixels from `xoff`, packed, an odd row of U12 padded by code 0, the rest of the last
line 0. -/
def pieceBytes (bits width xoff : Nat) (pixels : List (BitVec 16)) (xsize : Nat) : List Byte :=
  let code (i : Nat) : Nat := if xoff + i < xsize then (pixels.getD (xoff + i) 0).toNat else 0
  let elems := if bits = 12 then (width + 1) / 2 * 2 else width
  leBytes ((elems * bits / 8 + 63) / 64 * 64) ((List.range width).foldr (fun i acc => acc * 2 ^ bits + code i % 2 ^ bits) 0)

/-- Marks a core's piece of a row. -/
def State.modPiece (s : State) (cam : CamId) (x : PoolRow) (f : List PieceTodo → List PieceTodo) : State :=
  let here (y : PoolRow) : Bool := y.swath == x.swath && y.row == x.row
  s.modCam cam (fun k => { k with rows := modFirst here (fun (y : PoolRow) => { y with todo := f y.todo }) k.rows })

/-- Whether the Hopper holds the next write of a ring's row: the row is not free (R312), or the core is under an Assay slice (R496). -/
def State.rowHeld (s : State) (c : CoreId) (ring : Nat) (x : PoolRow) : Bool :=
  !(s.pipe c ring).valid || decide (s.rd Reg.PIPE_RING_REL_REL c ring + s.geoRows c ring ≤ x.row) || s.underTest c

/-- The Hopper's write to a Granary (R187, R188, R196, R203): it waits for READY, for the fill of the regions it touches and for its
grants at the write port's Tollgate. -/
def State.hopWrite (s : State) (c : CoreId) (off : Nat) (bs : List Byte) : Option State :=
  if !s.on Reg.GRAN_STAT_READY c 0
      || (linesOf off bs.length).any (fun l => (s.core c).gran.fill.contains (l * 64 / 0x40000)) then none
  else (s.useGrants 6 (s.transfers true (granAddr c off) bs.length)).map (·.granWrite c off bs)

/-- PIECE_WRITE (R301, R310): the pixels of the next row enter a free ring row; a row that is not free holds the piece for that
xc. -/
def execPieceWrite (c : CoreId) (ring : Fin 16) (s : State) : Res :=
  .next (match s.nextPiece c ring false with
    | none => s
    | some (cam, x) =>
      if s.rowHeld c ring x then s.bump Reg.PIPE_HOLD_XC_COUNT c 0 1
      else
        let i := pieceIdx (s.pipe c ring).plan c
        let bs := pieceBytes (delivBits x.deliv) (s.rd Reg.HOP_PIECEW_PIECE_W 0 i) (s.rd Reg.HOP_PIECE_XOFF 0 i) x.pixels x.xsize
        match s.hopWrite c (s.geoBase c ring + x.row % s.geoRows c ring * s.geoPitch c ring) bs with
        | none => s
        | some s1 => s1.modPiece cam x (fun l => l.map (fun (t : PieceTodo) => if t.core == c then { t with pixels := true } else t)))

/-- The stripe header of a row for a core, of the piece with index `i` (R302). -/
def State.headerBytes (s : State) (cam : CamId) (i : Nat) (x : PoolRow) : List Byte :=
  let flags := bit01 (x.loss != 0) + 2 * bit01 x.crcErr + 4 * bit01 x.lenErr + 8 * bit01 x.last + 16 * x.loss
  leBytes 4 x.row ++ leBytes 4 x.shown ++ leBytes 8 x.tick ++ leBytes 2 (x.xsize + 65535)
    ++ leBytes 2 (s.rd Reg.HOP_PIECEW_PIECE_W 0 i) ++ leBytes 2 (s.rd Reg.HOP_PIECE_XOFF 0 i)
    ++ [BitVec.ofNat 8 (cam.val + 16 * delivFmt x.deliv), BitVec.ofNat 8 flags]
    ++ leBytes 2 x.conns.toNat ++ [0, 0] ++ leBytes 4 x.lostTotal ++ List.replicate 32 0

/-- HEADER_WRITE_DONE (R301, R310, R314): the header is in, FILL advances; LAST makes the end known. -/
def execHeaderWriteDone (c : CoreId) (ring : Fin 16) (s : State) : Res :=
  .next (match s.nextPiece c ring true with
    | none => s
    | some (cam, x) =>
      if s.rowHeld c ring x then s.bump Reg.PIPE_HOLD_XC_COUNT c 0 1
      else
        let i := pieceIdx (s.pipe c ring).plan c
        let off := s.rd Reg.HOP_PIECEH_HDR_BASE 0 i * 64 + x.row % s.geoRows c ring * 64
        match s.hopWrite c off (s.headerBytes cam i x) with
        | none => s
        | some s1 =>
          let s2 := (s1.modPiece cam x (fun l => l.filter (fun t => t.core != c))).setFill c ring (x.row + 1)
          let s3 := if x.last then s2.ringEnd c ring (x.row + 1) else s2
          (s3.modCam cam (·.pruneRuns)).poolSync cam)

/-- DRAM_COPY_WRITE (R311): the oldest line of a camera whose copy is still to write, by its grants at the channels (R380). -/
def execDramCopyWrite (cam : CamId) (s : State) : Res :=
  .next (match (s.cam cam).rows.find? (fun x => x.dram && x.full) with
    | none => s
    | some x =>
      let pitch := s.rd Reg.HOP_PLAN_PITCH_DRAM_PITCH 0 x.plan
      let bits := delivBits x.deliv
      let bs := ((pieceBytes bits x.xsize 0 x.pixels x.xsize).take ((x.xsize * bits + 511) / 512 * 64)).take pitch
      let a := s.rd Reg.HOP_PLAN_BASE_DRAM_BASE 0 x.plan + x.row % s.rd Reg.HOP_PLAN_ROWS_DRAM_ROWS 0 x.plan * pitch
      match s.useGrants 6 (s.transfers true a bs.length) with
      | none => s
      | some s1 => (s1.linesPut 6 a bs).2.modCam cam (fun k =>
          { k with rows := modFirst (fun y => y.dram && y.full) (fun (y : PoolRow) => { y with dram := false }) k.rows }))

/-- LINE_FREE (R27, R296): the oldest line that every core and the copy have; its blocks return. -/
def execLineFree (cam : CamId) (s : State) : Res :=
  let gone (x : PoolRow) : Bool := x.complete && x.todo.isEmpty && !x.dram
  .next (match (s.cam cam).rows.find? gone with
    | none => s
    | some x => (s.modCam cam (fun k =>
        ({ k with rows := k.rows.filter (fun y => !(y.swath == x.swath && y.row == x.row)) } : Cam).pruneRuns)).poolSync cam)

/-- SWATH_TURNOVER (R315): the Hopper observes that REL has reached END_ROWS; `held` are the xc that lines of the next swath
waited, where there are any. -/
def execSwathTurnover (c : CoreId) (ring : Fin 16) (held : Nat) (s : State) : Res :=
  let p := s.pipe c ring
  .next (match p.cam with
    | none => s
    | some cam =>
      if s.on Reg.PIPE_RING_STAT_END c ring
          && decide (s.rd Reg.PIPE_RING_REL_REL c ring = s.rd Reg.PIPE_RING_END_ROWS c ring) then
        let waits := (s.cam cam).rows.any (fun x => decide (p.swath < x.swath) && x.todo.any (fun t => t.core == c))
        ((s.turnover cam c (some ring.val) (p.swath + 1) p.ends ((s.cam cam).swath - p.swath + 1)).bump
          Reg.PIPE_HOLD_XC_COUNT c 0 (if waits then held else 0)).poolSync cam
      else s)

/-! ## Links, discovery, triggers and control -/

/-- The line in progress of a camera is dropped with cause LINK (R304); one that has all its pixels is kept (DEDUCED, log 17). -/
def State.loseOpen (s : State) (c : CamId) : State :=
  match (s.cam c).rows.find? (fun x => x.isOpen) with
  | none => s
  | some x =>
    if x.full then s.endLine c
    else
      let k0 := s.cam c
      let full := !k0.lastLost && decide (64 ≤ k0.runs.length)
      let cause := if full || k0.runFull then 2 else 3
      let s1 := if full then s.modCam c (fun k => { k with runFull := true }) else s
      let s2 := s1.loseLine c x.swath x.row cause
      let total := (s2.cam c).lostTotal
      let drop (y : PoolRow) : PoolRow :=
        { y with isOpen := false, loss := cause, blocks := 0, pixels := [], dram := false, lostTotal := total,
                 todo := y.todo.map (fun (t : PieceTodo) => { t with pixels := true }) }
      s2.modCam c (fun k => ({ k with rows := modFirst (fun y => y.isOpen) drop k.rows } : Cam).pruneRuns)

/-- A connection is down (R304): UP clears, the event is raised, and the lines of the camera that it carries are lost. -/
def State.connDown (s : State) (n : Nat) : State :=
  let cam := s.connCam n
  let s1 := (s.put Reg.HOP_CONN_STAT_UP 0 n 0).hopEvent 0x844 n [n, (cam.map (·.val)).getD 0]
  match cam with
  | none => s1
  | some c =>
    if (s.cam c).conns.getLsbD n && (decide (s.camState c = camStream) || decide (s.camState c = camIdle)) then
      ((s1.loseOpen c).modCam c (fun k => { k with linkLost := true })).poolSync c
    else s1

/-- HOP_LINK_DOWN (R304). -/
def execHopLinkDown (conn : CamId) (s : State) : Res :=
  .next (if s.on Reg.HOP_CONN_STAT_UP 0 conn then s.connDown conn else s)

/-- WORD_ALIGNMENT (R304): a connection in service reaches word alignment. -/
def execWordAlignment (conn : CamId) (s : State) : Res :=
  .next (if s.on Reg.HOP_CONN_STAT_OK 0 conn then s.put Reg.HOP_CONN_STAT_UP 0 conn 1 else s)

/-- The largest of 1, 2, 4 and 8 that does not exceed a count (R305). -/
def connCount (n : Nat) : Nat := if n = 0 then 0 else min 8 (2 ^ Nat.log2 n)

/-- A camera's binding is no longer started (R292, R306): its line in progress ends, and it uses no connection. -/
def State.unbind (s : State) (c : CamId) (x : Nat) : State :=
  (((s.endLine c).freeConns c).modCam c (fun k => { k with linkLost := false, sparing := false })).setCamState c x

/-- Every binding is judged (R292, R309): a disabled one is OFF, an enabled one that may not be started INVALID; one that may be again
waits for its discovery. -/
def State.judgeBindings (s : State) : State :=
  (List.finRange 16).foldl (fun (x : State) (c : CamId) =>
    if !x.on Reg.HOP_CAM_CFG_EN 0 c then (if x.camState c = camOff then x else x.unbind c camOff)
    else if !x.bindingOk c then (if x.camState c = camInvalid then x else x.unbind c camInvalid)
    else if x.camState c = camInvalid then x.setCamState c camOff else x) s

/-- The connections a discovery uses (R291, R305): the whole group at the binding's count; in a sparing, of the healthy ones the largest
count allowed; none where the count cannot be had. -/
def State.discoverConns (s : State) (c : CamId) : List Nat :=
  let group := s.camGroup c
  let usable := group.filter (fun n => s.on Reg.HOP_CONN_STAT_OK 0 n)
  if usable.length = group.length then group else if (s.cam c).sparing then usable.take (connCount usable.length) else []

/-- The connections a discovery has chosen carry the camera (R292, R305, R306): those that passed the check hold alignment. -/
def State.bindConns (s : State) (c : CamId) (used : List Nat) (master : Nat) : State :=
  let s1 := ((s.camGroup c).filter (fun n => s.on Reg.HOP_CONN_STAT_OK 0 n)).foldl
    (fun (x : State) n => x.put Reg.HOP_CONN_STAT_UP 0 n 1) (s.freeConns c)
  let s2 := used.foldl (fun (x : State) n =>
    ((x.put Reg.HOP_CONN_STAT_CAM 0 n c).put Reg.HOP_CONN_STAT_MASTER 0 n (bit01 (n == master))).put Reg.HOP_CONN_STAT_SPEED_ACT 0 n
      (x.rd Reg.HOP_CAM_CFG_SPEED 0 c)) s1
  s2.modCam c (fun k => { k with conns := BitVec.ofNat 16 (used.foldl (fun m n => m ||| 2 ^ n) 0) })

/-- Discovery of a camera (R291, R292, R304, R305, R309): `up` are the connections that pass the receiver check, `master`
the one on which its master connection is found. A camera bound anew counts its headers and lost lines from here (R302). -/
def State.discover (s : State) (c : CamId) (up : BitVec 16) (master : CamId) (found : Bool) : State :=
  if !s.on Reg.HOP_CAM_CFG_EN 0 c then s.setCamState c camOff
  else if !s.bindingOk c then s.setCamState c camInvalid
  else
    let s0 := if s.camState c = camOff ∨ s.camState c = camInvalid then
        (s.modCam c (fun k => { k with bound := k.swath, lostTotal := 0 })).setCamState c camDiscover else s
    let bad := (s0.camGroup c).filter (fun n => s0.on Reg.HOP_CONN_STAT_OK 0 n && !up.getLsbD n)
    let s1 := (bad.foldl (fun x n => x.connDown n) s0).endLine c
    let used := s1.discoverConns c
    let s2 := if found && bad.isEmpty && used.contains master.val then (s1.bindConns c used master).setCamState c camIdle
      else s1.setCamState c camDown
    s2.modCam c (fun k => { k with sparing := false })

/-- DISCOVERY (R291). -/
def execDiscovery (cam : CamId) (up : BitVec 16) (master : CamId) (found : Bool) (s : State) : Res :=
  .next (s.discover cam up master found)

/-- A retirement or repair event carries into the journal when it is granted; a connection is retired here (R305). -/
def State.retireConn (s : State) (n : Nat) : State :=
  (s.put Reg.HOP_CONN_STAT_OK 0 n 0).raise 0xC45 10 n 6 6 [n]

/-- CONNECTION_SPARING (R305) of a down connection of a started camera's group: `resetOk` tells whether one of the three resets
succeeded. -/
def execConnectionSparing (conn : CamId) (resetOk : Bool) (s : State) : Res :=
  .next (match s.connCam conn with
    | none => s
    | some cam =>
      if s.on Reg.HOP_CONN_STAT_UP 0 conn || !s.on Reg.HOP_CONN_STAT_OK 0 conn then s
      else if !s.on Reg.HOP_CTRL_SPARE_AUTO 0 0 then s.setCamState cam camDown
      else
        let s1 := if resetOk then s else s.retireConn conn
        let left := (s1.camGroup cam).filter (fun n => s1.on Reg.HOP_CONN_STAT_OK 0 n)
        if left.isEmpty then s1.setCamState cam camDown
        else (s1.modCam cam (fun k => { k with sparing := true })).setCamState cam camDiscover)

/-- A GO to HOP_TRIG (R303). -/
def State.trigger (s : State) (c : CamId) (falling : Bool) : State :=
  let ok := (decide (s.camState c = camStream) || decide (s.camState c = camIdle)) && decide ((s.cam c).trigQ.length < 4)
  if ok then s.modCam c (fun k => { k with trigQ := k.trigQ ++ [falling] })
  else (s.bump Reg.HOP_CAM_STAT_TRIG_DROP 0 c 1).hopEvent 0x843 c [c.val]

/-- HOP_TRIG (R303). -/
def execHopTrig (cam : CamId) (falling : Bool) (s : State) : Res := .next (s.trigger cam falling)

/-- TRIGGER_SEND (R303). -/
def execTriggerSend (cam : CamId) (s : State) : Res :=
  .next (match (s.cam cam).trigQ with
    | [] => s
    | e :: rest => (s.modCam cam (fun k => { k with trigQ := rest })).emit (.trigger cam e))

/-- A control command is sent, or waits behind the one outstanding (R291). -/
def State.camSend (s : State) (c : CamId) (m : CamCmd) : State :=
  if (s.cam c).cmdOut.isNone then (s.modCam c (fun k => { k with cmdOut := some m })).emit (.camera c m)
  else s.modCam c (fun k => { k with cmdQ := k.cmdQ ++ [m] })

/-- The outstanding control command completes with a code and the data read, answered if its session is still open; the next one
is sent (R291, R431). -/
def State.camDone (s : State) (c : CamId) (code : Nat) (data : List Byte) : State :=
  match (s.cam c).cmdOut with
  | none => s
  | some m =>
    let s1 := if m.msg / 2 ^ 32 = s.host.session then
        ({ s with host := { s.host with camOut := s.host.camOut - 1 } } : State).hostRespond 0x07 (m.msg % 2 ^ 32) code
          (if m.write then [] else data)
      else s
    let s2 := s1.modCam c (fun k => { k with cmdOut := none })
    match (s2.cam c).cmdQ with
    | [] => s2
    | n :: rest => (s2.modCam c (fun k => { k with cmdQ := rest })).camSend c n

/-- CONTROL_ACK (R291). -/
def execControlAck (cam : CamId) (data : List Byte) (s : State) : Res := .next (s.camDone cam codeOk data)

/-- CONTROL_TIMEOUT (R291). -/
def execControlTimeout (cam : CamId) (s : State) : Res := .next (s.camDone cam errTimeout [])

/-- DEVICE_EVENT_PACKET (R290): acknowledged, and to be passed to the host. -/
def execDeviceEventPacket (cam : CamId) (data : List Byte) (s : State) : Res :=
  .next (({ s with host := { s.host with camEvents := s.host.camEvents ++ [(cam.val, data)] } } : State).emit (.camAck cam))

end Sys2Proof.Machine
end

