-- ==== Sys2Proof/Machine/Agen.lean ====
section
/-! DEFINITION. The window address generator (09 R263..R288) and the activation expanders (07 R210, R211, R214): what each
element of each position delivers. -/

namespace Sys2Proof.Machine

/-- What the generator delivers for an element (R267): C21 +0 it substitutes, a code with its zero point and scale, or a
value the spec leaves open. -/
inductive AElem where
  | zero
  | code (fmt : Fmt) (x : Nat) (zp : Int) (scale : Nat)
  | given (x : Nat)
deriving DecidableEq, Repr

/-- An element fetched: what is delivered, the Granary bytes read for it (offset, length), the absent ZC group it lies in, with its tap
(R283), and the stored row whose ZC segment overran (R284). -/
structure Fetch where
  val : AElem
  reads : List (Nat × Nat)
  absent : Option Nat
  beyond : Option Nat
deriving DecidableEq, Repr

/-- A job as the generator sees it: its core, window base, descriptors, and QSF entry A. -/
structure AgenJob where
  core : CoreId
  base : Nat
  d : Line
  a : Line
  qsf : Qsf

/-- The stored row of a stripe row of the map (R265). -/
def storedRow (a : Line) (v : Nat) : Nat := if actYMod a = 0 then v else (actYLo a + v) % actYMod a

/-- Reflection (R267). -/
def reflN (x : Int) (n : Nat) : Nat :=
  if n ≤ 1 then 0
  else
    let p := (x % (2 * (n : Int) - 2)).toNat
    if p < n then p else 2 * n - 2 - p

/-- A row-scale entry at a window offset: zero point, scale and the bytes read (R258, R281). -/
def State.rowScale (s : State) (j : AgenJob) (off : Nat) : Int × Nat × (Nat × Nat) :=
  let bs := s.granBytes j.core (j.base + off) 8
  (zpOf (jobFmtA j.d) (leNat ((bs.drop 4).take 2)), leNat (bs.take 4), (j.base + off, 8))

/-- scale_of at a stored pixel (R210, R267, R281). -/
def State.scaleAt (s : State) (j : AgenJob) (row u cp : Nat) : Int × Nat × List (Nat × Nat) :=
  if jobAsc j.d then
    let (zp, es, rd) := s.rowScale j (actScl j.a + (row * actSL j.a + cp / 128) * actSRP j.a + u * 8)
    (zp, es, [rd])
  else (zpOf (jobFmtA j.d) j.qsf.zp, j.qsf.es, [])

/-- The element `i` of a packed run of bytes at a window offset (R35): its code and the bytes read. -/
def State.packedElem (s : State) (j : AgenJob) (off i : Nat) : Nat × (Nat × Nat) :=
  let w := fmtBits (jobFmtA j.d)
  let bit := (j.base + off) * 8 + i * w
  (s.granCode j.core bit w, (bit / 8, (bit % 8 + w + 7) / 8))

/-- An element of a ZC segment (R282, R283): `c` is the channel, `u` the pixel, `row` the stored row. -/
def State.zcElem (s : State) (j : AgenJob) (row u c : Nat) (zp : Int) (es : Nat) : Fetch :=
  let f := jobFmtA j.d
  let seg := j.base + actBase j.a + row * actPitch j.a
  let gp := actGP j.a f
  let mb := actMB j.a f
  let i := u * gp + c * fmtBits f / 128
  let k := i / 512
  let bitAt (b : Nat) : Nat := bitsOf ((s.granBytes j.core (seg + 192 + b / 8) 1).headD 0).toNat (b % 8) 1
  let maskRead := (seg + 192 + 64 * k, 64)
  if bitAt i = 0 then { val := .zero, reads := [maskRead], absent := some (row * 2 ^ 15 + i), beyond := none }
  else
    let pfx := leNat (s.granBytes j.core (seg + 2 * k) 2)
    let nz := leNat (s.granBytes j.core (seg + 128) 2)
    let idx := pfx + ((List.range (i - 512 * k)).map (fun b => bitAt (512 * k + b))).foldl (· + ·) 0
    let heads := [maskRead, (seg + 2 * k, 2), (seg + 128, 2)]
    if nz ≤ idx ∨ actPitch j.a < 192 + mb + 16 * nz then { val := .zero, reads := heads, absent := none, beyond := some row }
    else
      let bit := (seg + 192 + mb + 16 * idx) * 8 + c * fmtBits f % 128
      { val := .code f (s.granCode j.core bit (fmtBits f)) zp es,
        reads := heads ++ [(bit / 8, (bit % 8 + fmtBits f + 7) / 8)], absent := none, beyond := none }

/-- fetch (R263, R267, R277, R278): the presented element (v, u, cp), within the map. -/
def State.fetchElem (s : State) (j : AgenJob) (v u cp : Nat) : Fetch :=
  let a := j.a
  let f := jobFmtA j.d
  let plain (x : Nat) (zp : Int) (es : Nat) (rd : List (Nat × Nat)) : Fetch :=
    { val := .code f x zp es, reads := rd, absent := none, beyond := none }
  let rowAt (y : Nat) : Nat := actBase a + storedRow a y * actPitch a
  if actS2D a then
    let g := actF a
    let q := cp / actC a
    let y := v * g + q / g
    let x := u * g + q % g
    if actH a ≤ y ∨ actW a ≤ x then { val := .zero, reads := [], absent := none, beyond := none }
    else
      let (zp, es, _) := s.scaleAt j 0 0 0
      let (code, rd) := s.packedElem j (rowAt y) (x * actC a + cp % actC a)
      plain code zp es [rd]
  else if actD2S a then
    let g := actF a
    let (zp, es, _) := s.scaleAt j 0 0 0
    let (code, rd) := s.packedElem j (rowAt (v / g) + u / g * actPix a) ((v % g * g + u % g) * actCP a + cp)
    plain code zp es [rd]
  else
    let (zp, es, rs) := s.scaleAt j (storedRow a v) u cp
    match actLayout a with
    | 0 =>
      let (code, rd) := s.packedElem j (rowAt v + u * actPix a) cp
      plain code zp es (rs ++ [rd])
    | 1 =>
      let (code, rd) := s.packedElem j (rowAt v) (u * actC a + cp)
      plain code zp es (rs ++ [rd])
    | _ =>
      let r := s.zcElem j (storedRow a v) u cp zp es
      { r with reads := rs ++ r.reads }

/-- The element `e` of position `m` in window addressing (R267). -/
def State.windowFetch (s : State) (j : AgenJob) (m e : Nat) : Fetch :=
  let a := j.a
  let nothing (x : AElem) : Fetch := { val := x, reads := [], absent := none, beyond := none }
  let tap := e / actCJ a
  let cp := actC0 a + e % actCJ a
  let v : Int := ((actOY0 a + m / actPW a) * actSY a : Nat) - (actPadT a : Int)
    + ((actKY0 a + tap / actKW a) * actDY a : Nat)
  let u : Int := ((actOX0 a + m % actPW a) * actSX a : Nat) - (actPadL a : Int)
    + ((actKX0 a + tap % actKW a) * actDX a : Nat)
  if actCP a ≤ cp then nothing .zero
  else if 0 ≤ v ∧ v < actHP a ∧ 0 ≤ u ∧ u < actWP a then s.fetchElem j v.toNat u.toNat cp
  else
    match actBorder a with
    | 0 => nothing .zero
    | 1 =>
      if actHP a = 0 ∧ jobAsc j.d then nothing (.given (Config.noRowElem m e).toNat)
      else
        let (zp, es, rs) := s.scaleAt j (storedRow a (clampN v (actHP a))) (clampN u (actWP a)) cp
        { val := .code (jobFmtA j.d) (actConst a % 2 ^ fmtBits (jobFmtA j.d)) zp es, reads := rs, absent := none,
          beyond := none }
    | 2 =>
      if actHP a = 0 then nothing (.given (Config.noRowElem m e).toNat)
      else s.fetchElem j (clampN v (actHP a)) (clampN u (actWP a)) cp
    | _ =>
      if actHP a = 0 then nothing (.given (Config.noRowElem m e).toNat)
      else s.fetchElem j (reflN v (actHP a)) (reflN u (actWP a)) cp

/-- The element with its absent group told apart by the tap that meets it. -/
def State.windowElem (s : State) (j : AgenJob) (m e : Nat) : Fetch :=
  let r := s.windowFetch j m e
  { r with absent := r.absent.map (fun i => e / actCJ j.a * 2 ^ 32 + i) }

/-- The element `e` of position `m` in matrix addressing (R279). -/
def State.matrixElem (s : State) (j : AgenJob) (m e : Nat) : Fetch :=
  let (zp, es, rs) := if jobAsc j.d then
      let (zp, es, rd) := s.rowScale j (actScl j.a + 8 * m)
      (zp, es, [rd])
    else (zpOf (jobFmtA j.d) j.qsf.zp, j.qsf.es, [])
  let (code, rd) := s.packedElem j (actBase j.a + m * actPitch j.a) e
  { val := .code (jobFmtA j.d) code zp es, reads := rs ++ [rd], absent := none, beyond := none }

/-- The elements of tile `t` at position `m`, in K order. -/
def State.tileElems (s : State) (j : AgenJob) (t m : Nat) : List Fetch :=
  (List.range (jobRows j.d t)).map (fun e =>
    if jobMode j.d = 1 then s.matrixElem j m (t * jobTW j.d + e) else s.windowElem j m (t * jobTW j.d + e))

/-- The expanded value of an element without rotation (R55, R56, R210). -/
def expandElem (x : AElem) : Conv :=
  match x with
  | .zero => ⟨0, false, false⟩
  | .given x => ⟨x, false, false⟩
  | .code f x zp es => expandC21 f x zp es

/-- d of R55: the exact value of a code relative to its zero point. -/
def elemD (x : AElem) : Val :=
  match x with
  | .zero => .fin false 0 1
  | .given x => decodeVal .c21 x
  | .code f x zp _ =>
    if fmtInt f then
      match decodeVal f x with
      | .fin neg n _ => valInt (signNum neg n - zp)
      | v => v
    else decodeVal f x

/-- The scale of a rotation block: that of its codes; a block of substituted zeros has any (R214). -/
def blockScale (xs : List AElem) : Nat :=
  (xs.findSome? (fun x => match x with | .code _ _ _ es => some es | _ => none)).getD 0x3F800000

/-- The rotated elements of one block (R214): exact signed sums, one rounding. -/
def rotateBlock (rsc : Nat) (xs : List AElem) : List Conv :=
  let ds := xs.map elemD
  let sc := mulVal (decodeVal .fp32 (blockScale xs)) (decodeVal .fp32 rsc)
  (List.range xs.length).map (fun k =>
    let t := ((List.range xs.length).zip ds).foldl (fun t (e : Nat × Val) =>
      addVal t (if popcount 7 (e.1 &&& k) % 2 = 0 then e.2 else negVal e.2)) (Val.fin false 0 1)
    satFloat 0 .c21 (mulVal t sc))

/-- Cuts a list into blocks; at most `fuel`. -/
def blocksOf {α : Type} (n : Nat) (xs : List α) : Nat → List (List α)
  | 0 => []
  | fuel + 1 => if xs.isEmpty then [] else xs.take n :: blocksOf n (xs.drop n) fuel

/-- The expanded activations of a position of a tile (R210, R214). -/
def expandAll (d : Line) (xs : List AElem) : List Conv :=
  if jobBlock d = 0 then xs.map expandElem
  else ((blocksOf (jobBlock d) xs (xs.length / jobBlock d)).map (rotateBlock (jobRsc d))).flatten

end Sys2Proof.Machine
end

