-- ==== Sys2Proof/Machine/Tally.lean ====
section
/-! DEFINITION. The Tally (08 R241..R259, R262): steps, observation, proposals, and the rows TALLY_STEP_CLOSE, TALLY_CLOSE
and TALLY_PROPOSAL. -/

namespace Sys2Proof.Machine

/-- Slot `t` of a core's Tally. -/
def State.slot (s : State) (c : CoreId) (t : Nat) : TallySlot := cellGet TallySlot.idle (s.core c).tally t

/-- Replaces a slot, with PSTAT.OPEN as its state gives it (R262). -/
def State.setSlot (s : State) (c : CoreId) (t : Nat) (k : TallySlot) : State :=
  (s.setCore c { s.core c with tally := cellPut TallySlot.idle (s.core c).tally t k }).put Reg.TALLY_SLOT_PSTAT_OPEN c t
    (bit01 (k.isOpen || k.full || k.closed))

/-- The format of a slot's codes. -/
def State.slotFmt (s : State) (c : CoreId) (t : Nat) : Fmt := fmtOf (s.rd Reg.TALLY_SLOT_CFG_FMT c t)

/-- A close is pending for a slot: its step is full, until the proposal is written (R245). -/
def TallySlot.pendingClose (k : TallySlot) : Bool := k.full || k.closed

/-- A job latches into a slot (R243, R245): the first latch opens a step under the shadows of SCALE and ZP. -/
def State.tallyLatch (s : State) (c : CoreId) (t : Nat) : State :=
  let k := s.slot c t
  let s1 := if k.isOpen then s else (s.activate Reg.TALLY_SLOT_SCALE c t).activate Reg.TALLY_SLOT_ZP c t
  let n := k.latched + 1
  let jobs := s.rd Reg.TALLY_SLOT_LIM_STEP_JOBS c t
  s1.setSlot c t { k with isOpen := true, latched := n, full := decide (jobs ≠ 0) && decide (jobs ≤ n) }

/-! ## Scales -/

/-- A positive finite value as a fraction. -/
def posFrac (code : Nat) : Option (Nat × Nat) :=
  match decodeVal .fp32 code with
  | .fin false n d => if n = 0 then none else some (n, d)
  | _ => none

/-- mshift of R241 for the scale `n / d`: multiplier, shift, and whether it was clipped. -/
def mshift (n d q : Nat) : Nat × Nat × Bool :=
  let m (sh : Nat) : Nat := (rndQ (d * 2 ^ sh : Nat) (n * 2 ^ q) .rne).toNat
  match (List.range 64).reverse.find? (fun sh => decide (m sh ≤ 2 ^ 32 - 1)) with
  | some sh => if m sh = 0 then (1, 63, true) else (m sh, sh, false)
  | none => (2 ^ 32 - 1, 0, true)

/-- mshift of an FP32 scale (R241). A negative scale's first multiplier is below 2^32, so the loop ends at shift 63; how a negative
multiplier lies in M's 32 bits the spec does not say, nor what a scale without a reciprocal gives: free values (log 2, 15). -/
def State.mshiftOf (s : State) (code q : Nat) : (Nat × Nat × Bool) × State :=
  match posFrac code, decodeVal .fp32 code with
  | some (n, d), _ => (mshift n d q, s)
  | none, .fin true n d =>
    if n = 0 then
      let (x, s1) := s.draw 39
      ((bitsOf x.toNat 0 32, bitsOf x.toNat 32 6, x.getLsbD 38), s1)
    else if rndQ (d * 2 ^ 63 : Nat) (n * 2 ^ q) .rne = 0 then ((1, 63, true), s)
    else
      let (x, s1) := s.draw 32
      ((x.toNat, 63, false), s1)
  | none, _ =>
    let (x, s1) := s.draw 39
    ((bitsOf x.toNat 0 32, bitsOf x.toNat 32 6, x.getLsbD 38), s1)

/-- The exact quotient of a finite value by a scale, as a signed numerator and a denominator; 0 for an infinite scale. -/
def quot (v scale : Val) : Int × Nat :=
  match v, scale with
  | .fin a n d, .fin b m e => if m = 0 then (0, 1) else (signNum (a != b) (n * e), d * m)
  | _, _ => (0, 1)

/-- Whether a value in code units, plus the zero point, lies at or beyond half a step outside the code range (R247). -/
def outside (f : Fmt) (zp : Int) (x : Int) (d : Nat) : Bool :=
  decide ((2 * hiCode f + 1) * d ≤ 2 * (x + zp * d)) || decide (2 * (x + zp * d) ≤ (2 * loCode f - 1) * d)

/-- A count of 48 bits that stops at its largest value (R247). -/
def cap48 (n : Nat) : Nat := min n (2 ^ 48 - 1)

/-- A slot observes one FP32 entry under a step's scale and zero point (R247). -/
def TallySlot.observe (k : TallySlot) (f : Fmt) (scale : Nat) (zp : Int) (v : Nat) : TallySlot :=
  match decodeVal .fp32 v with
  | .nan => k
  | .inf _ => { k with tot := cap48 (k.tot + 1), sat := cap48 (k.sat + 1) }
  | .fin _ _ _ =>
    let (x, d) := quot (decodeVal .fp32 v) (decodeVal .fp32 scale)
    let up (o : Option Word) (below : Val → Val → Bool) : Option Word :=
      match o with
      | none => some (BitVec.ofNat 32 v)
      | some w => some (BitVec.ofNat 32 (minMaxCode .fp32 below w.toNat v))
    let hi := up k.mx belowVal
    let lo := up k.mn (fun a b => belowVal b a)
    { k with tot := cap48 (k.tot + 1), sat := cap48 (k.sat + bit01 (outside f zp x d)),
             mx := hi, mn := lo }

/-- Whether the quotient by a scale is unstated: the scale is 0 or NaN (log 2). -/
def scaleOpen (scale : Nat) : Bool :=
  match decodeVal .fp32 scale with
  | .nan => true
  | .fin _ n _ => n == 0
  | .inf _ => false

/-- Whether an entry is finite. -/
def isFinite (v : Nat) : Bool :=
  match decodeVal .fp32 v with
  | .fin _ _ _ => true
  | _ => false

/-- Whether an entry is infinite. -/
def isInfinite (v : Nat) : Bool :=
  match decodeVal .fp32 v with
  | .inf _ => true
  | _ => false

/-- A slot observes the entries of a job's output rows (R228, R247). Under a scale by which the quotient is not defined, which of the
finite entries count as saturated is a free value (log 2). -/
def State.tallyObserve (s : State) (c : CoreId) (t : Nat) (entries : List Nat) : State :=
  let scale := s.rd Reg.TALLY_SLOT_SCALE_SCALE c t
  let f := s.slotFmt c t
  let zp := zpOf f (s.rd Reg.TALLY_SLOT_ZP_ZP c t)
  let old := s.slot c t
  let k := entries.foldl (fun (k : TallySlot) v => k.observe f scale zp v) old
  if scaleOpen scale then
    let (x, s1) := s.draw 48
    let some := x.toNat % (entries.countP isFinite + 1)
    s1.setSlot c t { k with sat := cap48 (old.sat + entries.countP isInfinite + some) }
  else s.setSlot c t k

/-! ## Closing -/

/-- A step closes: the limits and configuration in force are taken (R245). -/
def State.tallyCloseNow (s : State) (c : CoreId) (t : Nat) : State :=
  let cfg := (s.csrGet Reg.TALLY_SLOT_CFG c t).toNat
  let lim := (s.csrGet Reg.TALLY_SLOT_LIM c t).toNat
  let smin := s.rd Reg.TALLY_SLOT_SMIN_SMIN c t
  let smax := s.rd Reg.TALLY_SLOT_SMAX_SMAX c t
  s.setSlot c t { s.slot c t with full := true, closed := true, cfg := cfg, lim := lim, smin := smin, smax := smax }

/-- A write of GO to TALLY_CLOSE (R246). -/
def State.tallyGo (s : State) (c : CoreId) (t : Nat) : State :=
  let k := s.slot c t
  if k.pendingClose then s
  else if !k.isOpen || decide (k.done = k.latched) then s.tallyCloseNow c t
  else s.setSlot c t { k with full := true }

/-- TALLY_CLOSE (R246). -/
def execTallyClose (c : CoreId) (slot : BitVec 8) (s : State) : Res := .next (s.tallyGo c slot.toNat)

/-- TALLY_STEP_CLOSE (R244): a full step closes at the signalled completion of its last job. -/
def execTallyStepClose (c : CoreId) (slot : BitVec 8) (s : State) : Res :=
  let k := s.slot c slot.toNat
  .next (if k.full && !k.closed && decide (k.done = k.latched) then s.tallyCloseNow c slot.toNat else s)

/-! ## Proposals -/

/-- A finite FP32 code from 32 free bits: an exponent field of all ones loses its top bit. -/
def finiteCode (x : Word) : Word := if bitsOf x.toNat 23 8 = 255 then x &&& 0xBFFFFFFF else x

/-- The extremes of a step; where every entry was infinite the spec gives none (log 2). -/
def State.tallyExtremes (s : State) (k : TallySlot) : (Word × Word) × State :=
  match k.mx, k.mn with
  | some a, some b => ((a, b), s)
  | _, _ =>
    let (x, s1) := s.draw 32
    let (y, s2) := s1.draw 32
    ((finiteCode x, finiteCode y), s2)

/-- The larger of two values. -/
def maxVal (a b : Val) : Val := if ltVal a b then b else a

/-- The smaller of two values. -/
def minVal (a b : Val) : Val := if ltVal b a then b else a

/-- The effective SMIN (R250). -/
def effMin (code : Nat) : Val :=
  match posFrac code with
  | some (n, d) => .fin false n d
  | none => if code = infCode .fp32 false then .inf false else .fin false 1 (2 ^ 126)

/-- The effective SMAX (R250). -/
def effMax (code : Nat) (lo : Val) : Val :=
  let v := decodeVal .fp32 code
  if isNanVal v || ltVal v lo then lo else v

/-- SCALE_SLACK of R254, decided for a step without misfit. -/
def slackOf (f : Fmt) (scale : Nat) (zp : Int) (smin : Nat) (mx mn : Word) : Bool :=
  let sv := decodeVal .fp32 scale
  let (a, b) := quot (decodeVal .fp32 mx.toNat) sv
  let (a', b') := quot (decodeVal .fp32 mn.toNat) sv
  let hi := clampi (a + zp * b) (loCode f * b) (hiCode f * b)
  let lo := clampi (a' + zp * b') (loCode f * b') (hiCode f * b')
  decide (16 * (hi * b' - lo * b) < (hiCode f - loCode f) * (b * b' : Nat)) && ltVal (effMin smin) sv

/-- The quotient of a non-negative value by an integer; 0 where the integer is not positive. -/
def divPos (v : Val) (k : Int) : Val :=
  match v with
  | .fin _ n d => if 0 < k then .fin false n (d * k.toNat) else .fin false 0 1
  | v => v

/-- A positive finite FP32 code from 31 free bits. -/
def positiveCode (x : BitVec 31) : Nat :=
  if x = 0 then 1 else if bitsOf x.toNat 23 8 = 255 then x.toNat - 2 ^ 30 else x.toNat

/-- A proposal (R249): scale code, zero point and LIMIT, from the window, the fixed zero point, MARGIN and the limits. A scale that
these leave infinite gives way to the code `spare`, since a proposed scale is finite (R237). -/
def proposal (f : Fmt) (freeZp : Bool) (zpReg : Int) (margin : Nat) (smin smax : Val) (window : List (Word × Word)) (spare : Nat) :
    Nat × Int × Bool :=
  let zero : Val := .fin false 0 1
  let mx := window.foldl (fun m (p : Word × Word) => maxVal m (decodeVal .fp32 p.1.toNat)) zero
  let mn := window.foldl (fun m (p : Word × Word) => minVal m (decodeVal .fp32 p.2.toNat)) zero
  let lo := loCode f
  let hi := hiCode f
  let z := clampi zpReg lo hi
  let s0 := if freeZp then divPos (addVal mx (negVal mn)) (hi - lo)
    else maxVal (divPos mx (hi - z)) (divPos (negVal mn) (z - lo))
  let s1 := decodeVal .fp32 (encodeFp32 (mulVal s0 (.fin false (256 + margin) 256)))
  let limit := ltVal s1 smin || ltVal smax s1
  let s2 := match minVal (maxVal s1 smin) smax with
    | .inf _ => decodeVal .fp32 spare
    | v => v
  let (x, d) := quot mn s2
  (encodeFp32 s2, if freeZp then clampi (rndQ (lo * d - x) d .rne) lo hi else z, limit)

/-- The QSF copy of a close (R252). -/
def State.qsfCopy (s : State) (c : CoreId) (t prop : Nat) (z : Int) : State :=
  let i := s.rd Reg.TALLY_SLOT_QSF_IDX c t
  let ((m, sh, clip), s1) := s.mshiftOf prop (s.rd Reg.TALLY_SLOT_QSF_Q c t)
  let s2 := (s1.put Reg.QSF_MULT_M c i m).put Reg.QSF_SHZP_SH c i sh
  ((s2.put Reg.QSF_SHZP_ZP c i (lowBits 16 z)).put Reg.QSF_ESCALE_ES c i prop).put Reg.TALLY_SLOT_PSTAT_MSH_CLIP c t
    (bit01 clip)

/-- A flag raised for a slot (R255). -/
def State.tallyFlag (s : State) (c : CoreId) (t : Nat) (pend irq : Fld) : State :=
  let s1 := s.put pend c (t / 32) (s.rd pend c (t / 32) ||| 2 ^ (t % 32))
  if s1.on irq c t then s1.setIrq c 8 else s1

/-- The window and proposal of a non-empty close with FREEZE 0 (R249, R251, R252, R256). Which finite scale an infinite bound
proposes is a free value (R237; log 2, 15). -/
def State.tallyAdapt (s : State) (c : CoreId) (t : Nat) (k : TallySlot) (mx mn : Word) (flag : Bool) : State :=
  let f := s.slotFmt c t
  let window := if flag then [(mx, mn)]
    else (k.window ++ [(mx, mn)]).drop (k.window.length - bitsOf k.cfg 12 4)
  let smin := effMin k.smin
  let (prop, z, limit) := proposal f (bitsOf k.cfg 2 1 == 1) (zpOf f (s.staged Reg.TALLY_SLOT_ZP_ZP c t))
    (bitsOf k.lim 16 8) smin (effMax k.smax smin) window (positiveCode (Config.free s.draws 31))
  let s1 := (({ s with draws := s.draws + 1 } : State).setSlot c t { k with window := window }).put Reg.TALLY_SLOT_PSTAT_DIRECT c t (bit01 flag)
  let s2 := (s1.put Reg.TALLY_SLOT_PSTAT_LIMIT c t (bit01 limit)).put Reg.TALLY_SLOT_PSTAT_PZP c t (lowBits 16 z)
  let s3 := ((s2.put Reg.TALLY_SLOT_PROP_PROP c t prop).stage Reg.TALLY_SLOT_SCALE_SCALE c t prop).stage
    Reg.TALLY_SLOT_ZP_ZP c t (lowBits 16 z)
  if bitsOf k.cfg 5 1 = 1 then s3.qsfCopy c t prop z else s3

/-- The record, flags and proposal of a non-empty step (R245, R249, R253..R256, R259). -/
def State.tallyRecord (s : State) (c : CoreId) (t : Nat) (k : TallySlot) : State :=
  let f := s.slotFmt c t
  let scale := s.rd Reg.TALLY_SLOT_SCALE_SCALE c t
  let zp := zpOf f (s.rd Reg.TALLY_SLOT_ZP_ZP c t)
  let ((mx, mn), s0) := s.tallyExtremes k
  let s1 := (s0.put Reg.TALLY_SLOT_OMAX_MAX c t mx.toNat).put Reg.TALLY_SLOT_OMIN_MIN c t mn.toNat
  let s2 := ((s1.put Reg.TALLY_SLOT_OSAT_COUNT c t k.sat).put Reg.TALLY_SLOT_OTOT_COUNT c t k.tot).put
    Reg.TALLY_SLOT_PSTAT_EMPTY c t 0
  let misfit := decide (k.tot * bitsOf k.lim 0 16 < k.sat * 65536)
  let slack := !misfit && slackOf f scale zp k.smin mx mn
  let s3 := if misfit then s2.tallyFlag c t Reg.TALLY_MISFIT_PEND_PEND Reg.TALLY_SLOT_CFG_IRQ_MISFIT
    else if slack then s2.tallyFlag c t Reg.TALLY_SLACK_PEND_PEND Reg.TALLY_SLOT_CFG_IRQ_SLACK else s2
  if bitsOf k.cfg 1 1 = 1 then s3 else s3.tallyAdapt c t k mx mn (misfit || slack)

/-- What a close leaves 12 cc later (R245, R248): the record and proposal of a step that observed something; the slot then
waits for its next step. -/
def State.tallyPropose (s : State) (c : CoreId) (t : Nat) : State :=
  let k := s.slot c t
  let s1 := s.bump Reg.TALLY_SLOT_STEPS_COUNT c t 1
  let s2 := if k.tot = 0 then s1.put Reg.TALLY_SLOT_PSTAT_EMPTY c t 1 else s1.tallyRecord c t k
  s2.setSlot c t { TallySlot.idle with window := (s2.slot c t).window }

/-- TALLY_PROPOSAL (R245). -/
def execTallyProposal (c : CoreId) (slot : BitVec 8) (s : State) : Res :=
  .next (if (s.slot c slot.toNat).closed then s.tallyPropose c slot.toNat else s)

end Sys2Proof.Machine
end

