-- ==== Sys2Proof/Machine/Loom.lean ====
section
/-! DEFINITION. The Loom (07 R207..R232; 08 R238..R240, R257, R258; 09 R283, R284): its queue, planes, stream and output
stage, and its rows. -/

namespace Sys2Proof.Machine

/-- A core's Loom. -/
def State.loom (s : State) (c : CoreId) : Loom := (s.core c).loom

/-- Changes the job of a number. -/
def State.modJob (s : State) (c : CoreId) (id : Nat) (f : LoomJob → LoomJob) : State :=
  s.modLoom c (fun l => { l with jobs := modFirst (fun j => j.id == id) f l.jobs })

/-- Whether the queue holds four entries (R219). -/
def State.loomFull (s : State) (c : CoreId) : Bool :=
  decide (4 ≤ (s.loom c).jobs.countP (fun j => j.phase == .queued))

/-- A core's Loom is busy (R234). -/
def State.loomIsBusy (s : State) (c : CoreId) : Bool := (s.loom c).jobs.any (fun j => j.phase != .ended)

/-- LJOB and LTILE enqueue a job of the issuing task (R219). `addr` is the task-relative address of its descriptor. -/
def State.loomEnqueue (s : State) (c : CoreId) (t : TaskId) (tile : Bool) (addr : Word) : State :=
  let off := s.winBase c t + addr.toNat
  let zero : Qsf := ⟨0, 0, 0, 0⟩
  let j : LoomJob :=
    { id := (s.loom c).nextId, tile := tile, task := t, addr := off, arith := (s.task c t).arith, phase := .queued,
      winBase := 0, winLen := 0, desc := lineOf (s.granBytes c off 64), act := 0, qsfA := zero, qsfW := [], qsfO := [],
      skip := false, observes := false, latched := false, loaded := 0, swapped := 0, streamed := 0, drained := 0,
      code := 0, sat := 0, nan := 0, bad := false, zcRow := none, flags := 0 }
  s.modLoom c (fun l => { l with jobs := l.jobs ++ [j], nextId := l.nextId + 1 })

/-- What a job counts (R56, R68, R70, R220): the core's counters and flags, and its own; the classes enabled as the edge case
arises are kept for its ARITH exception. -/
def State.loomArith (s : State) (c : CoreId) (id sat nan : Nat) : State :=
  let fl := BitVec.ofNat 4 (4 * bit01 (sat != 0) + 8 * bit01 (nan != 0))
  let s1 := s.csrPut Reg.CORE_ARITH_FLAGS c 0 (s.csrGet Reg.CORE_ARITH_FLAGS c 0 ||| fl.zeroExtend 64)
  let s2 := (s1.bump Reg.CORE_SAT_CNT_LOOM_COUNT c 0 sat).bump Reg.CORE_NAN_CNT_LOOM_COUNT c 0 nan
  let en := BitVec.ofNat 4 (s.csrGet Reg.CORE_EXC_EN c 0).toNat
  s2.modJob c id (fun j =>
    { j with sat := min 0xFFFF (j.sat + sat), nan := min 0xFFFF (j.nan + nan), flags := j.flags ||| (fl &&& en) })

/-- A job comes to its end with a code, the first error standing; planes it holds are free (R222, R230). -/
def State.loomEnd (s : State) (c : CoreId) (id code : Nat) : State :=
  let drop (p : Option (Nat × Nat)) : Option (Nat × Nat) := if p.any (fun e => e.1 == id) then none else p
  (s.modJob c id (fun j => { j with phase := .ended, code := if j.code = 0 then code else j.code })).modLoom c
    (fun l => { l with back := drop l.back, front := drop l.front })

/-- The accumulator rows of a job that an error ends are undefined (R230, R231; log 2). -/
def State.loomUndefined (s : State) (c : CoreId) (d : Line) : State :=
  let n := min (jobM d) (2048 - jobAcc d) * 128
  let (x, s1) := s.draw (32 * n)
  s1.modLoom c (fun l => { l with
    acc := cellFill 0 l.acc (jobAcc d * 128) ((List.range n).map (fun i => BitVec.ofNat 32 (x.toNat / 2 ^ (32 * i)))) })

/-! ## Setup -/

/-- A QSF entry (R238). -/
def State.qsfEntry (s : State) (c : CoreId) (i : Nat) : Qsf :=
  ⟨s.rd Reg.QSF_MULT_M c i, s.rd Reg.QSF_SHZP_SH c i, s.rd Reg.QSF_SHZP_ZP c i, s.rd Reg.QSF_ESCALE_ES c i⟩

/-- Setup of a job (R221, R226, R239, R240, R242): the window, the descriptors, the checks and the QSF entries. -/
def State.loomSetUp (s : State) (c : CoreId) (j : LoomJob) : State :=
  let s0 := s.activate Reg.LOOM_CTRL c 0
  let base := s0.winBase c j.task
  let len := s0.winLen c j.task
  let d := lineOf (s0.granBytes c j.addr 64)
  let (bad1, s1) := s0.granRead c j.addr 64
  let here := jobAct d % 64 == 0 && decide (jobAct d + 64 ≤ len)
  let a := lineOf (s1.granBytes c (base + jobAct d) 64)
  let (bad2, s2) := if here && !bad1 then s1.granRead c (base + jobAct d) 64 else (false, s1)
  let slot := jobSlot d
  let observes := s2.on Reg.TALLY_SLOT_CFG_EN c slot
  let slotOk := observes && s2.slotFmt c slot == jobFmtO d
  let code := setupCode d (if here then some a else none) j.tile slotOk (s2.on Reg.AGEN_CTRL_MATRIX_EN c 0) len
  let bad := bad1 || bad2
  let outs := if jobOsc d = 1 then jobN d else if jobOsc d = 0 then 1 else 0
  let j' : LoomJob :=
    { j with phase := if bad || code == codeOk then .active else .ended, winBase := base, winLen := len, desc := d,
             act := a, bad := bad, code := if bad then 0 else code, skip := s2.on Reg.LOOM_CTRL_SKIP_EN c 0,
             observes := jobOutEn d && observes, qsfA := s2.qsfEntry c (jobQsfA d),
             qsfW := (List.range (jobN d)).map (fun n => s2.qsfEntry c (jobQsfW d + n)),
             qsfO := (List.range outs).map (fun n => s2.qsfEntry c (jobQsfO d + n)) }
  s2.modJob c j.id (fun _ => j')

/-- LOOM_SETUP (R221): the first queued job, while EN is 1. -/
def execLoomSetup (c : CoreId) (s : State) : Res :=
  .next (match (s.loom c).jobs.find? (fun j => j.phase == .queued) with
    | none => s
    | some j => if s.on Reg.LOOM_CTRL_EN c 0 then s.loomSetUp c j else s)

/-! ## Weights -/

/-- Whether a job still runs with nothing to end it. -/
def LoomJob.runs (j : LoomJob) : Bool := j.phase == .active && !j.bad && j.zcRow.isNone

/-- A loaded weight (R212, R213): its C21 value, or hi and lo of a 16-bit format, and whether it saturated. -/
def loadWeight (f : Fmt) (q : Qsf) (code : Nat) : Nat × Nat × Bool :=
  let zp := zpOf f q.zp
  let hi := expandC21 f code zp q.es
  let v := decodeVal .c21 hi.code
  let exact := mulVal (match decodeVal f code with
    | .fin neg n d => if fmtInt f then valInt (signNum neg n - zp) else .fin neg n d
    | x => x) (decodeVal .fp32 q.es)
  let lo := match v with
    | .fin _ _ _ => if hi.sat then 0 else (satFloat 0 .c21 (addVal exact (negVal v))).code
    | _ => 0
  (hi.code, if is16 f then lo else 0, hi.sat)

/-- A weight whose C21 value is an infinity or a NaN (R212). -/
def nonFinite (code : Nat) : Bool := bitsOf code 12 8 == 255

/-- Tile `t`'s weights load into the back plane; those of a 16-bit format take both planes, hi in the back plane
(R212, R213, R225). -/
def State.loadTile (s : State) (c : CoreId) (j : LoomJob) (t : Nat) : State :=
  let d := j.desc
  let f := jobFmtW d
  let off := j.winBase + jobWAddr d + t * jobWStride d
  let (bad, s1) := (List.range (jobRows d t)).foldl (fun (x : Bool × State) k =>
    if x.1 then x else x.2.granRead c (off + k * jobRowBytes d) ((jobN d * fmtBits f + 7) / 8)) (false, s)
  if bad then s1.modJob c j.id (fun j => { j with bad := true })
  else
    let n := jobN d
    let cell (i : Nat) : Nat × Nat × Bool :=
      if i % 128 < n ∧ i / 128 < jobRows d t then
        loadWeight f (j.qsfW.getD (i % 128) ⟨0, 0, 0, 0⟩) (s1.granCode c (off * 8 + i * fmtBits f) (fmtBits f))
      else (0, 0, false)
    let cells := (List.range (jobTW d * 128)).map cell
    let plane (g : Nat × Nat × Bool → Nat) : List (Nat × BitVec 21) :=
      cellFill 0 [] 0 (cells.map (fun x => BitVec.ofNat 21 (g x)))
    let odd := cells.any (fun x => nonFinite x.1)
    let s2 := s1.loomArith c j.id (cells.countP (fun x => x.2.2)) 0
    let s3 := s2.modLoom c (fun l =>
      if jobSplit d then { l with back := some (j.id, t), front := some (j.id, t), backW := plane (·.1),
                                  frontW := plane (·.2.1), backNonfin := odd, frontNonfin := false }
      else { l with back := some (j.id, t), backW := plane (·.1), backNonfin := odd })
    s3.modJob c j.id (fun j => { j with loaded := t + 1 })

/-- WEIGHT_LOAD (R212, R225, R226): the next tile in queue order, once the planes it takes are free. -/
def execWeightLoad (c : CoreId) (wait : Nat) (s : State) : Res :=
  .next (match (s.loom c).jobs.find? (fun j => j.phase == .active && decide (j.loaded < jobKT j.desc)) with
    | none => s
    | some j =>
      let free := (s.loom c).back.isNone && (!jobSplit j.desc || (s.loom c).front.isNone)
      if j.runs && free then (s.loadTile c j j.loaded).bump Reg.GRAN_LOOM_WAIT_COUNT c 0 wait else s)

/-- Whether two jobs' accumulator rows overlap (R226). -/
def accOverlap (d e : Line) : Bool :=
  decide (jobAcc d < jobAcc e + jobM e) && decide (jobAcc e < jobAcc d + jobM d)

/-- Whether an earlier job still has to read rows that a job adds to (R226). -/
def State.accHeld (s : State) (c : CoreId) (j : LoomJob) : Bool :=
  ((s.loom c).jobs.takeWhile (fun k => k.id != j.id)).any
    (fun k => k.phase == .active && jobOutEn k.desc && accOverlap k.desc j.desc)

/-- PLANE_SWAP (R225, R226, R229): the planes exchange roles once the load is done and the front plane has streamed. -/
def execPlaneSwap (c : CoreId) (stallLoad stallAcc : Nat) (s : State) : Res :=
  let l := s.loom c
  .next (match l.jobs.find? (fun j => j.runs && decide (j.swapped < j.loaded)) with
    | none => s
    | some j =>
      let mine := some (j.id, j.swapped)
      if l.back = mine ∧ (l.front = none ∨ (jobSplit j.desc = true ∧ l.front = mine))
          ∧ ¬ (j.swapped = 0 ∧ s.accHeld c j = true) then
        let s1 := s.modLoom c (fun l =>
          { l with front := mine, back := if jobSplit j.desc then mine else none, frontW := l.backW, backW := l.frontW,
                   frontNonfin := l.backNonfin, backNonfin := l.frontNonfin, tag := j.tagOf })
        ((s1.modJob c j.id (fun j => { j with swapped := j.swapped + 1 })).bump Reg.LOOM_STALL_LOAD_COUNT c 0 stallLoad).bump
          Reg.LOOM_STALL_ACC_COUNT c 0 stallAcc
      else s)

/-! ## Streaming -/

/-- The product of a weight and an activation enters an accumulator entry (R57, R216). -/
def accStep (mx : Bool) (e w a : Nat) : Nat :=
  let p := mulVal (decodeVal .c21 w) (decodeVal .c21 a)
  if mx then (if w % 2 ^ 20 = 0 then e else minMaxCode .fp32 belowVal e (encodeFp32 p))
  else encodeFp32 (addVal (decodeVal .fp32 e) p)

/-- The K elements of the groups that a position does not skip (R217): with `skip`, a group whose activations are all zero
is passed over. Gives the kept (K element, activation) pairs and the groups skipped. -/
def keptGroups (skip : Bool) (g : Nat) (acts : List Nat) : List (Nat × Nat) × Nat :=
  let zeroAt (b : Nat) : Bool := ((acts.drop (b * g)).take g).all (fun x => x % 2 ^ 20 == 0)
  let gone (b : Nat) : Bool := skip && zeroAt b
  ((acts.zipIdx.map (fun (x : Nat × Nat) => (x.2, x.1))).filter (fun (x : Nat × Nat) => !gone (x.1 / g)),
    (List.range 8).countP gone)

/-- An accumulator row after a position's products (R215): hi pass before lo pass, K ascending. -/
def accRow (mx : Bool) (hi lo : List (Nat × BitVec 21)) (split : Bool) (kept : List (Nat × Nat)) (row : List Nat) : List Nat :=
  row.zipIdx.map (fun (x : Nat × Nat) =>
    let pass (w : List (Nat × BitVec 21)) (e : Nat) : Nat :=
      kept.foldl (fun e (p : Nat × Nat) => accStep mx e (cellGet 0 w (p.1 * 128 + x.2)).toNat p.2) e
    if split then pass lo (pass hi x.1) else pass hi x.1)

/-- What streaming one position gives: its row, the groups skipped, the saturated expansions and the absent ZC groups. -/
structure PosOut where
  row : List Nat
  skipped : Nat
  sat : Nat
  absent : Nat

/-- The absent groups of the elements of one position (R283). -/
def absentGroups (fs : List Fetch) : Nat := (fs.filterMap (·.absent)).eraseDups.length

/-- Streams one position of a tile (R215..R218). -/
def State.streamPos (s : State) (c : CoreId) (j : LoomJob) (t m : Nat) (fs : List Fetch) : PosOut :=
  let d := j.desc
  let l := s.loom c
  let acts := expandAll d (fs.map (·.val))
  let skip := j.skip && !jobMax d && !l.frontNonfin
  let (kept, skipped) := keptGroups skip (if jobClass d = .q then 32 else 16) (acts.map (·.code))
  let start := if jobMax d then infCode .fp32 true else 0
  let row := (List.range 128).map (fun n =>
    if t = 0 ∧ jobKeep d = false then start else (cellGet 0 l.acc ((jobAcc d + m) * 128 + n)).toNat)
  { row := accRow (jobMax d) l.frontW l.backW (jobSplit d) kept row, skipped := skipped,
    sat := acts.countP (fun x => x.sat), absent := absentGroups fs }

/-- The corrected errors of a tile's reads (R193): each protection unit read counts once (DEDUCED, log 14). -/
def State.feedCe (s : State) (c : CoreId) (reads : List (Nat × Nat)) : State :=
  if (s.core c).gran.flaws.isEmpty then s
  else ((reads.flatMap (fun r => s.unitHeads c r.1 r.2)).eraseDups.filter (s.unitFlawed c)).foldl
    (fun x w => x.granCe c (w / 8) 1) s

/-- Whether an element meets an error: a poisoned read, or a segment that overruns. -/
def State.fetchErr (s : State) (c : CoreId) (x : Fetch) : Bool := x.beyond.isSome || x.reads.any (fun r => s.granBad c r.1 r.2)

/-- The stream of a tile: every position's products enter the accumulator (R215..R218), or its first element that meets a poisoned
read or a ZC overrun ends the job (R230, R284); what lies before it has been read. -/
def State.streamTile (s : State) (c : CoreId) (j : LoomJob) (t : Nat) : State :=
  let d := j.desc
  let aj : AgenJob := { core := c, base := j.winBase, d := d, a := j.act, qsf := j.qsfA }
  let all := (List.range (jobM d)).map (fun m => s.tileElems aj t m)
  let ok (x : Fetch) : Bool := !s.fetchErr c x
  let read := (all.flatten.takeWhile ok).flatMap (·.reads)
  match all.flatten.find? (s.fetchErr c) with
  | some x =>
    let whole := all.takeWhile (fun fs => fs.all ok)
    let cut := (all.getD whole.length []).takeWhile ok
    let s0 := (s.feedCe c read).bump Reg.AGEN_ZC_ABSENT_COUNT c 0
      (((whole ++ [cut]).map absentGroups).foldl (· + ·) 0)
    match x.reads.find? (fun r => s.granBad c r.1 r.2), x.beyond with
    | none, some row => s0.modJob c j.id (fun j => { j with zcRow := some row })
    | some r, _ => (s0.granRead c r.1 r.2).2.modJob c j.id (fun j => { j with bad := true })
    | none, none => s0
  | none =>
    let outs := (all.zipIdx).map (fun (x : List Fetch × Nat) => s.streamPos c j t x.2 x.1)
    let total (f : PosOut → Nat) : Nat := (outs.map f).foldl (· + ·) 0
    let rows := (outs.map (·.row)).flatten.map (BitVec.ofNat 32)
    let s1 := (s.feedCe c read).modLoom c (fun l =>
      { l with acc := cellFill 0 l.acc (jobAcc d * 128) rows, front := none,
               back := if jobSplit d then none else l.back })
    let s2 := (s1.loomArith c j.id (total (·.sat)) 0).modJob c j.id (fun j => { j with streamed := t + 1 })
    (s2.bump Reg.LOOM_SKIP_GROUPS_COUNT c 0 (total (·.skipped))).bump Reg.AGEN_ZC_ABSENT_COUNT c 0 (total (·.absent))

/-- TILE_STREAM (R218, R229, R232): the tile in the front plane. The operands are its stream time, the cc its bands waited
for data, the cc a limit withheld (none while THR is 0), and the waits for Granary grants. -/
def execTileStream (c : CoreId) (streamCc feed thr wait : Nat) (s : State) : Res :=
  let l := s.loom c
  .next (match l.jobs.find? (fun j => j.runs && decide (j.streamed < j.swapped)) with
    | none => s
    | some j =>
      if l.front = some (j.id, j.streamed) then
        let s1 := (s.streamTile c j j.streamed).bump Reg.LOOM_STREAM_CC_COUNT c 0 streamCc
        let s2 := (s1.bump Reg.LOOM_STALL_FEED_COUNT c 0 feed).bump Reg.LOOM_THR_CC_COUNT c 0
          (if s.on Reg.LOOM_CTRL_THR c 0 then thr else 0)
        s2.bump Reg.GRAN_LOOM_WAIT_COUNT c 0 wait
      else s)

/-- LOOM_DRAIN (R219, R224): a tile's last addition; the last one of a job without an output stage ends it. -/
def execLoomDrain (c : CoreId) (s : State) : Res :=
  .next (match (s.loom c).jobs.find? (fun j => j.phase == .active && decide (j.drained < j.streamed)) with
    | none => s
    | some j =>
      let s1 := s.modJob c j.id (fun j => { j with drained := j.drained + 1 })
      if j.runs && decide (j.drained + 1 = jobKT j.desc) && !jobOutEn j.desc then s1.loomEnd c j.id codeOk else s1)

/-! ## Output -/

/-- The multiplier, shift, zero point and FP32 factor of an output column (R227, R239). -/
structure OutScale where
  m : Nat
  sh : Nat
  zp : Int
  rs : Nat

/-- A code of the output stage (R227), with whether any of its steps saturated or turned a NaN into an integer. -/
def outCode (ctl : ArithCtl) (f : Fmt) (q : Nat) (k : OutScale) (sum : Nat) : Conv :=
  let v := decodeVal .fp32 sum
  if fmtInt f then
    match v with
    | .nan => toCode ctl f k.zp .nan
    | .inf neg =>
      let x : Int := if neg then -(2 ^ 47) else 2 ^ 47 - 1
      { rescale ctl f x k.m k.sh k.zp with sat := true }
    | .fin neg n d =>
      let x := satInt .s48 (signNum neg (n * 2 ^ q)) d
      let r := rescale ctl f (sgn 48 x.code) k.m k.sh k.zp
      { r with sat := r.sat || x.sat }
  else if f = .fp32 then ⟨mulFp32 sum k.rs, false, false⟩
  else toCode ctl f 0 (mulVal v (decodeVal .fp32 k.rs))

/-- The row exponent of R257. -/
def rowExponent (f : Fmt) (q m sh emax : Nat) (zp : Int) (entries : List Nat) : Nat :=
  let fits (e : Nat) : Bool := entries.all (fun v =>
    match decodeVal .fp32 v with
    | .fin neg n d => !outside f zp (signNum neg (n * 2 ^ q * m)) (d * 2 ^ (sh - e))
    | _ => true)
  ((List.range (min emax sh + 1)).reverse.find? fits).getD 0

/-- The entries of output row `r`, columns in use (R247). -/
def Loom.outEntries (l : Loom) (d : Line) (r : Nat) : List Nat :=
  (List.range (jobN d)).map (fun n => (cellGet 0 l.acc ((jobAcc d + r) * 128 + n)).toNat)

/-- The packed bytes of an output row, with the pad code of an odd row of a narrow format (R35, R36). -/
def packRow (f : Fmt) (codes : List Nat) : List Byte :=
  let w := fmtBits f
  let cs := if w % 8 ≠ 0 ∧ codes.length % 2 = 1 then codes ++ [0] else codes
  leBytes (cs.length * w / 8) ((cs.foldr (fun x acc => acc * 2 ^ w + x % 2 ^ w) 0))

/-- A row-scale entry (R258). -/
def rowScaleBytes (scale : Nat) (zp : Int) (e : Nat) (sat : Bool) : List Byte :=
  let es := match decodeVal .fp32 scale with
    | .fin neg n d => encodeFp32 (.fin neg n (d * 2 ^ e))
    | v => encodeFp32 v
  leBytes 4 es ++ leBytes 2 (lowBits 16 zp) ++ [BitVec.ofNat 8 e, BitVec.ofNat 8 (bit01 sat)]

/-- What the output stage gives for a row: the codes, and the row exponent of OSC 2. -/
def outRow (j : LoomJob) (step : OutScale) (emax : Nat) (entries : List Nat) : List Conv × Nat :=
  let d := j.desc
  let f := jobFmtO d
  if jobOsc d = 2 then
    let e := rowExponent f (jobQ d) step.m step.sh emax step.zp entries
    (entries.map (outCode j.arith f (jobQ d) { step with sh := step.sh - e }), e)
  else
    (entries.zipIdx.map (fun (x : Nat × Nat) =>
      let q := j.qsfO.getD (if jobOsc d = 1 then x.2 else 0) ⟨0, 0, 0, 0⟩
      outCode j.arith f (jobQ d) ⟨q.m, q.sh, zpOf f q.zp, q.es⟩ x.1), 0)

/-- The output rows of a job are written, with the row-scale entries of OSC 2 (R227, R257, R258). -/
def State.writeRows (s : State) (c : CoreId) (j : LoomJob) (step : OutScale) (emax scale : Nat) : State :=
  let d := j.desc
  let rows := (List.range (jobM d)).map (fun r => outRow j step emax ((s.loom c).outEntries d r))
  let s1 := rows.zipIdx.foldl (fun (x : State) (y : (List Conv × Nat) × Nat) =>
    let codes := y.1.1
    let x1 := x.granWrite c (j.winBase + jobOut d + y.2 * jobPitch d) (packRow (jobFmtO d) (codes.map (·.code)))
    if jobOsc d = 2 then
      x1.granWrite c (j.winBase + jobScl d + 8 * y.2)
        (rowScaleBytes scale step.zp y.1.2 (codes.any (fun k => k.sat)))
    else x1) s
  let all := (rows.map (·.1)).flatten
  s1.loomArith c j.id (all.countP (fun x => x.sat)) (all.countP (fun x => x.nan))

/-- The output stage of a job (R227, R243, R247, R257): its latch, its observation, its rows. -/
def State.loomOutput (s : State) (c : CoreId) (j : LoomJob) : State :=
  let d := j.desc
  let t := jobSlot d
  let s1 := if j.observes then (s.tallyLatch c t).modJob c j.id (fun j => { j with latched := true }) else s
  let entries := ((List.range (jobM d)).map (fun r => (s.loom c).outEntries d r)).flatten
  let s2 := if j.observes then s1.tallyObserve c t entries else s1
  let scale := s2.rd Reg.TALLY_SLOT_SCALE_SCALE c t
  let zp := zpOf (jobFmtO d) (s2.rd Reg.TALLY_SLOT_ZP_ZP c t)
  if jobOsc d = 2 then
    let ((m, sh, clip), s3) := s2.mshiftOf scale (jobQ d)
    (s3.put Reg.TALLY_SLOT_PSTAT_MSH_CLIP c t (bit01 clip)).writeRows c j ⟨m, sh, zp, 0⟩
      (s3.rd Reg.TALLY_SLOT_CFG_EMAX c t) scale
  else s2.writeRows c j ⟨0, 0, 0, 0⟩ 0 0

/-- OUTPUT_STAGE (R227, R245): the first job whose additions are done; it holds while a close of its slot is pending.
`wait` are the cc its writes waited, `hold` those of a hold that has ended. -/
def execOutputStage (c : CoreId) (wait hold : Nat) (s : State) : Res :=
  .next (match (s.loom c).jobs.find? (fun j => j.phase == .active && jobOutEn j.desc) with
    | none => s
    | some j =>
      if j.runs && decide (j.drained = jobKT j.desc) && !(j.observes && (s.slot c (jobSlot j.desc)).pendingClose) then
        ((((s.loomOutput c j).loomEnd c j.id codeOk).bump Reg.GRAN_LOOM_WAIT_COUNT c 0 wait).bump
          Reg.TALLY_WAIT_CC_COUNT c 0 (if j.observes then hold else 0))
      else s)

/-! ## Completion, errors, abort -/

/-- The ARITH exception of a job, of the enabled classes that arose in it (R68, R69, R223). -/
def State.loomExc (s : State) (c : CoreId) (flags : BitVec 4) : State :=
  let cls := flags.toNat
  if cls = 0 then s
  else (((s.put Reg.CORE_EXC_CAUSE_CLASS c 0 cls).put Reg.CORE_EXC_CAUSE_UNIT c 0 2).put Reg.CORE_EXC_CAUSE_VALID c 0 1).setIrq
    c 1

/-- The completion of a job (R220, R222): its bytes are written, then it is signalled. -/
def State.loomComplete (s : State) (c : CoreId) (j : LoomJob) : State :=
  let code := if j.code ≠ 0 then j.code else if j.sat ≠ 0 then codeSat else codeOk
  let bytes := [BitVec.ofNat 8 code, 0x80] ++ leBytes 2 j.drained ++ leBytes 2 j.sat ++ leBytes 2 j.nan
  let s1 := s.granWrite c (j.addr + 56) bytes
  let s2 := s1.modLoom c (fun l => { l with jobs := l.jobs.filter (fun k => k.id != j.id) })
  let s3 := (s2.bump Reg.LOOM_JOBS_DONE_COUNT c 0 1).wakeTasks c
  let k := s3.slot c (jobSlot j.desc)
  let s4 := if j.latched then s3.setSlot c (jobSlot j.desc) { k with done := k.done + 1 } else s3
  let s5 := if jobIrq j.desc then s4.setIrq c 6 else s4
  s5.loomExc c j.flags

/-- LOOM_JOB_COMPLETE (R222): the first job of the queue, once it has nothing left but its completion. -/
def execLoomJobComplete (c : CoreId) (s : State) : Res :=
  .next (match (s.loom c).jobs with
    | [] => s
    | j :: _ => if j.phase = .ended then s.loomComplete c j else s)

/-- LOOM_ECC_UNCORR (R230): the job that read poisoned data, else the running job, whose QSF or accumulator read failed its
parity. -/
def execLoomEccUncorr (c : CoreId) (s : State) : Res :=
  let jobs := (s.loom c).jobs
  .next (match (jobs.find? (fun j => j.phase == .active && j.bad)).orElse
      (fun _ => jobs.find? (fun j => j.phase == .active)) with
    | none => s
    | some j => ((s.loomUndefined c j.desc).loomEnd c j.id errEcc).coreEvent c 0x805 [j.tagOf.toNat])

/-- AGEN_ZC_OVER (R284): the job that met a segment of that row whose groups overrun it. -/
def execAgenZcOver (c : CoreId) (row : Nat) (s : State) : Res :=
  .next (match (s.loom c).jobs.find? (fun j => j.phase == .active && j.zcRow == some row) with
    | none => s
    | some j =>
      (((s.loomUndefined c j.desc).loomEnd c j.id errBound).bump Reg.AGEN_ZC_OVER_CNT_COUNT c 0 1).coreEvent c 0x806
        [j.tagOf.toNat, row])

/-- A write of 1 to ABORT (R231): every job ends with ERR_DISABLED. -/
def State.loomAbort (s : State) (c : CoreId) : State :=
  (s.loom c).jobs.foldl (fun x j => (x.loomUndefined c j.desc).loomEnd c j.id errDisabled) s

/-- LOOM_ABORT (R231). -/
def execLoomAbort (c : CoreId) (s : State) : Res := .next (s.loomAbort c)

/-! ## What the status registers show (R234) -/

/-- LOOM_STAT as it reads. -/
def State.loomStat (s : State) (c : CoreId) : Nat :=
  let l := s.loom c
  bit01 (s.loomIsBusy c) + 2 * l.jobs.countP (fun j => j.phase == .queued) + 16 * bit01 l.frontNonfin
    + 2 ^ 16 * l.tag.toNat

/-- LOOM_TEST_DATA as it reads; `none` for the reserved selector, whose data the spec does not give. -/
def State.loomTestData (s : State) (c : CoreId) : Option Nat :=
  let l := s.loom c
  let col := s.rd Reg.LOOM_TEST_SEL_COL c 0
  let i := s.rd Reg.LOOM_TEST_SEL_INDEX c 0
  if s.loomIsBusy c then some 0
  else match s.rd Reg.LOOM_TEST_SEL_WHAT c 0 with
    | 0 => some (cellGet 0 l.frontW (i % 256 * 128 + col)).toNat
    | 1 => some (cellGet 0 l.backW (i % 256 * 128 + col)).toNat
    | 2 => some (cellGet 0 l.acc (i * 128 + col)).toNat
    | _ => none

end Sys2Proof.Machine
end

