-- ==== Sys2Proof/Machine/Pipe.lean ====
section
/-! DEFINITION. The row counters' rows (11 R312, R313, R316..R319). -/

namespace Sys2Proof.Machine

/-- A write of `v` to REL of a ring (R313). -/
def State.relWrite (s : State) (c : CoreId) (r v : Nat) : State :=
  if s.rd Reg.PIPE_RING_REL_REL c r ≤ v ∧ v ≤ s.rd Reg.PIPE_RING_FILL_FILL c r then s.put Reg.PIPE_RING_REL_REL c r v
  else s.put Reg.PIPE_RING_STAT_REL_ERR c r 1

/-- PIPE_RING_REL (R313). -/
def execPipeRingRel (c : CoreId) (ring : Fin 16) (v : Word) (s : State) : Res := .next (s.relWrite c ring v.toNat)

/-- PIPE_PUB (R317). -/
def execPipePub (c : CoreId) (j : Fin 16) (v : Word) (s : State) : Res := .next (s.setPub c j v.toNat)

/-- COUNTER_MESSAGE (R316): the next message between two stops reaches a core's copy. `kind` is false for a ring fill. -/
def execCounterMessage (dest owner : CoreId) (kind : Bool) (j : Fin 16) (s : State) : Res :=
  let k := bit01 kind * 16 + j.val
  let m := dest.val * 192 + owner.val * 32 + k
  .next (if s.msgNext m then
      ({ s with msgs := s.msgs.filter (fun n => n != m) } : State).setCopy dest (owner.val * 32 + k) (s.counter owner k)
    else s)

/-- A write to a watch arms it; a condition that holds already sets the line (R319). -/
def State.watchWrite (s : State) (c : CoreId) (i : Fin 4) : State :=
  (s.setCore c { s.core c with watchArmed := (s.core c).watchArmed.set i (s.on Reg.PIPE_WATCH_EN c i) }).watch c

end Sys2Proof.Machine
end

