-- ==== Sys2Proof/Machine/Power.lean ====
section
/-! DEFINITION. Power and thermal control, the regulators and the SMBus target (19 R517, R518, R526..R532, R535). -/

namespace Sys2Proof.Machine

/-- The draw in µW (R530): what the regulators read gives, and PWR_ALLOW for the rails not read. -/
def State.drawUw (s : State) : Nat :=
  (s.mgmt.vr.toList.map (fun r => r.1 * r.2)).foldl (· + ·) 0 + s.rd Reg.MGMT_PWR_CFG_PWR_ALLOW 0 0 * 1000000

/-- A reading of a sensor, in 0.125 °C, by its place in a sample. -/
def sensor (ts : List (BitVec 12)) (j : Nat) : Int := (ts.getD j 0).toInt

/-- The hottest of sensors 0..15; of several, the lowest (R530; log 28). -/
def hottest (ts : List (BitVec 12)) : Nat :=
  (List.range 16).foldl (fun m j => if sensor ts m < sensor ts j then j else m) 0

/-- The step of a request (R530): `over` its limit, or `below` the limit less its hysteresis. -/
def requestStep (p : Nat) (above below : Bool) : Nat :=
  if above then (if p = 0 then 15 else max 1 (p - 1))
  else if below then (if p = 0 ∨ p = 15 then 0 else p + 1)
  else p

/-- The throttle of the two requests (R530). -/
def throttle (p q : Nat) : Nat := if p = 0 then q else if q = 0 then p else min p q

/-- The effective CRIT_C (R532, R535). -/
def State.critC (s : State) : Int :=
  (min 102 (s.rd Reg.MGMT_THERM_CFG_CRIT_C 0 0) : Nat) - (if s.on Reg.MGMT_CAL_STAT_FACTORY_BAD 0 0 then 10 else 0)

/-- The effective THROT_C (R532, R535). -/
def State.throtC (s : State) : Int :=
  let crit := min 102 (s.rd Reg.MGMT_THERM_CFG_CRIT_C 0 0)
  let t := s.rd Reg.MGMT_THERM_CFG_THROT_C 0 0
  (if crit ≤ t then (crit : Int) - 3 else t) - (if s.on Reg.MGMT_CAL_STAT_FACTORY_BAD 0 0 then 10 else 0)

/-- The cores in service. -/
def State.coresOk (s : State) : List CoreId := (List.finRange 6).filter (fun c => s.coreOk c)

/-- THR is written to the Looms of the cores in service: while it is not 0, and once as it becomes 0 (R530). -/
def State.writeThr (s : State) (thr : Nat) : State :=
  let s1 := if thr ≠ 0 ∨ s.on Reg.MGMT_PWR_STAT_THR 0 0 then
    s.coresOk.foldl (fun (x : State) (c : CoreId) => x.put Reg.LOOM_CTRL_THR c 0 thr) s else s
  s1.put Reg.MGMT_PWR_STAT_THR 0 0 thr

/-- The critical-temperature stop (R531): every core's RUN and Loom EN clear, and a running slice ends as skipped. -/
def State.thermCrit (s : State) (sens : Nat) (hot : Int) : State :=
  let s1 := (List.finRange 6).foldl (fun (x : State) (c : CoreId) => (x.setRun c false).put Reg.LOOM_CTRL_EN c 0 0) s
  let s2 := s1.put Reg.MGMT_THERM_STAT_CRIT 0 0 1
  let s3 := if s2.asState = asRun then (s2.asClear s2.asCore).asSkip 4 else s2
  (s3.mgmtEvent 0xD83 [sens, lowBits 32 hot]).raiseAlert

/-- The sample's figures enter the registers (R529, R530, R535): HEADROOM and DRAW in whole watts (log 28). -/
def State.sampleShow (s : State) (ts : List (BitVec 12)) (uw : Nat) : State :=
  let s1 := (List.range 20).foldl (fun (x : State) (j : Nat) => x.put Reg.MGMT_TSENS_TEMP 0 j (ts.getD j 0).toNat) s
  let s2 := (s1.put Reg.MGMT_PWR_STAT_DRAW 0 0 (min 1023 (uw / 1000000))).put Reg.ASSAY_PWR_HEADROOM 0 0
    ((450000000 - uw) / 1000000)
  let j := hottest ts
  (s2.put Reg.MGMT_THERM_STAT_HOT 0 0 (ts.getD j 0).toNat).put Reg.MGMT_THERM_STAT_HOT_SENS 0 0 j

/-- POWER_SAMPLE (R530, R531). -/
def execPowerSample (temps : List (BitVec 12)) (s : State) : Res :=
  let uw := s.drawUw
  let lim := min 450 (s.rd Reg.MGMT_PWR_CFG_PWR_LIM 0 0) * 1000000
  let hyst := s.rd Reg.MGMT_PWR_CFG_PWR_HYST 0 0 * 1000000
  let j := hottest temps
  let hot := sensor temps j
  let p0 := s.mgmt.p
  let q0 := s.rd Reg.MGMT_THERM_STAT_Q 0 0
  let p := requestStep p0 (decide (lim < uw)) (decide (uw + hyst < lim))
  let q := requestStep q0 (decide (s.throtC * 8 ≤ hot)) (decide (hot < (s.throtC - 3) * 8))
  let thr := throttle p q
  .next (if s.fwRuns && !s.held then
      let s1 := ({ s with mgmt := { s.mgmt with p := p } } : State).sampleShow temps uw
      let s2 := ((s1.put Reg.MGMT_THERM_STAT_Q 0 0 q).put Reg.MGMT_THERM_STAT_THROT 0 0 (bit01 (q != 0))).writeThr thr
      let s3 := if p0 = 0 ∧ p ≠ 0 then s2.mgmtEvent 0x181 [uw / 1000000, thr] else s2
      let s4 := if q0 = 0 ∧ q ≠ 0 then (s3.mgmtEvent 0x182 [j, lowBits 32 hot]).raiseAlert else s3
      if decide (s.critC * 8 ≤ hot) && !s.on Reg.MGMT_THERM_STAT_CRIT 0 0 then s4.thermCrit j hot else s4
    else s)

/-- VCORE_STEP (R517, R518): one step of 5 mV, from phase CLOCKS on, within 0.55..0.75 V. -/
def execVcoreStep (up : Bool) (s : State) : Res :=
  let mv := s.rd Reg.MGMT_PWR_STAT_VCORE_MV 0 0
  .next (if 6 ≤ s.phase ∧ ¬ s.held ∧ (if up then mv + 5 ≤ 750 else 555 ≤ mv) then
      (s.put Reg.MGMT_PWR_STAT_VCORE_MV 0 0 (if up then mv + 5 else mv - 5)).emit (.vout up)
    else s)

/-- REGULATOR_READ (R517). -/
def execRegulatorRead (r : Fin 4) (mv ma : Nat) (s : State) : Res :=
  .next (if s.fwRuns && !s.mgmt.resetLow then { s with mgmt := { s.mgmt with vr := s.mgmt.vr.set r (mv, ma) } } else s)

/-! ## The SMBus target (R526, R527) -/

/-- The target answers from the end of phase ROM_START (R526). -/
def State.smbAnswer (s : State) (data : Option (List Byte)) : State := if 2 ≤ s.phase then s.emit (.smb data) else s

/-- SMB_READ_PART_ID (R527). -/
def execSmbReadPartId (s : State) : Res := .next (s.smbAnswer (some (leBytes 4 (s.csrGet Reg.GLOBAL_PART_ID 0 0).toNat)))

/-- SMB_READ_UNITS (R527). -/
def execSmbReadUnits (s : State) : Res := .next (s.smbAnswer (some (leBytes 4 (s.csrGet Reg.GLOBAL_UNITS 0 0).toNat)))

/-- SMB_READ_THERM (R527). -/
def execSmbReadTherm (s : State) : Res := .next (s.smbAnswer (some (leBytes 2 (s.csrGet Reg.MGMT_THERM_STAT 0 0).toNat)))

/-- SMB_READ_DRAW (R527). -/
def execSmbReadDraw (s : State) : Res := .next (s.smbAnswer (some (leBytes 2 (s.rd Reg.MGMT_PWR_STAT_DRAW 0 0))))

/-- SMB_READ_BOOT_STAT (R527). -/
def execSmbReadBootStat (s : State) : Res := .next (s.smbAnswer (some (leBytes 2 (s.csrGet Reg.MGMT_BOOT_STAT 0 0).toNat)))

/-- SMB_READ_LC_STATE (R527). -/
def execSmbReadLcState (s : State) : Res := .next (s.smbAnswer (some (leBytes 1 (s.rd Reg.SEC_LC_STAT_STATE 0 0))))

/-- The rail monitors with a flag set, one bit each (R527). -/
def State.monitorBits (s : State) : Nat :=
  ((numsWhere 12 (fun j => s.on Reg.MGMT_VMON_LOW 0 j || s.on Reg.MGMT_VMON_HIGH 0 j)).map (fun j => 2 ^ j)).foldl (· + ·) 0

/-- SMB_READ_MONITORS (R527). -/
def execSmbReadMonitors (s : State) : Res := .next (s.smbAnswer (some (leBytes 2 s.monitorBits)))

/-- SMB_ALERT_RESPONSE (R527): SMB_ALERT_N rises. -/
def execSmbAlertResponse (s : State) : Res :=
  .next (if s.mgmt.alert then ({ s with mgmt := { s.mgmt with alert := false } } : State).emit (.pin "SMB_ALERT_N" true) else s)

/-- SMB_OTHER_COMMAND (R527): a NACK. The seven codes it does not name have rows of their own. -/
def execSmbOtherCommand (code : BitVec 8) (s : State) : Res :=
  .next (if 1 ≤ code.toNat ∧ code.toNat ≤ 7 then s else s.smbAnswer none)

end Sys2Proof.Machine
end

