-- ==== Sys2Proof/Machine/Sieve.lean ====
section
/-! DEFINITION. The Sieve (11 R333..R342): its queue, scoring, decoding, suppression and records, and its rows. -/

namespace Sys2Proof.Machine

/-! ## The descriptor (R334) -/

def sievFmtD (d : Line) : Fmt := fmtOf (dfld d 0 0 4)
def sievFmtS (d : Line) : Fmt := fmtOf (dfld d 0 4 4)
def sievAgn (d : Line) : Bool := dfld d 1 0 1 == 1
def sievClip (d : Line) : Bool := dfld d 1 1 1 == 1
def sievCtr (d : Line) : Nat := dfld d 1 4 4
def sievNCls (d : Line) : Nat := dfld d 2 0 8 + 1
def sievB (d : Line) : Nat := 16 * (dfld d 3 0 8 + 1)
def sievNAnch (d : Line) : Nat := dfld d 4 0 17
def sievAnch (d : Line) : Nat := dfld d 8 0 32
def sievDelta (d : Line) : Nat := dfld d 12 0 32
def sievScore (d : Line) : Nat := dfld d 16 0 32
def sievOut (d : Line) : Nat := dfld d 20 0 32
def sievCtx (d : Line) : Nat := dfld d 24 0 32
def sievPreK (d : Line) : Nat := dfld d 28 0 16 + 1
def sievPostK (d : Line) : Nat := dfld d 30 0 16
def sievMin (d : Line) : Nat := dfld d 32 0 32
def sievIou (d : Line) : Nat := dfld d 36 0 32
def sievQsfD (d : Line) : Nat := dfld d 40 0 12
def sievQsfS (d : Line) : Nat := dfld d 42 0 12
def sievVar (d : Line) (i : Nat) : Nat := dfld d (44 + 2 * i) 0 16

/-- Reserved bits of a Sieve descriptor are 0. -/
def sievReserved0 (d : Line) : Bool :=
  decide (dfld d 1 2 2 = 0 ∧ dfld d 4 17 15 = 0 ∧ dfld d 40 12 4 = 0 ∧ dfld d 42 12 4 = 0 ∧ dfld d 52 0 32 = 0)

/-- Delta formats (R334). -/
def sievDeltaFmt : Fmt → Bool
  | .u8 | .s8 | .s16 | .fp16 | .bf16 | .fp32 => true
  | _ => false

/-- Score formats (R334). -/
def sievScoreFmt : Fmt → Bool
  | .u8 | .s8 | .u16 | .s16 | .fp16 | .bf16 | .fp32 => true
  | _ => false

/-- Scores of a call. -/
def sievScores (d : Line) : Nat := sievNAnch d * sievNCls d

/-- The check of setup (R335), 0 for a call that runs. -/
def sievCode (d : Line) (len : Nat) : Nat :=
  let inWin (a n : Nat) : Bool := decide (a + n ≤ len)
  let mul (x k : Nat) : Bool := x % k == 0
  if !(mul (sievDelta d) 64 && mul (sievScore d) 64 && mul (sievOut d) 64 && mul (sievAnch d) 16 && mul (sievCtx d) 64) then
    errAlign
  else if !(sievReserved0 d && sievDeltaFmt (sievFmtD d) && sievScoreFmt (sievFmtS d) && decide (1 ≤ sievNAnch d)
      && decide (sievPostK d ≠ 0) && decide (sievScores d ≤ 65536)
      && inWin (sievAnch d) (sievNAnch d * 16) && inWin (sievDelta d) (sievNAnch d * 4 * (fmtBits (sievFmtD d) / 8))
      && inWin (sievScore d) (sievScores d * (fmtBits (sievFmtS d) / 8))
      && inWin (sievOut d) (min (sievPostK d) (min (sievPreK d) (sievScores d)) * 64) && inWin (sievCtx d) 64) then errBound
  else codeOk

/-! ## Arithmetic (R336, R338) -/

/-- exp of a fraction `n / d` below 128 in magnitude, over 2^512: Taylor on a 256th of it, squared back. -/
def expFix (n : Int) (d : Nat) : Int :=
  let one : Int := 2 ^ 512
  let y := n * one / (d * 256 : Nat)
  let (sum, _) := (List.range 80).foldl (fun (p : Int × Int) (i : Nat) =>
    let t := p.2 * y / one / ((i : Int) + 1)
    (p.1 + t, t)) (one, one)
  (List.range 8).foldl (fun (x : Int) (_ : Nat) => x * x / one) sum

/-- exp of an FP32 code, correctly rounded (R336); an overflow gives +∞. -/
def expFp32 (x : Nat) : Nat :=
  match decodeVal .fp32 x with
  | .nan => nanCode .fp32
  | .inf neg => if neg then 0 else infCode .fp32 false
  | .fin neg n d =>
    if 104 * d < n then (if neg then 0 else infCode .fp32 false)
    else encodeFp32 (.fin false (expFix (signNum neg n) d).toNat (2 ^ 512))

/-- The FP32 difference of two FP32 codes (R46). -/
def subFp32 (a b : Nat) : Nat := encodeFp32 (addVal (decodeVal .fp32 a) (negVal (decodeVal .fp32 b)))

/-- The larger of two FP32 codes, as VFMAX. -/
def maxFp32 (a b : Nat) : Nat := minMaxCode .fp32 belowVal a b

/-- The smaller of two FP32 codes, as VFMIN. -/
def minFp32 (a b : Nat) : Nat := minMaxCode .fp32 (fun x y => belowVal y x) a b

/-- The FP32 value of a delta or score code (R235, R336). -/
def sievValue (f : Fmt) (q : Qsf) (code : Nat) : Nat :=
  let v := decodeVal f code
  let x := if fmtInt f then
      match v with
      | .fin neg n _ => valInt (signNum neg n - zpOf f q.zp)
      | y => y
    else v
  encodeFp32 (mulVal (decodeVal .fp32 q.es) x)

/-- A candidate: its index among the scores (anchor × classes + class) and its score. -/
structure Cand where
  idx : Nat
  score : Nat
deriving DecidableEq, Repr

/-- A candidate takes its place behind every one whose score is not lower (R337). -/
def candInsert (k : Cand) : List Cand → List Cand
  | [] => [k]
  | x :: xs => if ltVal (decodeVal .fp32 x.score) (decodeVal .fp32 k.score) then k :: x :: xs else x :: candInsert k xs

/-- A decoded candidate with its box (R336). -/
structure Box where
  cand : Cand
  x0 : Nat
  y0 : Nat
  x1 : Nat
  y1 : Nat
deriving DecidableEq, Repr

/-- The box of an anchor and its deltas (R336). `fp` are FP32 codes: anchor cx, cy, w, h; deltas x, y, w, h. -/
def boxOf (d : Line) (k : Cand) (anchor delta : Nat → Nat) : Box :=
  let v (i : Nat) : Nat := encodeFp32 (decodeVal .fp16 (sievVar d i))
  let cx := addFp32 (anchor 0) (mulFp32 (mulFp32 (delta 0) (v 0)) (anchor 2))
  let cy := addFp32 (anchor 1) (mulFp32 (mulFp32 (delta 1) (v 1)) (anchor 3))
  let w := mulFp32 (anchor 2) (expFp32 (mulFp32 (delta 2) (v 2)))
  let h := mulFp32 (anchor 3) (expFp32 (mulFp32 (delta 3) (v 3)))
  let half := 0x3F000000
  let cut (x : Nat) : Nat := if sievClip d then minFp32 (maxFp32 x 0) (encodeFp32 (valInt (sievB d : Nat))) else x
  { cand := k, x0 := cut (subFp32 cx (mulFp32 half w)), y0 := cut (subFp32 cy (mulFp32 half h)),
    x1 := cut (addFp32 cx (mulFp32 half w)), y1 := cut (addFp32 cy (mulFp32 half h)) }

/-- The area of a box (R338). -/
def Box.area (b : Box) : Nat := mulFp32 (maxFp32 0 (subFp32 b.x1 b.x0)) (maxFp32 0 (subFp32 b.y1 b.y0))

/-- Whether a box is suppressed by a kept one (R338). -/
def suppressed (d : Line) (b k : Box) : Bool :=
  let same := sievAgn d || b.cand.idx % sievNCls d == k.cand.idx % sievNCls d
  let iw := maxFp32 0 (subFp32 (minFp32 b.x1 k.x1) (maxFp32 b.x0 k.x0))
  let ih := maxFp32 0 (subFp32 (minFp32 b.y1 k.y1) (maxFp32 b.y0 k.y0))
  let inter := mulFp32 iw ih
  let union := subFp32 (addFp32 b.area k.area) inter
  same && ltVal (decodeVal .fp32 (mulFp32 (sievIou d) union)) (decodeVal .fp32 inter)

/-- Greedy suppression, at most POST_K kept (R338). -/
def keepBoxes (d : Line) : List Box → List Box → List Box
  | [], kept => kept
  | b :: bs, kept =>
    if sievPostK d ≤ kept.length then kept
    else keepBoxes d bs (if kept.any (suppressed d b) then kept else kept ++ [b])

/-- A result record (R341, R342). -/
def recordOf (d : Line) (ctx : Line) (i : Nat) (b : Box) : Line :=
  let put (x byte bit width v : Nat) : Nat := setBits x (8 * byte + bit) width v
  let x1 := put ctx.toNat 0 0 4 3
  let x2 := put x1 3 0 8 (b.cand.idx % sievNCls d)
  let x3 := put x2 8 0 32 (dfld ctx 8 0 32 + i)
  let x4 := put x3 12 0 32 b.cand.score
  let x5 := put (put (put (put x4 24 0 32 b.x0) 28 0 32 b.y0) 32 0 32 b.x1) 36 0 32 b.y1
  BitVec.ofNat 512 (put x5 44 0 32 (b.cand.idx / sievNCls d))

/-! ## Calls -/

/-- Changes a core's Sieve queue; its status register follows it (R343). -/
def State.setSieve (s : State) (c : CoreId) (q : List SieveCall) : State :=
  ((s.setCore c { s.core c with sieve := q }).put Reg.SIEVE_STAT_QLEN c 0 q.length).put Reg.SIEVE_STAT_BUSY c 0
    (bit01 (!q.isEmpty))

/-- A submission (R333): the window of the running task is latched; a path that is no task has the whole Granary. -/
def State.sieveEnqueue (s : State) (c : CoreId) (t : Option TaskId) (desc : Word) : State :=
  let q := (s.core c).sieve
  if 4 ≤ q.length then s.bump Reg.SIEVE_STAT_REFUSED c 0 1
  else
    let (b, n) := match t with
      | some t => (s.winBase c t, s.winLen c t)
      | none => (0, 0x0400_0000)
    s.setSieve c (q ++ [{ addr := desc &&& 0xFFFFFFC0, winBase := b, winLen := n, run := false, code := 0, kept := 0,
                          passed := 0, ctr := 0 }])

/-- SIEVE_SUBMIT (R333). -/
def execSieveSubmit (c : CoreId) (desc : Word) (s : State) : Res :=
  .next (s.sieveEnqueue c (s.core c).seq.running desc)

/-- A code of a format at a Granary offset, element `i`. -/
def State.sievCodeAt (s : State) (c : CoreId) (off : Nat) (f : Fmt) (i : Nat) : Nat :=
  s.granCode c ((off + i * (fmtBits f / 8)) * 8) (fmtBits f)

/-- What a call came to: its code, candidates kept and passed, and the state with its records and reads. -/
structure SievOut where
  code : Nat
  kept : Nat
  passed : Nat
  st : State

/-- A poisoned read ends a call (R339). -/
def State.sievEcc (s : State) (c : CoreId) (addr passed : Nat) : SievOut :=
  { code := errEcc, kept := 0, passed := passed, st := s.coreEvent c 0x808 [addr] }

/-- Reads in order, each accounted, up to the first that comes back uncorrectable (R193, R339): whether one did. -/
def State.sievReads (s : State) (c : CoreId) : List (Nat × Nat) → Bool × State
  | [] => (false, s)
  | (off, n) :: rest =>
    let (bad, s1) := s.granRead c off n
    if bad then (true, s1) else s1.sievReads c rest

/-- A call whose descriptor passed its checks (R336..R342). -/
def State.sievRun (s : State) (c : CoreId) (base addr : Nat) (d : Line) : SievOut :=
  let qs (i : Nat) : Qsf := ⟨0, 0, s.rd Reg.QSF_SHZP_ZP c i, s.rd Reg.QSF_ESCALE_ES c i⟩
  let fs := sievFmtS d
  let (bad1, s1) := s.granRead c (base + sievScore d) (sievScores d * (fmtBits fs / 8))
  if bad1 then s1.sievEcc c addr 0
  else
    let score (i : Nat) : Nat := sievValue fs (qs (sievQsfS d)) (s.sievCodeAt c (base + sievScore d) fs i)
    let pass (x : Nat) : Bool :=
      ltVal (decodeVal .fp32 (sievMin d)) (decodeVal .fp32 x) || eqVal (decodeVal .fp32 (sievMin d)) (decodeVal .fp32 x)
    let all := ((List.range (sievScores d)).map (fun i => ({ idx := i, score := score i } : Cand))).filter (fun k => pass k.score)
    let top := (all.foldl (fun l k => candInsert k l) []).take (sievPreK d)
    let fd := sievFmtD d
    let eb := fmtBits fd / 8
    let reads := top.flatMap (fun k =>
      [(base + sievAnch d + k.idx / sievNCls d * 16, 16), (base + sievDelta d + k.idx / sievNCls d * 4 * eb, 4 * eb)])
    let (bad2, s2) := s1.sievReads c (reads ++ [(base + sievCtx d, 64)])
    if bad2 then s2.sievEcc c addr all.length
    else
      let box (k : Cand) : Box :=
        let a := k.idx / sievNCls d
        boxOf d k (fun i => s.sievCodeAt c (base + sievAnch d + a * 16) .fp32 i)
          (fun i => sievValue fd (qs (sievQsfD d)) (s.sievCodeAt c (base + sievDelta d) fd (4 * a + i)))
      let kept := keepBoxes d (top.map box) []
      let ctx := lineOf (s.granBytes c (base + sievCtx d) 64)
      let st := kept.zipIdx.foldl (fun (x : State) (b : Box × Nat) =>
        x.granWrite c (base + sievOut d + 64 * b.2) (lineBytes (recordOf d ctx b.2 b.1))) s2
      { code := if all.isEmpty then codeEmpty else codeOk, kept := kept.length, passed := all.length, st := st }

/-- A call with its descriptor (R335). -/
def State.sievCall (s : State) (c : CoreId) (q : SieveCall) : SievOut × Nat :=
  if q.winLen < q.addr.toNat + 64 then ({ code := errBound, kept := 0, passed := 0, st := s }, 0)
  else
    let off := q.winBase + q.addr.toNat
    let d := lineOf (s.granBytes c off 64)
    let (bad, s1) := s.granRead c off 64
    if bad then (s1.sievEcc c q.addr.toNat 0, sievCtr d)
    else
      let code := sievCode d q.winLen
      if code ≠ codeOk then ({ code := code, kept := 0, passed := 0, st := s1 }, sievCtr d)
      else (s1.sievRun c q.winBase q.addr.toNat d, sievCtr d)

/-- SIEVE_CALL (R340): the first call of the queue that has not run. -/
def execSieveCall (c : CoreId) (s : State) : Res :=
  .next (match (s.core c).sieve with
    | [] => s
    | q :: rest =>
      if q.run then s
      else
        let (o, ctr) := s.sievCall c q
        o.st.setSieve c ({ q with run := true, code := o.code, kept := o.kept, passed := o.passed, ctr := ctr } :: rest))

/-- SIEVE_COMPLETE (R339): the completion bytes of the first call, then its counter and SIEVE_DONE. -/
def execSieveComplete (c : CoreId) (s : State) : Res :=
  .next (match (s.core c).sieve with
    | [] => s
    | q :: rest =>
      if q.run then
        let bytes := [BitVec.ofNat 8 q.code, 0x80] ++ leBytes 2 q.kept ++ leBytes 4 q.passed
        let s1 := if q.addr.toNat + 64 ≤ q.winLen then s.granWrite c (q.winBase + q.addr.toNat + 56) bytes else s
        ((s1.setSieve c rest).setPub c q.ctr (s1.rd Reg.PIPE_PUB_COUNT c q.ctr + 1)).bump Reg.SIEVE_DONE_COUNT c 0 1
      else s)

/-- A write of 1 to ABORT (R339): every call ends with ERR_DISABLED. -/
def State.sieveStop (s : State) (c : CoreId) : State :=
  s.setSieve c ((s.core c).sieve.map (fun (q : SieveCall) =>
    if q.run then { q with code := if errAlign ≤ q.code then q.code else errDisabled }
    else
      let d := lineOf (s.granBytes c (q.winBase + q.addr.toNat) 64)
      { q with run := true, code := errDisabled, ctr := sievCtr d }))

/-- SIEVE_ABORT (R339). -/
def execSieveAbort (c : CoreId) (s : State) : Res := .next (s.sieveStop c)

end Sys2Proof.Machine
end

