-- ==== Sys2Proof/Machine/CsrMap.lean ====
section
/-! DEFINITION. Finding the register of a CSR offset, and what a write does to its fields by type and class (00 R6..R9; R175;
R536). -/

namespace Sys2Proof.Machine

/-- A register named by an offset: its family and fields, unit and number, and which half. -/
structure RegRef where
  fam : RegFam
  flds : List Fld
  u : Nat
  i : Nat
  high : Bool
deriving DecidableEq, Repr

/-- The block of an offset, its unit, and the offset in it. -/
def blkAt (off : Nat) : Option (Blk × Nat × Nat) :=
  let o := off % 0x100_0000
  match off / 0x100_0000 with
  | 0 => some (.global, 0, o)
  | 1 =>
    let n := o / 0x10_0000
    let a := o % 0x10_0000
    if 6 ≤ n then none
    else if 0xC000 ≤ a ∧ a < 0xC400 then some (.tg, 8 + n, a - 0xC000)
    else if 0xC400 ≤ a ∧ a < 0xC800 then some (.tg, 14 + n, a - 0xC400)
    else some (.core, n, a)
  | 2 =>
    if o < 0x1_0000 then some (.dram, 0, o)
    else
      let c := (o - 0x1_0000) / 0x1_0000
      let a := o % 0x1_0000
      if 8 ≤ c then none else if 0x1000 ≤ a ∧ a < 0x1400 then some (.tg, c, a - 0x1000) else some (.dramCh, c, a)
  | 3 => if 0x3000 ≤ o ∧ o < 0x4800 then some (.tg, 20 + (o - 0x3000) / 0x400, (o - 0x3000) % 0x400) else some (.fabric, 0, o)
  | 4 => some (.host, 0, o)
  | 5 => some (.hopper, 0, o)
  | 6 => some (.lock, 0, o)
  | 7 => if 0x100 ≤ o ∧ o < 0x500 then some (.tg, 26, o - 0x100) else some (.event, 0, o)
  | 8 => some (.sec, 0, o)
  | 9 => some (.assay, 0, o)
  | 10 => some (.mgmt, 0, o)
  | _ => none

/-- The first register of a table that holds an offset of its block: its family, fields, number and half. -/
def regIn (o : Nat) : List (RegFam × List Fld) → Option (RegFam × List Fld × Nat × Bool)
  | [] => none
  | (r, fs) :: t =>
    let i := if r.stride = 0 then 0 else (o - r.off) / r.stride
    let m := o - r.off - i * r.stride
    if r.off ≤ o ∧ i < r.count ∧ (m = 0 ∨ (r.wide ∧ m = 4)) then some (r, fs, i, decide (m = 4)) else regIn o t

/-- Whether the family is that of a name. -/
def RegRef.is (r : RegRef) (f : RegFam) : Bool := decide (r.fam.blk = f.blk) && decide (r.fam.off = f.off)

/-- Registers that some units do not have: slot registers of a Tollgate that serves no DRAM channel (R393), and pieces of cores
that were never built (R308). -/
def RegRef.built (r : RegRef) : Bool :=
  !((r.is Reg.TG_SLOT || r.is Reg.TG_SLOT_HITS) && decide (8 ≤ r.u))
    && !((r.is Reg.HOP_PIECE || r.is Reg.HOP_PIECEW || r.is Reg.HOP_PIECEH) && decide (6 ≤ r.i % 16))

/-- The register at a CSR offset; `none` where the offset holds none. -/
def csrFind (off : Nat) : Option RegRef :=
  match blkAt off with
  | none => none
  | some (b, u, o) =>
    match regIn o (Reg.table b) with
    | none => none
    | some (f, fs, i, h) =>
      let r : RegRef := { fam := f, flds := fs, u := u, i := i, high := h }
      if r.built then some r else none

/-- The offset of the register's low half. -/
def RegRef.addr (r : RegRef) : Nat := r.fam.addr r.u r.i

/-- The bits of a field. -/
def fldMask (f : Fld) : BitVec 64 := BitVec.ofNat 64 ((2 ^ f.width - 1) * 2 ^ f.lsb)

/-- The bits of a half. -/
def halfMask (high : Bool) : BitVec 64 := if high then 0xFFFF_FFFF_0000_0000 else 0xFFFF_FFFF

/-- A word in the place of a half. -/
def halfWord (high : Bool) (v : Word) : BitVec 64 := if high then v.setWidth 64 <<< 32 else v.setWidth 64

/-- The bits of a register's fields that satisfy a test. -/
def RegRef.bits (r : RegRef) (p : Fld → Bool) : BitVec 64 := (r.flds.filter p).foldl (fun m f => m ||| fldMask f) 0

/-! ## Busy conditions of locked fields (R8, R9) -/

/-- Whether a task holds a job: READY, RUNNING or WAITING (R123). -/
def Task.active (k : Task) : Bool := k.st == .ready || k.st == .running || k.st == .waiting

/-- Whether any task of a core holds a job. -/
def State.anyTask (s : State) (c : CoreId) : Bool := (s.core c).seq.tasks.any Task.active

/-- Whether any slot or bus of the vector unit is occupied (R134, R139). -/
def State.unitsBusy (s : State) (c : CoreId) : Bool :=
  (s.core c).vec.units.any (fun e => decide ((s.core c).seq.cc < e.2))

/-- Whether operations of a vector bundle have reached the sequencer and not issued (R139). -/
def State.vecInD (s : State) (c : CoreId) : Bool :=
  match (s.core c).seq.bundle with
  | none => false
  | some b => b.ops.any (fun o => o.slot == .va || o.slot == .vp || o.slot == .vr || o.slot == .vl || o.slot == .vs)

/-- Whether the vector unit is busy: a slot or bus occupied, or waking (R159). -/
def State.vecBusy (s : State) (c : CoreId) : Bool := decide ((s.core c).vec.pwr = .waking) || s.unitsBusy c

/-- Whether the DRAM serves a request (R376). -/
def State.dramBusy (s : State) : Bool :=
  s.reqs.any (fun (r : MemReq) => !r.remote && r.parts.any (fun p =>
    p.stage != .done && (match placeOf p.addr with | .dram _ => true | _ => false)))

/-- Whether a ring holds entries whose completion is not written. -/
def State.ringBusy (s : State) (c : CoreId) (k : Nat) : Bool :=
  s.rd Reg.CARTER_RING_TAIL_TAIL c k != s.rd Reg.CARTER_RING_DONE_DONE c k
    || (decide (s.ringKind c k = 2) && (List.range 64).any (fun ch =>
          s.on Reg.CARTER_CH_CFG_SRC c ch && decide (s.rd Reg.CARTER_CH_CFG_RING c ch = k) && s.chanState c ch != 0))

/-- Whether the owner of a core's locked fields is busy. -/
def State.coreFldBusy (s : State) (r : RegRef) : Bool :=
  let c : CoreId := Fin.ofNat 6 r.u
  if r.is Reg.CORE_SEQ_CTRL then s.anyTask c
  else if r.is Reg.CORE_TASK_GBASE || r.is Reg.CORE_TASK_GLEN || r.is Reg.CORE_TASK_DSL then (s.task c (Fin.ofNat 8 r.i)).active
  else if r.is Reg.CORE_VEC_CTRL then s.vecBusy c
  else if r.is Reg.GRAN_PCLASS then s.anyTask c || s.loomIsBusy c || (List.range 64).any (fun ch => s.chanState c ch != 0)
  else if r.is Reg.LOOM_TEST_SEL || r.is Reg.AGEN_CTRL then s.loomIsBusy c
  else if r.is Reg.TALLY_SLOT_CFG then s.on Reg.TALLY_SLOT_PSTAT_OPEN c r.i
  else if r.is Reg.CARTER_CH_CFG then s.chanState c r.i != 0
  else if r.is Reg.CARTER_RING_BASE || r.is Reg.CARTER_RING_CFG then s.ringBusy c r.i
  else false

/-- Whether the owner of a register's locked fields is busy (R9). -/
def State.fldBusy (s : State) (r : RegRef) : Bool :=
  match r.fam.blk with
  | .core => s.coreFldBusy r
  | .hopper => r.is Reg.HOP_CAM_CFG && (let st := s.rd Reg.HOP_CAM_STAT_STATE 0 r.i; st == camDiscover || st == camStream)
  | .dram => r.is Reg.DRAM_MAP && s.dramBusy
  | .fabric =>
    if r.is Reg.FAB_PORT_CFG then s.on Reg.FAB_PORT_STAT_STATE 0 r.i
    else if r.is Reg.FAB_WIN_BASE || r.is Reg.FAB_WIN_CFG || r.is Reg.FAB_WIN_PEER then s.on Reg.FAB_WIN_STAT_STATE 0 r.i
    else s.rd Reg.FAB_RING_TAIL_TAIL 0 r.i != s.rd Reg.FAB_RING_DONE_DONE 0 r.i
  | .host =>
    if r.is Reg.HOST_RING_BASE || r.is Reg.HOST_RING_CFG then s.rd Reg.HOST_RING_TAIL_TAIL 0 r.i != s.rd Reg.HOST_RING_DONE_DONE 0 r.i
    else s.hostOpen
  | .mgmt => if r.is Reg.MGMT_BOOT_POLICY then decide (s.phase ≠ 5) else s.on Reg.MGMT_STORE_STAT_BUSY 0 0
  | .sec => s.on Reg.SEC_LC_STAT_REQ_BUSY 0 0
  | .assay => s.on Reg.ASSAY_STAT_STATE 0 0
  | .event => s.on Reg.LEDGER_STAT_DUMP_BUSY 0 0
  | _ => false

/-! ## A write by type and class -/

/-- A write of `v` to a half of a register but for the fields of `skip` (R6, R8). A field of type WO keeps the word written where
its register has two halves, for the half that acts. `force` is an entry of a configuration copy (R456): no block is busy, and a
staged field takes its value at once. -/
def State.plain (s : State) (r : RegRef) (v : Word) (skip : List Fld) (force : Bool) : State :=
  let fs := r.flds.filter (fun f => !skip.contains f && !(r.is Reg.TG_CTRL && f == Reg.TG_CTRL_SLOTS && decide (8 ≤ r.u)))
  let q : RegRef := { r with flds := fs }
  let w := halfWord r.high v
  let h := halfMask r.high
  let lockedBits := q.bits (fun f => f.ty == .rw && f.cls == .locked) &&& h
  let busy := !force && lockedBits != 0 && s.fldBusy r
  let stagedBits := q.bits (fun f => f.ty == .rw && f.cls == .staged) &&& h
  let liveBits := q.bits (fun f => (f.ty == .rw && f.cls == .live) || (f.ty == .wo && r.fam.wide)) &&& h
  let set := liveBits ||| (if busy then 0 else lockedBits) ||| (if force then stagedBits else 0)
  let clr := q.bits (fun f => f.ty == .w1c) &&& h &&& w
  let x := s.csrGet r.fam r.u r.i
  let s1 := if set = 0 && clr = 0 then s else s.csrPut r.fam r.u r.i (((x &&& ~~~set) ||| (w &&& set)) &&& ~~~clr)
  let (m, y) := cellGet ((0 : BitVec 64), (0 : BitVec 64)) s1.shadow r.addr
  let e : BitVec 64 × BitVec 64 := if force then (m &&& ~~~stagedBits, y &&& ~~~stagedBits)
    else (m ||| stagedBits, (y &&& ~~~stagedBits) ||| (w &&& stagedBits))
  let s2 := if stagedBits = 0 then s1 else { s1 with shadow := cellPut (0, 0) s1.shadow r.addr e }
  if busy then s2.cfgBusy (r.addr + (if r.high then 4 else 0)) else s2

end Sys2Proof.Machine
end

