-- ==== Sys2Proof/Machine/Csr.lean ====
section
/-! DEFINITION. Reads and writes of the CSR space on every path (00 R6..R9; R21, R115, R175, R356, R433, R460, R536, R539), and
the rows of them. -/

namespace Sys2Proof.Machine

/-- Whether a path reaches an offset: the device is not held in reset, a sequencer reaches its own core's block (R175), and JTAG
the registers in the states of R475. -/
def State.csrOpen (s : State) (p : Path) (off : Nat) : Bool :=
  !s.held && (match p with
    | .core n => decide (off / 0x10_0000 = 0x10 + n.val)
    | .jtag => jtagDebug s.lcState
    | _ => true)

/-! ## Reads -/

/-- The requester's number among the latches of R21. -/
def latchOf : Path → Nat
  | .core n => n.val
  | .carter n _ => 6 + n.val
  | .host => 12
  | .mgmt => 13
  | .jtag => 14

/-- The key of a requester's latch for a register. -/
def RegRef.latchKey (r : RegRef) (p : Path) : Nat := latchOf p * 2 ^ 28 + r.addr

/-- Whether the register is read by R21: a GLOBAL_TICK register, or one of 64 bits with a field of type RC. -/
def RegRef.latched (r : RegRef) : Bool :=
  r.fam.wide && (r.flds.any (fun f => f.ty == .rc) || (r.fam.blk == .global && decide (0x100 ≤ r.fam.off)))

/-- CORE_SEQ_STAT as it reads (R120). -/
def State.seqStat (s : State) (c : CoreId) : Nat :=
  let q := (s.core c).seq
  let t := q.running.getD q.last
  let k := q.tasks.get t
  bit01 q.running.isSome + 2 * bit01 q.double + 4 * t.val + 32 * srLDEPTH k.sr + 256 * k.rstk.length + 2 ^ 15 * q.sbuf.length

/-- The code of a task's state (R123). -/
def taskCode : TaskSt → Nat
  | .free => 0
  | .ready => 1
  | .running => 2
  | .waiting => 3
  | .halted => 4

/-- CORE_VEC_STAT as it reads (R160): the slots and buses occupied at this cc. -/
def State.vecStat (s : State) (c : CoreId) : Nat :=
  let v := (s.core c).vec
  let pwr := match v.pwr with | .down => 0 | .waking => 1 | .on => 2
  let busy (u : VUnit) : Nat := bit01 (v.units.any (fun e => e.1 == u && decide ((s.core c).seq.cc < e.2)))
  pwr + 4 * busy .va0 + 8 * busy .va1 + 16 * busy .vp + 32 * busy .vr + 64 * busy .x + 128 * busy .y + 256 * busy .z
    + 512 * s.rd Reg.CORE_VEC_CTRL_HALF c 0

/-- LOCK_STATE of a lock as it reads (R394). -/
def State.lockState (s : State) (l : Nat) : Nat :=
  let k := s.lock l
  let own := match k.owner with | none => 0 | some o => 1 + 16 * ownerKind o + 2 ^ 16 * ownerId o
  own + 2 * bit01 k.broken + 2 ^ 32 * k.waiters.length + 2 ^ 48 * k.gen.toNat

/-- What a core's register reads as beside its cell. -/
def State.coreView (s : State) (r : RegRef) (x : Nat) : Nat × State :=
  let c : CoreId := Fin.ofNat 6 r.u
  if r.is Reg.CORE_SEQ_STAT then (s.seqStat c, s)
  else if r.is Reg.CORE_TASK_CFG then
    let k := s.task c (Fin.ofNat 8 r.i)
    (setBits (setBits x 4 3 (taskCode k.st)) 8 1 (bit01 k.haltReq), s)
  else if r.is Reg.CORE_VEC_STAT then (s.vecStat c, s)
  else if r.is Reg.GRAN_STAT then
    (setBits (setBits x 1 1 (bit01 (!(s.core c).gran.fill.isEmpty))) 2 5 (s.core c).gran.scrubQ.length, s)
  else if r.is Reg.GRAN_RING_SHAPE then (setBits x 31 1 (bit01 (s.geoOk c r.i)), s)
  else if r.is Reg.LOOM_STAT then (s.loomStat c, s)
  else if r.is Reg.LOOM_TEST_DATA then
    (match s.loomTestData c with
      | some v => (v, s)
      | none => let (b, s1) := s.draw 32; (b.toNat, s1))
  else if r.is Reg.CARTER_CH_STAT then (s.chanStat c r.i, s)
  else if r.is Reg.CARTER_STAT then (setBits x 0 12 (s.bufFree c), s)
  else (x, s)

/-- What a register reads as, all 64 bits: its cell without the fields of type WO, or what its block shows. -/
def State.regView (s : State) (r : RegRef) : BitVec 64 × State :=
  let x := (s.csrGet r.fam r.u r.i &&& ~~~(r.bits (fun f => f.ty == .wo))).toNat
  let (v, s1) := match r.fam.blk with
    | .core => s.coreView r x
    | .global => (if 0x100 ≤ r.fam.off then s.tick ((r.fam.off - 0x100) / 8) else x, s)
    | .lock =>
      (if r.is Reg.LOCK_STAT then 512 - s.waitersUsed else if r.is Reg.LOCK_STATE then s.lockState r.i else x, s)
    | .fabric => (if r.is Reg.FAB_STAT then setBits x 0 14 s.fabTagFree else x, s)
    | .assay => (if r.is Reg.ASSAY_FUSE then setBits x 16 10 s.unfused else x, s)
    | .event => (if r.is Reg.LEDGER_STAT then setBits x 0 14 s.ledger.ring.length else x, s)
    | _ => (x, s)
  (BitVec.ofNat 64 v, s1)

/-- The fields of type RC are cleared (R6, R21); the lowest count of free blocks starts over at the present one (R306). -/
def State.rcClear (s : State) (r : RegRef) : State :=
  let m := r.bits (fun f => f.ty == .rc) &&& (if r.fam.wide then BitVec.allOnes 64 else 0xFFFF_FFFF)
  if m = 0 then s
  else if r.is Reg.HOP_POOL_STAT then s.put Reg.HOP_POOL_STAT_MINFREE 0 0 (s.rd Reg.HOP_POOL_STAT_FREE 0 0)
  else s.csrPut r.fam r.u r.i (s.csrGet r.fam r.u r.i &&& ~~~m)

/-- A 32-bit read (R6, R21): an offset that holds no register reads 0. -/
def State.csrRead (s : State) (p : Path) (off : Nat) : Word × State :=
  match if s.csrOpen p off then csrFind off else none with
  | none => (0, s)
  | some r =>
    if r.latched && r.high then (cellGet 0 s.latch (r.latchKey p), s)
    else
      let (x, s1) := s.regView r
      let hi : Word := BitVec.ofNat 32 (x.toNat / 2 ^ 32)
      let s2 := if r.latched then { s1 with latch := cellPut 0 s1.latch (r.latchKey p) hi } else s1
      (if r.high then hi else BitVec.ofNat 32 x.toNat, s2.rcClear r)

/-! ## Writes -/

/-- A bit of a word. -/
def wbit (v : Word) (k : Nat) : Bool := v.getLsbD k

/-- A write to a register of the sequencer, the vector unit or the Granary with an effect of its own; `none` for a plain one. -/
def State.seqWrite (s : State) (r : RegRef) (v : Word) (force : Bool) : Option State :=
  let c : CoreId := Fin.ofNat 6 r.u
  if r.is Reg.CORE_SEQ_CTRL then
    let s1 := (s.plain r v [Reg.CORE_SEQ_CTRL_RUN] force).setRun c (wbit v 0)
    some (if wbit v 1 then s1.seqCinv c else s1)
  else if r.is Reg.CORE_TIMER_CMP then some (s.timerCmpWrite c r.high v)
  else if r.is Reg.CORE_TASK_CFG then
    let t : TaskId := Fin.ofNat 8 r.i
    let s1 := s.plain r v [] force
    let s2 := if wbit v 9 then s1.releaseWrite c t else s1
    some (if wbit v 8 then s2.haltReqWrite c t else s2)
  else if r.is Reg.CORE_IRQ_EN then some ((s.plain r v [] force).wakeTasks c)
  else if r.is Reg.CORE_IRQ_SET then some (s.irqSetWrite c v.toNat)
  else if r.is Reg.CORE_VEC_CTRL then
    let s1 := s.plain r v [] force
    some (if wbit v 2 then s1.beginWake c else s1)
  else if r.is Reg.GRAN_REPAIR_REQ then
    some (if wbit v 20 then s.askRepair c (bitsOf v.toNat 15 5) (bitsOf v.toNat 0 15) else s)
  else if r.is Reg.GRAN_PCLASS then
    some (if !force && s.fldBusy r then s.cfgBusy r.addr else s.classWrite c r.i v.toNat)
  else none

/-- A write to a register of the Loom, the Tally, the pipeline or the Sieve with an effect of its own. `task` is the running task of
a write that came by CSRW, `own` whether it came from the core itself. -/
def State.unitWrite (s : State) (r : RegRef) (v : Word) (task : Option TaskId) (own force : Bool) : Option State :=
  let c : CoreId := Fin.ofNat 6 r.u
  if r.is Reg.LOOM_CTRL then
    let s1 := s.plain r v [] force
    let s2 := if s1.on Reg.MGMT_THERM_STAT_CRIT 0 0 then s1.put Reg.LOOM_CTRL_EN c 0 0 else s1
    some (if wbit v 1 then s2.loomAbort c else s2)
  else if r.is Reg.TALLY_CLOSE then some (if wbit v 8 then s.tallyGo c (bitsOf v.toNat 0 8) else s)
  else if r.is Reg.TALLY_SLOT_CFG then
    some (s.plain r v (if 8 ≤ bitsOf v.toNat 8 4 then [Reg.TALLY_SLOT_CFG_FMT] else []) force)
  else if r.is Reg.PIPE_RING_REL then some (s.relWrite c r.i v.toNat)
  else if r.is Reg.PIPE_PUB then some (if s.underTest c && !own then s else s.setPub c r.i v.toNat)
  else if r.is Reg.PIPE_WATCH then some ((s.plain r v [] force).watchWrite c (Fin.ofNat 4 r.i))
  else if r.is Reg.SIEVE_SUBMIT then some (s.sieveEnqueue c task v)
  else if r.is Reg.SIEVE_CTRL then some (if wbit v 0 then s.sieveStop c else s)
  else none

/-- A write to a register of the Carter or the lock port with an effect of its own. -/
def State.carterWrite (s : State) (r : RegRef) (v : Word) (task : Option TaskId) (force : Bool) : Option State :=
  let c : CoreId := Fin.ofNat 6 r.u
  if r.is Reg.CARTER_CH_CTRL then some (s.disWrite c (Fin.ofNat 64 r.i) (wbit v 0))
  else if r.is Reg.CARTER_RING_CFG then
    some (s.plain r v (if 13 ≤ bitsOf v.toNat 4 4 then [Reg.CARTER_RING_CFG_LOG2SZ] else []) force)
  else if r.is Reg.CARTER_RING_TAIL then some (s.tailWrite (.core c r.i) v.toNat).2
  else if r.is Reg.CARTER_RING_HEAD then some (s.headWrite c r.i v.toNat)
  else if r.is Reg.CORE_LOCK_REQ then
    some (match task with
      | none => s
      | some t => s.coreLockReq c t (bitsOf v.toNat 12 3) (bitsOf v.toNat 0 10))
  else none

/-- A write to a register of the fabric with an effect of its own. -/
def State.fabWrite (s : State) (r : RegRef) (v : Word) (force : Bool) : Option State :=
  if r.is Reg.FAB_ENUM then
    let s1 := s.plain r v [] force
    some (if wbit v 0 then s1.enumGo else s1)
  else if r.is Reg.FAB_PEER_LOST then
    let a := BitVec.ofNat 16 v.toNat
    let s1 := if wbit v 16 then s.peerLost a else s
    some (if wbit v 17 then s1.peerFound a else s1)
  else if r.is Reg.FAB_LOCK_REQ then some (s.fabLockWrite r.i v)
  else if r.is Reg.FAB_WIN_CTRL then
    let s1 := if wbit v 0 then s.winOpen r.i else s
    some (if wbit v 1 then s1.winClose r.i else s1)
  else if r.is Reg.FAB_RING_CFG then
    some (s.plain r v (if 13 ≤ bitsOf v.toNat 4 4 then [Reg.FAB_RING_CFG_LOG2SZ] else []) force)
  else if r.is Reg.FAB_RING_TAIL then some (s.tailWrite (.fab r.i) v.toNat).2
  else none

/-- A write to a register of the host port or the Hopper with an effect of its own. -/
def State.hostHopWrite (s : State) (r : RegRef) (v : Word) (force : Bool) : Option State :=
  if r.is Reg.HOP_CTRL then some (s.plain r v [] force).hopCtrlWritten
  else if r.is Reg.HOST_CTRL then
    let s1 := s.plain r v [] force
    some (if wbit v 5 then s1.endSession 4 else s1)
  else if r.is Reg.HOST_RING_CFG then
    some (s.plain r v (if 13 ≤ bitsOf v.toNat 4 4 then [Reg.HOST_RING_CFG_LOG2SZ] else []) force)
  else if r.is Reg.HOST_RING_TAIL then some (s.tailWrite (.host r.i) v.toNat).2
  else if r.is Reg.HOP_TRIG then some (if wbit v 5 then s.trigger (Fin.ofNat 16 v.toNat) (wbit v 4) else s)
  else if r.is Reg.HOP_CAM_CFG then
    some (s.plain r v [] force).judgeBindings
  else if r.is Reg.HOP_CAM_POOL then
    let others := (((List.range 16).filter (fun c => c != r.i)).map (fun c => s.rd Reg.HOP_CAM_POOL_RSV 0 c)).foldl (· + ·) 0
    some (if 8192 < others + bitsOf v.toNat 0 14 then
        (s.plain r v [Reg.HOP_CAM_POOL_RSV] force).put Reg.HOP_POOL_STAT_RSV_ERR 0 0 1
      else s.plain r v [] force)
  else none

/-- A write to a register of the security block, the Assay engine or the Ledger with an effect of its own. The hold-up ADC that a key
generation reads is a free value here (log 2). -/
def State.secWrite (s : State) (p : Path) (r : RegRef) (v : Word) (force : Bool) : Option State :=
  if r.is Reg.SEC_LC_REQ then some (if wbit v 7 && s.lcPath p then s.lcRequest (bitsOf v.toNat 0 3) else s)
  else if r.is Reg.SEC_KEYGEN then
    some (if wbit v 0 then let (b, s1) := s.draw 16; s1.keygenGo b.toNat else s)
  else if r.is Reg.SEC_SVN then some (if wbit v 31 then s.svnRaise (bitsOf v.toNat 16 7) else s)
  else if r.is Reg.ASSAY_REQ then some (if wbit v 7 then s.assayReq (bitsOf v.toNat 0 3) else s)
  else if r.is Reg.ASSAY_RETIRE then some (if wbit v 7 then s.assayRetire (bitsOf v.toNat 0 3) else s)
  else if r.is Reg.ASSAY_FUSE then
    let s1 := s.plain r v [] force
    some (if wbit v 0 then s1.fuseGo else s1)
  else if r.is Reg.LEDGER_DUMP then some (if wbit v 31 then s.ledgerDump (bitsOf v.toNat 0 18) (bitsOf v.toNat 18 12) else s)
  else none

/-- A write to a register of the management controller with an effect of its own; MGMT_CFG_SEL's is `cfgSelGo`. The word written to
the other half of a wide register stands in it until GO or OP acts. -/
def State.mgmtWrite (s : State) (r : RegRef) (v : Word) (force : Bool) : Option State :=
  if r.is Reg.MGMT_RESET then some (if wbit v 0 then s.resetGo else s)
  else if r.is Reg.MGMT_STORE_REQ then
    let s1 := s.plain r v [] force
    some (if wbit v 7 && !r.high && s.fwRuns then
        s1.storeRequest (s1.rd Reg.MGMT_STORE_REQ_AREA 0 0) (s1.rd Reg.MGMT_STORE_REQ_LINES 0 0)
          (s1.rd Reg.MGMT_STORE_REQ_SRC 0 0 * 64)
      else s1)
  else if r.is Reg.MGMT_FLASH_CMD then
    let s1 := s.plain r v [] force
    some (if r.high then s1 else s1.flashCmdGo (bitsOf v.toNat 0 2) (s1.rd Reg.MGMT_FLASH_CMD_ADDR 0 0))
  else none

/-- A write of `v` to a half of a register (R6, R8): its own effect where it has one. -/
def State.regWrite (s : State) (p : Path) (r : RegRef) (v : Word) (force : Bool) : State :=
  let task := match p with | .core n => (s.core n).seq.running | _ => none
  let own := match p with | .core _ => true | _ => false
  let special := match r.fam.blk with
    | .core => ((s.seqWrite r v force).or (s.unitWrite r v task own force)).or (s.carterWrite r v task force)
    | .dram =>
      if r.is Reg.DRAM_RETIRE then some (if wbit v 8 then s.askRetire (bitsOf v.toNat 0 3) 4 else s) else none
    | .lock =>
      if r.is Reg.LOCK_OP then
        some (match p with
          | .carter c ch => if ch.val < 4 then s.lockOp (.chan c ch) (bitsOf v.toNat 0 3) r.i else s.lockForeign
          | _ => s.lockForeign)
      else none
    | .fabric => s.fabWrite r v force
    | .host | .hopper => s.hostHopWrite r v force
    | .sec | .assay | .event => s.secWrite p r v force
    | .mgmt => s.mgmtWrite r v force
    | _ => none
  special.getD (s.plain r v [] force)

/-! ## Configuration copies (R455, R456) -/

/-- Whether the entries to a register are skipped (R456). -/
def RegRef.skipped (r : RegRef) : Bool :=
  r.fam.blk == .sec || r.fam.blk == .assay || r.is Reg.MGMT_RESET || r.is Reg.MGMT_STORE_REQ || r.is Reg.MGMT_CFG_SEL

/-- One entry of a configuration copy (R456). -/
def State.cfgEntry (s : State) (e : List Byte) : State :=
  let mask := leNat ((e.drop 4).take 4)
  match csrFind (leNat (e.take 4)) with
  | none => s
  | some r =>
    if r.skipped then s.bump Reg.MGMT_BOOT_POLICY_SKIP 0 0 1
    else
      let m := halfWord r.high (BitVec.ofNat 32 mask)
      let rw := r.bits (fun f => f.ty == .rw)
      let s1 := if r.bits (fun f => f.ty == .ro || f.ty == .wo) &&& m = 0 then s else s.bump Reg.MGMT_BOOT_POLICY_SKIP 0 0 1
      if rw &&& m = 0 then s1
      else
        let old := s1.csrGet r.fam r.u r.i
        let new := ((old &&& ~~~m) ||| (halfWord r.high (BitVec.ofNat 32 (leNat ((e.drop 8).take 4))) &&& m)) &&& rw
        s1.regWrite .mgmt r (BitVec.ofNat 32 (new.toNat / (if r.high then 2 ^ 32 else 1))) true

/-- The entries of a copy, in order (R456); at most `n`. -/
def State.cfgEntries (s : State) (bs : List Byte) : Nat → State
  | 0 => s
  | n + 1 => (s.cfgEntry (bs.take 16)).cfgEntries (bs.drop 16) n

/-- Applies configuration copy `k` (R454, R456): MGMT_BOOT_STAT.CFG_COPY shows it. -/
def State.cfgApply (s : State) (k : Nat) : State :=
  let info := s.copyInfo (areaBase 0 k) (areaMagic 0)
  let bs := s.flashBytes (areaBase 0 k) (64 + 16 * info.nent)
  let s1 := { s with mgmt := { s.mgmt with cfgSeq := info.seq, cfgDigest := info.digest, cfgBytes := bs } }
  (s1.put Reg.MGMT_BOOT_STAT_CFG_COPY 0 0 k).cfgEntries (bs.drop 64) info.nent

/-- A write of GO to MGMT_CFG_SEL (R455): applied while start-up waits after a conflict, if the copy is intact. -/
def State.cfgSelGo (s : State) (k : Nat) : State :=
  if s.mgmt.waiting && decide (k < 3) && (s.copyInfo (areaBase 0 k) (areaMagic 0)).intact then
    let s1 := s.cfgApply k
    ({ s1 with mgmt := { s1.mgmt with waiting := false } } : State).put Reg.MGMT_BOOT_STAT_PHASE 0 0 7
  else s.put Reg.MGMT_CFG_SEL_ERR 0 0 1

/-- MGMT_CFG_SEL_GO (R455). -/
def execMgmtCfgSelGo (copy : BitVec 2) (s : State) : Res := .next (if s.held then s else s.cfgSelGo copy.toNat)

/-! ## Rows -/

/-- A 32-bit write on a path (R6..R9): a write to an offset without a register has no effect. -/
def State.csrWrite (s : State) (p : Path) (off : Nat) (v : Word) : State :=
  match if s.csrOpen p off then csrFind off else none with
  | none => s
  | some r =>
    if r.is Reg.MGMT_CFG_SEL then
      let s1 := s.plain r v [] false
      if wbit v 4 then s1.cfgSelGo (bitsOf v.toNat 0 2) else s1
    else s.regWrite p r v false

/-- REGISTER_WRITE (R8). -/
def execRegisterWrite (p : Path) (off : BitVec 28) (v : Word) (s : State) : Res := .next (s.csrWrite p off.toNat v)

/-- RC_READ (R21). -/
def execRcRead (p : Path) (off : BitVec 28) (s : State) : Res := .next (s.csrRead p off.toNat).2

/-- The votes and repairs of a mirrored register (R460, R461, R414). -/
def State.checkMirror (s : State) (r : RegRef) : State :=
  let m := cellGet ((0 : Word), (0 : Word)) s.mirror r.addr
  let sec := r.is Reg.SEC_LC_SHADOW
  if m = (0, 0) then s
  else if m.1 ≠ 0 ∧ m.2 ≠ 0 ∧ m.1 ≠ m.2 then
    (if sec then s.lcVoteFail else s.voteFail (if r.is Reg.FAB_ADDR then none else some r.i))
  else
    (s.csrPut r.fam r.u r.i (s.csrGet r.fam r.u r.i)).bump
      (if sec then Reg.MGMT_VOTE_STAT_LC_FIX else Reg.FAB_VOTE_FIX_CNT_COUNT) 0 0 1

/-- CHECKER_VISIT (R460). -/
def execCheckerVisit (off : BitVec 28) (s : State) : Res :=
  .next (match if s.held then none else csrFind off.toNat with
    | none => s
    | some r => if r.is Reg.FAB_ADDR || r.is Reg.FAB_ROUTE || r.is Reg.SEC_LC_SHADOW then s.checkMirror r else s)

end Sys2Proof.Machine
end

