-- ==== Sys2Proof/Machine/Boot.lean ====
section
/-! DEFINITION. Start-up (16 R445, R447, R449..R458, R462..R464; 06 R203; 18 R503, R506, R507; 19 R520): one row per phase. PHASE shows
the phase that runs; a phase's row does its work and begins the next one. -/

namespace Sys2Proof.Machine

/-- Whether start-up runs phase `n`. -/
def State.inPhase (s : State) (n : Nat) : Bool := decide (s.phase = n) && !s.held && !s.mgmt.halted && !s.mgmt.waiting

/-- Start-up goes on to phase `n`. -/
def State.goPhase (s : State) (n : Nat) : State := s.put Reg.MGMT_BOOT_STAT_PHASE 0 0 n

/-- Start-up ends in its phase with an ERR code (R445, R447, R451). -/
def State.bootStop (s : State) (err : Nat) : State :=
  ({ s with mgmt := { s.mgmt with halted := true } } : State).put Reg.MGMT_BOOT_STAT_ERR 0 0 err

/-- ROM_START (R445): phase 1. -/
def execRomStart (s : State) : Res := .next (if s.inPhase 1 then s.goPhase 2 else s)

/-! ## What fuses and the journal keep out of service (R203, R469, R507, R508) -/

/-- A unit is out of service from start-up on, by its bit of the RETIRE bank. -/
def State.retireBit (s : State) (bit : Nat) : State :=
  let clear (f : Fld) (k : Nat) : State := s.put f 0 0 (setBits (s.rd f 0 0) k 1 0)
  if bit < 6 then clear Reg.GLOBAL_UNITS_CORE_OK bit
  else if bit < 14 then (clear Reg.GLOBAL_UNITS_DRAM_OK (bit - 6)).put Reg.DRAM_CH_STAT_OK (bit - 6) 0 0
  else if bit < 20 then s.portRetire (bit - 14)
  else if bit < 44 then
    let p := (bit - 20) / 4
    s.put Reg.FAB_PORT_STAT_LANE_OK 0 p (setBits (s.rd Reg.FAB_PORT_STAT_LANE_OK 0 p) ((bit - 20) % 4) 1 0)
  else s.put Reg.HOP_CONN_STAT_OK 0 (bit - 44) 0

/-- A recorded repair joins a core's repair map: the row's spare is in use (R201, R203, R537). -/
def State.loadRepair (s : State) (c bank row spare : Nat) : State :=
  if h : c < 6 then
    let f := spareFree bank
    (s.put f c (bank / 4) (s.rd f c (bank / 4) - 1)).modGran ⟨c, h⟩ (fun g => { g with repairs := g.repairs ++ [(bank, row, spare)] })
  else s

/-- FUSE (R445, R474): phase 2. In ENDED the boot ROM stops after it (R451). -/
def execFuse (s : State) : Res :=
  .next (if s.inPhase 2 then
      let f := s.sec.fuses
      let lc := lcOf f.lcBits
      let s1 := ((s.put Reg.SEC_LC_STAT_STATE 0 0 lc).put Reg.SEC_LC_STAT_PENDING 0 0 lc).put Reg.SEC_LC_SHADOW_STATE 0 0 lc
      let s2 := (s1.put Reg.SEC_KEY_STAT_PRESENT 0 0 (bit01 (decide (f.keyCheck ≠ 0)))).put Reg.SEC_XMSS_STAT_SEGS 0 0 f.seg
      let s3 := s2.put Reg.SEC_SVN_FLOOR 0 0 f.svn
      let s4 := (numsWhere 60 f.retire.toNat.testBit).foldl State.retireBit s3
      let s5 := f.repair.foldl (fun (x : State) (e : Nat × Nat × Nat × Nat) => x.loadRepair e.1 e.2.1 e.2.2.1 e.2.2.2) s4
      if lc = lcEnded then { s5 with mgmt := { s5.mgmt with halted := true } } else s5.goPhase 3
    else s)

/-- FLASH (R447): phase 3. `mib` is the size that the flash reports. -/
def execFlash (mib : Nat) (s : State) : Res :=
  .next (if s.inPhase 3 then
      if 64 ≤ mib ∧ leNat (s.flashBytes layoutBase 4) = Config.layoutMagic.toNat then s.goPhase 4 else s.bootStop 2
    else s)

/-! ## IMAGE (R449..R451, R471) -/

/-- The base of an image slot. -/
def slotBase (slot : Nat) : Nat := if slot = 0 then imageABase else imageBBase

/-- A field of 4 B of a slot's header (R449). -/
def State.imgField (s : State) (slot byte : Nat) : Nat := leNat (s.flashBytes (slotBase slot + byte) 4)

/-- Whether an image is a candidate (R449, R450). -/
def State.imgCandidate (s : State) (slot : Nat) : Bool :=
  let len := s.imgField slot 12
  decide (s.imgField slot 0 = 0x4553_4936) && decide (64 ≤ len) && decide (len ≤ 0x007F_F000) && decide (len % 64 = 0)
    && decide (s.rd Reg.SEC_SVN_FLOOR 0 0 ≤ s.imgField slot 8)

/-- The candidates in the order in which they are tried (R450). -/
def State.imgOrder (s : State) : List Nat :=
  let byAge := if s.imgField 0 4 < s.imgField 1 4 then [1, 0] else [0, 1]
  let cs := byAge.filter s.imgCandidate
  let last := s.rd Reg.MGMT_RESET_CAUSE_IMAGE 0 0
  if s.rd Reg.MGMT_RESET_CAUSE_CAUSE 0 0 = 2 ∧ ¬ s.on Reg.MGMT_RESET_CAUSE_CONFIRMED 0 0 then
    cs.filter (fun k => k != last) ++ cs.filter (fun k => k == last)
  else cs

/-- Whether an image's signature verifies (R449, R471). -/
def State.imgSigned (s : State) (slot : Nat) : Bool :=
  let pk := s.sec.fuses.fwPk
  decide (pk ≠ 0) && Config.xmssVerify pk (s.flashBytes (slotBase slot) 64)
    (s.flashBytes (slotBase slot + 64 + s.imgField slot 12) 2820)

/-- Whether an image's body has its digest (R449). -/
def State.imgWhole (s : State) (slot : Nat) : Bool :=
  decide (Config.shake256 (s.flashBytes (slotBase slot + 64) (s.imgField slot 12))
    = BitVec.ofNat 256 (leNat (s.flashBytes (slotBase slot + 24) 32)))

/-- Tries images in order (R450): those that fail are recorded, with the check that failed as a free value, since R503 gives the
checks no codes (log 2). -/
def State.tryImages (s : State) : List Nat → State
  | [] => s.bootStop 3
  | k :: ks =>
    if s.imgSigned k && s.imgWhole k then
      let dig := Config.shake256 (s.flashBytes (slotBase k) (64 + s.imgField k 12))
      let m := { s.mgmt with imgSeq := s.imgField k 4, imgSvn := s.imgField k 8, imgDigest := dig }
      (({ s with mgmt := m } : State).put Reg.MGMT_BOOT_STAT_IMAGE 0 0 k).goPhase 5
    else
      let (why, s1) := s.draw 32
      State.tryImages { s1 with mgmt := { s1.mgmt with failed := s1.mgmt.failed ++ [(k, s.imgField k 4, why.toNat)] } } ks

/-- IMAGE (R450): phase 4. -/
def execImage (s : State) : Res := .next (if s.inPhase 4 then s.tryImages s.imgOrder else s)

/-! ## CFG (R454, R456, R462..R464, R503, R506, R507) -/

/-- The choice among judged copies (R454): none, the copy chosen, or a conflict with its copies. -/
inductive CopyChoice where
  | none
  | copy (k : Nat)
  | conflict (seq : Nat) (ks : List Nat)
deriving DecidableEq, Repr

/-- Judges copies (R454, R463). -/
def chooseCopy (cs : List CopyInfo) : CopyChoice :=
  match topSeq cs with
  | Option.none => .none
  | some q =>
    let tops := cs.zipIdx.filter (fun e => e.1.intact && e.1.seq == q)
    match tops with
    | [] => .none
    | (i, k) :: _ => if tops.all (fun e => e.1.digest == i.digest) then .copy k else .conflict q (tops.map (fun e => e.2))

/-- The events with which phase CFG begins (R450, R503). -/
def State.cfgEvents (s : State) : State :=
  let s1 := s.mgmtEvent 0x129 [(s.csrGet Reg.MGMT_RESET_CAUSE 0 0).toNat, s.rd Reg.MGMT_BOOT_STAT_IMAGE 0 0, s.mgmt.imgSeq]
  let s2 := { s1 with events := s1.events.drop s.events.length ++ s.events, ledger := { s1.ledger with started := true } }
  s.mgmt.failed.foldl (fun (x : State) (e : Nat × Nat × Nat) => x.mgmtEvent 0x521 [e.1, e.2.1, e.2.2]) s2

/-- The configuration is chosen and applied (R454..R456). -/
def State.cfgConfig (s : State) : State :=
  match chooseCopy (s.areaInfo 0) with
  | .none => s.mgmtEvent 0x923 []
  | .copy k => s.cfgApply k
  | .conflict _ _ => s.put Reg.MGMT_BOOT_STAT_ERR 0 0 4

/-- The factory calibration is judged (R462). The area's items have no layout in the spec (log 27). -/
def State.cfgFactory (s0 : State) : State :=
  let dig := Config.shake256 (s0.flashBytes fcalBase 65536)
  let s := { s0 with mgmt := { s0.mgmt with fcalDigest := dig } }
  if dig = s.sec.fuses.fcalDig then s
  else
    let s1 := s.put Reg.DRAM_CTRL_T_THROT 0 0 (s.rd Reg.DRAM_CTRL_T_THROT 0 0 - 10)
    let s2 := s1.put Reg.DRAM_CTRL_T_CRIT 0 0 (s.rd Reg.DRAM_CTRL_T_CRIT 0 0 - 10)
    (s2.put Reg.MGMT_CAL_STAT_FACTORY_BAD 0 0 1).mgmtEvent 0x925 []

/-- The indexes and the reach of a calibration item (R464). -/
def calItem (item : Nat) : Option (Nat × Int) :=
  match item with
  | 1 => some (20, 32)
  | 2 => some (12, 10)
  | 3 => some (1, 82)
  | 4 => some (1, 20)
  | 5 | 6 => some (24, 2)
  | 7 => some (24, 3)
  | 8 => some (16, 3)
  | 9 => some (1, 1)
  | _ => none

/-- One entry of a user calibration copy (R463, R464). `told` tells whether an entry has been clamped already. -/
def State.calEntry (s : State) (told : Bool) (e : List Byte) : Bool × State :=
  let item := leNat (e.take 2)
  let index := leNat ((e.drop 2).take 2)
  let v := sgn 32 (leNat ((e.drop 4).take 4))
  let count (x : State) : State := x.bump Reg.MGMT_CAL_STAT_CLAMPED 0 0 1
  match calItem item with
  | none => (told, count s)
  | some (n, hi) =>
    if n ≤ index then (told, count s)
    else
      let s1 := { s with mgmt := { s.mgmt with ucal := s.mgmt.ucal ++ [(item, index, clampi v (-hi) hi)] } }
      if v < -hi ∨ hi < v then
        (true, if told then count s1 else (count s1).mgmtEvent 0x127 [item, index, leNat ((e.drop 4).take 4)])
      else (told, s1)

/-- The entries of a user calibration copy; at most `n`. -/
def State.calEntries (s : State) (told : Bool) (bs : List Byte) : Nat → State
  | 0 => s
  | n + 1 =>
    let (t, s1) := s.calEntry told (bs.take 16)
    s1.calEntries t (bs.drop 16) n

/-- The user calibration is chosen and applied (R463, R464). -/
def State.cfgUser (s : State) : State :=
  match chooseCopy (s.areaInfo 1) with
  | .none => s.put Reg.MGMT_CAL_STAT_USER_NONE 0 0 1
  | .conflict q _ => (s.put Reg.MGMT_CAL_STAT_USER_CONFLICT 0 0 1).mgmtEvent 0x926 [q]
  | .copy k =>
    let info := s.copyInfo (areaBase 1 k) (areaMagic 1)
    let s1 := { s with mgmt := { s.mgmt with ucalDigest := info.digest } }
    (s1.put Reg.MGMT_BOOT_STAT_UCAL_COPY 0 0 k).calEntries false (s.flashBytes (areaBase 1 k + 64) (16 * info.nent)) info.nent

/-- A page of the LEDGER area is valid (R506). -/
def pageValid (bs : List Byte) : Bool :=
  decide (leNat ((bs.drop 192).take 4) = 0x4C45_4447) && decide (leNat ((bs.drop 252).take 4) = crc32c (bs.take 252))

/-- What a journal record tells (R500, R503). -/
def recordKind (l : Line) : Option JKind :=
  let a (i : Nat) : Nat := bitsOf l.toNat (192 + 32 * i) 32
  match bitsOf l.toNat 64 12 with
  | 0xC09 => some (.retire (retireCore (a 0)))
  | 0xCA5 => some (.retire (retireDram (a 0)))
  | 0x403 => some (.repair (bitsOf l.toNat 90 6 - 1) (a 0) (a 1) (a 2))
  | 0x4A7 => some (.dramRow (a 0) (a 1))
  | 0x4E1 => some (.retire (retireLane (a 0) (a 1)))
  | 0xCE2 => some (.retire (retirePort (a 0)))
  | 0xC45 => some (.retire (retireConnBit (a 0)))
  | _ => none

/-- Whether fuses hold what a journal entry records (R508). -/
def Fuses.holds (f : Fuses) (k : JKind) : Bool :=
  match k with
  | .retire bit => f.retire.toNat.testBit bit
  | .repair c b r _ => f.repair.any (fun e => e.1 == c && e.2.1 == b && e.2.2.1 == r)
  | .dramRow _ _ => false

/-- A journal record read at start-up is applied, unless fuses hold it or an earlier record told the same (R507). -/
def State.journalLoad (s : State) (l : Line) : State :=
  match recordKind l with
  | none => s
  | some k =>
    if s.sec.fuses.holds k || s.ledger.journal.any (fun j => j.kind == k) then s
    else
      let j : JEntry := { kind := k, line := l, spilled := true, fused := false }
      let s1 := { s with ledger := { s.ledger with journal := s.ledger.journal ++ [j] } }
      match k with
      | .retire bit => s1.retireBit bit
      | .repair c b r k => s1.loadRepair c b r k
      | .dramRow ch row => { s1 with dram := { s1.dram with repairs := s1.dram.repairs ++ [(ch, row, true)] } }

/-- The journal records of a page (R506): bit i of KIND marks record i. -/
def pageJournal (bs : List Byte) : List Line :=
  ((List.range 3).filter (fun i => (leNat ((bs.drop 208).take 1)).testBit i)).map (fun i => lineOf ((bs.drop (64 * i)).take 64))

/-- Reads the LEDGER area (R506, R507): the start-up number, the next page number, and the journal records in PSEQ order. Records of
DRAM rows, and of repairs beyond the bank, are spilled already and leave the journal (R505). -/
def State.cfgLedger (s : State) : State :=
  let pages := ((s.pagesIn ledgerBase ledgerPages).map (fun p => s.flashBytes (ledgerBase + p * 256) 256)).filter pageValid
  let nums := pages.map (fun b => leNat ((b.drop 200).take 8))
  let boots := pages.map (fun b => leNat ((b.drop 196).take 4))
  let order := (nums.zipIdx.foldl (fun (l : List (Nat × Nat)) (e : Nat × Nat) => putByKey e l) []).map (fun e => e.2)
  let s1 := { s with ledger := { s.ledger with
    boot := 1 + boots.foldl max 0,
    pseq := (match nums.max? with | some n => n + 1 | none => 0) } }
  (order.foldl (fun (x : State) (i : Nat) => (pageJournal (pages.getD i [])).foldl State.journalLoad x) s1).journalPrune

/-- CFG (R454): phase 5. -/
def execCfg (s : State) : Res :=
  .next (if s.inPhase 5 && !s.ledger.started then s.cfgEvents.cfgConfig.cfgFactory.cfgUser.cfgLedger.goPhase 6 else s)

/-! ## CLOCKS, GRANARY_INIT, DRAM, LINKS, READY -/

/-- CLOCKS (R445): phase 6. After a configuration conflict start-up then waits for the host (R455). -/
def execClocks (s : State) : Res :=
  .next (if s.inPhase 6 then
      if s.rd Reg.MGMT_BOOT_STAT_ERR 0 0 = 4 then
        let s1 := { s with mgmt := { s.mgmt with waiting := true } }
        match chooseCopy (s.areaInfo 0) with
        | .conflict q ks => s1.mgmtEvent 0xD22 [q, (ks.map (fun k => 2 ^ k)).foldl (· + ·) 0]
        | _ => s1
      else s.goPhase 7
    else s)

/-- GRANARY_INIT (R203): once the clocks run. The repair maps were loaded with the fuses and the journal. -/
def execGranaryInit (c : CoreId) (s : State) : Res :=
  .next (if decide (6 ≤ s.phase) && !s.held && !s.on Reg.GRAN_STAT_READY c 0 then
      let s1 := (List.range 8).foldl (fun (x : State) (k : Nat) => x.put Reg.GRAN_PCLASS_CLASS c k 0) s
      (s1.modGran c (fun g => { g with bytes := [], poison := [], flaws := [], crc := [], fill := [] })).put Reg.GRAN_STAT_READY c 0 1
    else s)

/-- A channel that was out of service before start-up (R376): with the spare reserve the first one's granules lie there, else its
addresses are lost. -/
def State.dramAbsent (s : State) (ch : Nat) : State :=
  if s.movesOut then
    let s1 := ((s.put Reg.DRAM_SPARE_STAT_CH 0 0 ch).put Reg.DRAM_SPARE_STAT_DONE 0 0 1).put Reg.DRAM_MAP_RSV_USED 0 0 1
    { s1 with dram := { s1.dram with moved := some ch } }
  else { s with dram := { s.dram with lost := s.dram.lost ++ [ch] } }

/-- A channel that fails training (R375): only one retirement runs at a time. -/
def State.dramTrainFail (s : State) (ch : Nat) : State :=
  if s.on Reg.DRAM_SPARE_STAT_BUSY 0 0 then s.askRetire ch 1 else s.retireChannel ch 1

/-- DRAM (R374, R375, R445, R520): phase 7. Hard repairs take a repair row each. -/
def execDram (trainFail : BitVec 8) (s : State) : Res :=
  .next (if s.inPhase 7 then
      let s1 := (s.emit (.pin "DRAM_VPP_EN" true)).emit (.pin "DRAM_VDDQ_EN" true)
      let ok := s.rd Reg.GLOBAL_UNITS_DRAM_OK 0 0
      let s2 := (numsWhere 8 (fun c => !ok.testBit c)).foldl State.dramAbsent s1
      let s3 := s2.dram.repairs.foldl (fun (x : State) (e : Nat × Nat × Bool) =>
        x.put Reg.DRAM_CH_STAT_PPR_FREE e.1 0 (x.rd Reg.DRAM_CH_STAT_PPR_FREE e.1 0 - 1)) s2
      ((numsWhere 8 (fun c => ok.testBit c && trainFail.getLsbD c)).foldl State.dramTrainFail s3).goPhase 8
    else s)

/-- DRAM_PG_TIMEOUT (R520). -/
def execDramPgTimeout (s : State) : Res :=
  .next (if s.inPhase 7 then ((s.emit (.pin "DRAM_VPP_EN" true)).emit (.pin "DRAM_VDDQ_EN" true)).bootStop 1 else s)

/-- LINKS (R291, R445): phase 8. The ports may come up, and the enabled cameras are to be discovered. -/
def execLinks (s : State) : Res :=
  .next (if s.inPhase 8 then
      let s1 := s.put Reg.FAB_CTRL_EN 0 0 1
      ((List.finRange 16).foldl (fun (x : State) (c : CamId) =>
        if x.on Reg.HOP_CAM_CFG_EN 0 c && x.bindingOk c then x.setCamState c camDiscover else x) s1.judgeBindings).goPhase 9
    else s)

/-- The copies to repair (R458): those not intact, and those whose SEQ or DIGEST differs from the applied copy's. -/
def State.toRepair (s : State) : List Nat :=
  if s.mgmt.cfgBytes.isEmpty then []
  else ((s.areaInfo 0).zipIdx.filter (fun e => !(e.1.intact && e.1.seq == s.mgmt.cfgSeq && e.1.digest == s.mgmt.cfgDigest))).map
    (fun e => e.2)

/-- The event of a unit retired at start-up by an unfused record (R507). -/
def State.retireTold (s : State) (j : JEntry) : State :=
  let code := bitsOf j.line.toNat 64 12
  let args := (List.range 2).map (fun i => bitsOf j.line.toNat (192 + 32 * i) 32)
  if code = 0xC09 ∨ code = 0xCA5 ∨ code = 0xC45 ∨ code = 0xCE2 then
    s.raise code (bitsOf j.line.toNat 90 6) (bitsOf j.line.toNat 80 10) 6 6 (if code = 0xC45 then args.take 1 else args)
  else s

/-- READY (R452, R458, R503, R507): `kc` edges have passed since the release of RESET_N. -/
def execReady (kc : BitVec 64) (s : State) : Res :=
  .next (if s.inPhase 9 && !s.on Reg.MGMT_BOOT_STAT_CONFIRMED 0 0 then
      let s1 := (s.put Reg.MGMT_BOOT_STAT_CONFIRMED 0 0 1).mgmtEvent 0x12A [bitsOf kc.toNat 0 32, bitsOf kc.toNat 32 32]
      let s2 := s1.ledger.journal.foldl State.retireTold s1
      { s2 with mgmt := { s2.mgmt with repair := s2.toRepair } }
    else s)

/-- BOOT_PHASE_TIMEOUT (R445). READY has no limit. -/
def execBootPhaseTimeout (s : State) : Res :=
  .next (if decide (1 ≤ s.phase ∧ s.phase ≤ 8) && s.inPhase s.phase then s.bootStop 1 else s)

end Sys2Proof.Machine
end

