-- ==== Sys2Proof/Machine/Operands.lean ====
section
/-! DEFINITION. The operand forms: last sources, memory operands and pointers (R80, R81, R115), banked registers of
MOV (R170), vector groups and elements (R126, R127). -/

namespace Sys2Proof.Machine

/-- The last source of a scalar operation: a register, or a sign-extended 16-bit immediate (R169). -/
def srcVal (k : Task) : Src → Word
  | .reg r => k.s.get r
  | .imm v => v.signExtend 32

/-- The registers a last source reads. -/
def srcReads : Src → List RName
  | .reg r => [.s r]
  | .imm _ => []

/-- The circular update of a pointer by a signed increment (R81). -/
def ptrAdd (k : Task) (p : PReg) (inc : Int) : Word :=
  let x := (k.p.get p).toNat
  let b := (k.pb.get p).toNat
  let l := (k.pl.get p).toNat
  if l = 0 then BitVec.ofInt 32 (x + inc) else BitVec.ofInt 32 (b + ((x : Int) - b + inc) % l)

/-- The address a memory operand uses (R80). -/
def addrOf (k : Task) (m : MAddr) : Word :=
  match m.mode with
  | .off imm => k.p.get m.p + imm.signExtend 32
  | _ => k.p.get m.p

/-- The pointer update of a memory operand, written at W (R80, R81). -/
def addrFx (k : Task) (m : MAddr) : List Fx :=
  match m.mode with
  | .postI imm => [.p m.p (ptrAdd k m.p imm.toInt)]
  | .postR sb => [.p m.p (ptrAdd k m.p (k.s.get sb).toInt)]
  | _ => []

/-- The registers a memory operand reads. -/
def addrReads (m : MAddr) : List RName :=
  match m.mode with
  | .base => [.p m.p]
  | .off _ => [.p m.p]
  | .postI _ => [.p m.p, .pb m.p, .pl m.p]
  | .postR sb => [.p m.p, .pb m.p, .pl m.p, .s sb]

/-- The registers a memory operand writes. -/
def addrWrites (m : MAddr) : List RName :=
  match m.mode with
  | .postI _ => [.p m.p]
  | .postR _ => [.p m.p]
  | _ => []

/-- The banked register of a MOV number (R170); reserved numbers name none. -/
def movReg (n : BitVec 7) : Option RName :=
  let x := n.toNat
  if x < 0x20 then some (.s (Fin.ofNat 32 x))
  else if x < 0x28 then some (.p (Fin.ofNat 8 x))
  else if x < 0x30 then some (.pb (Fin.ofNat 8 x))
  else if x < 0x38 then some (.pl (Fin.ofNat 8 x))
  else if x < 0x3C then some (.lc (Fin.ofNat 4 x))
  else if x < 0x40 then some (.le (Fin.ofNat 4 x))
  else if x = 0x40 then some .dsp
  else if x = 0x41 then some .sr
  else none

/-- The value of a banked register. -/
def bankedVal (k : Task) : RName → Word
  | .s r => k.s.get r
  | .p r => k.p.get r
  | .pb r => k.pb.get r
  | .pl r => k.pl.get r
  | .lc d => k.lc.get d
  | .le d => k.le.get d
  | .dsp => k.dsp
  | .sr => k.sr.zeroExtend 32
  | _ => 0

/-- The write of a banked register; a write to TASK or LDEPTH of SR is ignored (R79). -/
def bankedFx (k : Task) (r : RName) (x : Word) : List Fx :=
  match r with
  | .s r => [.s r x]
  | .p r => [.p r x]
  | .pb r => [.pb r x]
  | .pl r => [.pl r x]
  | .lc d => [.lc d x]
  | .le d => [.le d x]
  | .dsp => [.dsp x]
  | .sr => [.sr ((k.sr &&& 0x1F80) ||| (x.truncate 16 &&& 0x007F))]
  | _ => []

/-- The register after `r`: the odd one of a pair (R90, R118). -/
def nextReg (r : SReg) : SReg := r + 1

/-- Whether a register may be the even one of a pair (R90). -/
def isEven (r : SReg) : Bool := r.val % 2 == 0

/-! ## Vector groups -/

/-- The registers of a group (R127). -/
def grpCount : Grp → Nat
  | .g1 => 1 | .g2 => 2 | .g4 => 4 | .g8 => 8

/-- The names of `n` registers from `v` up. -/
def grpNames (v : VReg) (n : Nat) : List RName := (List.range n).map (fun i => .v (Fin.ofNat 32 (v.val + i)))

/-- The content of `n` registers as one value: element 0 in the lowest bits (R127). -/
def grpVal (vs : Vector VWord 32) (v : VReg) : Nat → Nat
  | 0 => 0
  | n + 1 => grpVal vs v n + (vs.get (Fin.ofNat 32 (v.val + n))).toNat * 2 ^ (4096 * n)

/-- The writes of a value into `n` registers. -/
def grpFx (v : VReg) (n : Nat) (x : Nat) : List Fx :=
  (List.range n).map (fun i => .v (Fin.ofNat 32 (v.val + i)) (BitVec.ofNat 4096 (x / 2 ^ (4096 * i))))

/-- Element `j` of width `w` (R127). -/
def lane (x w j : Nat) : Nat := (x / 2 ^ (w * j)) % 2 ^ w

/-- The value whose elements of width `w` are `f 0 .. f (n - 1)`. -/
def lanesOf (w : Nat) (f : Nat → Nat) : Nat → Nat
  | 0 => 0
  | n + 1 => lanesOf w f n + (f n % 2 ^ w) * 2 ^ (w * n)

/-- The element width a format has in a register: 4-bit codes unpack to 8-bit lanes, U12 to 16-bit lanes (R126). -/
def laneBits (f : Fmt) : Nat :=
  match f with
  | .u4 | .s4 => 8
  | .u12 => 16
  | f => fmtBits f

/-- Elements of a group (R127). -/
def grpElems (f : Fmt) (g : Nat) : Nat := if laneBits f = 0 then 0 else 4096 * g / laneBits f

/-- Whether element `j` takes part (R129). -/
def active (m : Bool) (v31 : VWord) (j : Nat) : Bool := !m || v31.getLsbD j

/-- Formats accepted in vector arithmetic (R126). -/
def arithFmt : Fmt → Bool
  | .u8 | .s8 | .u16 | .s16 | .s32 | .fp16 | .bf16 | .fp32 => true
  | _ => false

/-- Integer formats accepted in vector arithmetic (R126). -/
def intFmt : Fmt → Bool
  | .u8 | .s8 | .u16 | .s16 | .s32 => true
  | _ => false

/-- Floating-point formats accepted in vector arithmetic (R149). -/
def floatFmt : Fmt → Bool
  | .fp16 | .bf16 | .fp32 => true
  | _ => false

/-- Formats accepted by vector loads and stores (R126). -/
def memFmt : Fmt → Bool
  | .s48 | .c21 | .rsvd => false
  | _ => true

/-- Formats whose elements fill whole bytes (R143). -/
def byteFmt : Fmt → Bool
  | .u4 | .s4 | .u12 | .s48 | .c21 | .rsvd => false
  | _ => true

/-- The value a scalar source gives each element: its low bits (R147). -/
def vsrcLane (k : Task) (vs : Vector VWord 32) (g w : Nat) (b : VSrc) (j : Nat) : Nat :=
  match b with
  | .vec v => lane (grpVal vs v g) w j
  | .scl r => (k.s.get r).toNat % 2 ^ w

/-- The registers a last vector source reads. -/
def vsrcReads (g : Nat) : VSrc → List RName
  | .vec v => grpNames v g
  | .scl r => [.s r]

/-- Whether the registers a last vector source names are aligned to the group (R127). -/
def vsrcAligned (g : Nat) : VSrc → Bool
  | .vec v => v.val % g == 0
  | .scl _ => true

end Sys2Proof.Machine
end

