-- ==== Sys2Proof/Machine/Seq.lean ====
section
/-! DEFINITION. The bundle cycle as operations see it (03 R72..R101, R110; 05 R165..R168): what an operation offers,
when it issues, what its bundle's W edge does. -/

namespace Sys2Proof.Machine

/-- How many operations of a class a bundle may hold (R164). -/
def slotLimit : Slot → Nat
  | .nop => 6
  | .sx | .va | .vl => 2
  | _ => 1

/-- Whether an operation of a class is a vector operation (R75, R140). -/
def slotVector : Slot → Bool
  | .va | .vp | .vr | .vl | .vs => true
  | _ => false

/-- A bundle none of whose commands has come. -/
def Bundle.empty : Bundle := { ops := [], held := false }

/-- The registers whose scoreboard bit is set: the destinations of loads in flight (R96, R111, R146). -/
def State.busyRegs (s : State) (c : CoreId) (t : TaskId) : List RName :=
  ((s.core c).seq.loads.filter (fun l => l.task = t)).flatMap (fun l => l.dst.map (fun d => RName.s d.1))
    ++ (s.core c).vec.loads.flatMap (fun l =>
          l.regs.map (fun d => RName.v d.1) ++ (match l.acc with | some (k, _) => [RName.a k] | none => []))

/-- The lines that can be recognised under an SR: pending, enabled, and lower than the line being handled (R106). -/
def State.recognisable (s : State) (c : CoreId) (sr : BitVec 16) : Option Nat :=
  firstWhere 16 (fun n =>
    (s.irqPending c).testBit n && (n != 2 && n != 3)
      && (decide (n < 4) || ((s.irqEnabled c).testBit n && srIE sr))
      && (!srINH sr || decide (n < srILVL sr)))

/-- The priority of a task (R95). -/
def State.prio (s : State) (c : CoreId) (t : TaskId) : Nat := s.rd Reg.CORE_TASK_CFG_PRIO c t

/-- The READY task that a switch picks: the highest PRIO, then the first after the task that runs or last ran (R95). -/
def State.pickTask (s : State) (c : CoreId) : Option TaskId :=
  let last := ((s.core c).seq.running.getD (s.core c).seq.last).val
  let order := (List.range 8).map (fun i => (Fin.ofNat 8 (last + 1 + i) : TaskId))
  let ready := order.filter (fun t => (s.task c t).st == .ready)
  let best := ready.foldl (fun m t => max m (s.prio c t)) 0
  ready.find? (fun t => s.prio c t == best)

/-- Whether a READY task has a higher PRIO than the running one (R95). -/
def State.switchDue (s : State) (c : CoreId) (t : TaskId) : Bool :=
  match s.pickTask c with
  | none => false
  | some u => decide (s.prio c t < s.prio c u)

/-- Whether another task is READY (R98). -/
def State.otherReady (s : State) (c : CoreId) : Bool := (s.pickTask c).isSome

/-- The Granary offset of a task-relative address (R92). -/
def State.granOff (s : State) (c : CoreId) (t : TaskId) (a : Nat) : Nat := s.winBase c t + a

/-- A fault record of the running task's bundle. -/
def State.faultRec (s : State) (c : CoreId) (t : TaskId) (cause : BitVec 5) (addr : Option Word) (half : Bool) : FaultRec :=
  { cause := cause, task := t, deferred := false, half := half, addr := addr, pc := (s.task c t).pc }

/-! ## The loop cache (R88, R89) -/

/-- Whether the loop cache holds a target bundle, a cache hit for R77. -/
def State.lcHit (s : State) (c : CoreId) (a : Nat) : Bool :=
  s.on Reg.CORE_SEQ_CTRL_LCACHE_EN c 0 && (s.core c).seq.lcHeld.any (fun e => e.1 == a)

/-- A bundle of the range that a fetch brings is copied into the loop cache (R88). -/
def State.lcCopy (s : State) (c : CoreId) (a : Nat) (x : BitVec 256) : State :=
  let q := (s.core c).seq
  if q.lcBase ≤ a ∧ a < q.lcBase + 32 * q.lcLen ∧ (q.lcHeld.any (fun e => e.1 == a)) = false then
    s.modSeq c (fun q => { q with lcHeld := q.lcHeld ++ [(a, x)] })
  else s

/-- A LOOP or LOOPI creates a level whose body starts at `a` and has `n` bundles (R88). -/
def State.lcRange (s : State) (c : CoreId) (a n : Nat) : State :=
  let q := (s.core c).seq
  if 64 < n ∨ (q.lcBase ≤ a ∧ a + 32 * n ≤ q.lcBase + 32 * q.lcLen) then s
  else s.modSeq c (fun q => { q with lcBase := a, lcLen := n, lcHeld := [] })

/-- A control transfer to `a`: 5 cc are lost unless the loop cache holds the target (R77). -/
def State.transfer (s : State) (c : CoreId) (t : TaskId) (a : Word) : State :=
  let s1 := if s.lcHit c a.toNat then s
    else ((s.bump Reg.CORE_STALL_FETCH_COUNT c 0 5).coreTime c 5).modSeq c (fun q => { q with pre := [] })
  s1.modTask c t (fun k => { k with pc := a })

/-! ## The slots and buses of the vector unit (R133..R136, R166) -/

/-- The units an operation may take, in the order of R166. -/
def Op.units (o : Op) : List VUnit :=
  match o.slot with
  | .va => [.va0, .va1]
  | .vp => [.vp]
  | .vr => [.vr]
  | .vl => if o.indexed then [.x] else [.x, .y]
  | .vs => [.z]
  | _ => []

/-- Whether a unit is free at a cc (R134). -/
def State.unitFree (s : State) (c : CoreId) (x : Nat) (u : VUnit) : Bool :=
  (s.core c).vec.units.all (fun e => e.1 != u || decide (e.2 ≤ x))

/-- The units of the vector operations of a list, each taking the first of its own that is free and not taken; none where one
finds no unit. -/
def assignUnits (free : VUnit → Bool) : List Op → List VUnit → Option (List (Op × VUnit))
  | [], _ => some []
  | o :: os, taken =>
    if !slotVector o.slot then assignUnits free os taken
    else match o.units.find? (fun u => free u && !taken.contains u) with
      | none => none
      | some u => (assignUnits free os (u :: taken)).map (fun l => (o, u) :: l)

/-- The units of a bundle's operations: the gather first, then the others in slot order (R166). -/
def State.bundleUnits (s : State) (c : CoreId) (x : Nat) (ops : List Op) : Option (List (Op × VUnit)) :=
  assignUnits (s.unitFree c x) (ops.filter (·.indexed) ++ ops.filter (fun o => !o.indexed)) []

/-- The cc that an operation occupies its unit for: 4 for each register of its largest group, 8 in half-width mode (R134). -/
def State.groupCc (s : State) (c : CoreId) (o : Op) : Nat := o.group * (if s.on Reg.CORE_VEC_CTRL_HALF c 0 then 8 else 4)

/-! ## Vector accesses to the Granary (R137, R142..R146, R184..R186) -/

/-- A byte as a load that issues at cc `k` of its core sees it, and whether its unit reads uncorrectable then: store beats of that
cc or later are not seen (R137, R184). -/
def State.byteAt (s : State) (c : CoreId) (k a : Nat) : Byte × Bool :=
  match (s.core c).vec.late.find? (fun e => decide (e.addr = a) && decide (k ≤ e.cc)) with
  | some e => (e.old, e.bad)
  | none => (cellGet 0 (s.core c).gran.bytes a, s.wordBad c (a / 8))

/-- The bytes that an access at cc `k` sees, and whether any reads uncorrectable. -/
def State.bytesAt (s : State) (c : CoreId) (k off n : Nat) : List Byte × Bool :=
  let xs := (List.range n).map (fun i => s.byteAt c k (off + i))
  (xs.map (·.1), xs.any (·.2))

/-- The lane value of a loaded code: 4-bit and 12-bit codes are unpacked, zero- or sign-extended (R142). -/
def unpack (f : Fmt) (code : Nat) : Nat :=
  match f with
  | .s4 => lowBits 8 (sgn 4 code)
  | _ => code

/-- The Granary bytes of an element: the first, and how many. -/
def VElem.span (e : VElem) (width : Nat) : Nat × Nat := (e.bit / 8, (e.bit % 8 + width + 7) / 8)

/-- Whether an element's units hold an error. -/
def State.elemHit (s : State) (c : CoreId) (width : Nat) (e : VElem) : Bool :=
  (s.unitHeads c (e.span width).1 (e.span width).2).any (fun w => s.wordBad c w || s.unitFlawed c w)

/-- The accounting of a vector read (R193): each line that the elements of one cc touch is one read of the units they touch. -/
def State.vreadCount (s : State) (c : CoreId) (width : Nat) (es : List VElem) : State :=
  let hits := es.filter (s.elemHit c width)
  let units := (hits.flatMap (fun e => (s.unitHeads c (e.span width).1 (e.span width).2).map (fun w => (e.cc, w)))).eraseDups
  let reads := (units.map (fun u => (u.1, u.2 / 8))).eraseDups
  reads.foldl (fun x r =>
    let ws := (units.filter (fun u => u.1 = r.1 && u.2 / 8 = r.2)).map (·.2)
    let ce := ws.countP (fun w => s.unitFlawed c w)
    let x1 := if ce = 0 then x else x.granCe c r.2 ce
    if ws.any (fun w => s.wordBad c w) then x1.granUe c r.2 else x1) s

/-- A vector load whose X edge is at cc `x` reads each element at its cc and stays in flight until it returns (R137, R142, R146).
`old` are the registers it read at X. -/
def State.vloadIssue (s : State) (old : Vector VWord 32) (c : CoreId) (t : TaskId) (pc : Word) (x : Nat) (d : VDest)
    (width : Nat) (es : List VElem) : State :=
  let data := es.map (fun e =>
    let (bs, bad) := s.bytesAt c (x + e.cc) (e.span width).1 (e.span width).2
    (e.j, (leNat bs / 2 ^ (e.bit % 8)) % 2 ^ width, bad))
  let bad := (data.find? (fun e => e.2.2)).map (·.1)
  let s1 := s.vreadCount c width es
  match d with
  | .regs vd count fmt ln =>
    let new := data.foldl (fun x (e : Nat × Nat × Bool) => setBits x (ln * e.1) ln (unpack fmt e.2.1)) (grpVal old vd count)
    let regs := (List.range count).map (fun i =>
      ((Fin.ofNat 32 (vd.val + i) : VReg), BitVec.ofNat 4096 (new / 2 ^ (4096 * i))))
    s1.modVec c (fun v => { v with loads := v.loads ++
      [{ task := t, pc := pc, regs := regs, acc := none, bad := bad, failed := false }] })
  | .acc ak =>
    let new := data.foldl (fun x (e : Nat × Nat × Bool) => setBits x (48 * e.1) 48 e.2.1) 0
    s1.modVec c (fun v => { v with loads := v.loads ++
      [{ task := t, pc := pc, regs := [], acc := some (ak, BitVec.ofNat 24576 new), bad := bad, failed := false }] })

/-- Whether a byte of the Granary belongs to a store element. -/
def elemByte (width : Nat) (e : VElem) (a : Nat) : Bool :=
  decide (e.bit / 8 ≤ a) && decide (a < (e.bit + width + 7) / 8)

/-- The elements of an access that are one access of the Granary: those of a cc, or each by itself for a scatter (R186). -/
def accessGroups (each : Bool) (es : List VElem) : List (List VElem) :=
  if each then es.map (fun e => [e])
  else (es.map (·.cc)).eraseDups.map (fun cc => es.filter (fun e => e.cc = cc))

/-- The lines that some elements touch (R182). -/
def linesOfElems (width : Nat) (g : List VElem) : List Nat :=
  (g.flatMap (fun e => linesOf (e.span width).1 (e.span width).2)).eraseDups

/-- One access of a vector store: the bytes it replaces are kept for loads that do not see it, then it is written, and the
protection of every line it touches follows R194. -/
def State.vstoreGroup (s : State) (c : CoreId) (x from_ width : Nat) (g : List VElem) : State :=
  let late := g.flatMap (fun e =>
    if e.cc < from_ then []
    else (List.range (e.span width).2).map (fun i =>
      let a := (e.span width).1 + i
      { cc := x + e.cc, addr := a, old := cellGet 0 (s.core c).gran.bytes a, bad := s.wordBad c (a / 8) : Late }))
  let lines := linesOfElems width g
  let s1 := s.modVec c (fun v => { v with late := v.late ++ late })
  let s2 := lines.foldl (fun y l => y.granWriteLine c (fun a => g.any (fun e => elemByte width e a)) l) s1
  let s3 := g.foldl (fun y e => y.granPutCode c e.bit width e.code) s2
  lines.foldl (fun y l => y.storeCrc c l) s3

/-- A vector store whose X edge is at cc `x` writes its elements in their order (R137, R186); the bytes that accesses from cc
`x + from_` on replace are kept for the loads that do not see them. -/
def State.vstoreIssue (s : State) (c : CoreId) (x from_ width : Nat) (each : Bool) (es : List VElem) : State :=
  (accessGroups each es).foldl (fun y g => y.vstoreGroup c x from_ width g) s

/-- The bank phases that the contiguous beats of an operation from cc `from_` on take: cc after X, bank, whether the write phase. A
store that keeps a part of a unit also reads (R186, R194). -/
def State.beatPhases (s : State) (c : CoreId) (from_ : Nat) (f : Fx) : List (Nat × Nat × Bool) :=
  let phases (w : Nat) (es : List VElem) (store : Bool) : List (Nat × Nat × Bool) :=
    (accessGroups false (es.filter (fun e => decide (from_ ≤ e.cc)))).flatMap (fun g =>
      (linesOfElems w g).flatMap (fun l =>
        let cc := (g.headD ⟨0, 0, 0, 0⟩).cc
        let part := (s.unitHeads c (l * 64) 64).any (fun u =>
          let bs := (s.unitWords c u).flatMap (fun y => (List.range 8).map (fun i => y * 8 + i))
          let hit (a : Nat) : Bool := g.any (fun e => elemByte w e a)
          !bs.all hit && (s.weightClass c (l * 64) || bs.any hit))
        if store then (cc, l % 32, true) :: (if part then [(cc, l % 32, false)] else []) else [(cc, l % 32, false)]))
  match f with
  | .vload _ w false es => phases w es false
  | .vstore w false es => phases w es true
  | .sload _ ps => if from_ = 0 then ps.flatMap (fun p =>
      if p.2.2.isNone then (linesOf p.1 p.2.1).map (fun l => (0, l % 32, false)) else []) else []
  | _ => []

/-- The issue of gathered or scattered elements in index order (R145, R186): the cc of each, at most `cap` a cc, one to a bank, and
none to a bank phase that `busy` takes at that cc. -/
def gatherIssue (cap : Nat) (busy : List (Nat × Nat)) (es : List VElem) : List VElem :=
  let step (st : List VElem × Nat × List Nat) (e : VElem) : List VElem × Nat × List Nat :=
    let (done, cc, banks) := st
    let bank := e.bit / 512 % 32
    if banks.length < cap && !banks.contains bank && !busy.contains (cc, bank) then
      (done ++ [{ e with cc := cc }], cc, bank :: banks)
    else
      let next := (((List.range (busy.length + 1)).map (fun i => cc + 1 + i)).find? (fun k => !busy.contains (k, bank))).getD (cc + 1)
      (done ++ [{ e with cc := next }], next, [bank])
  (es.foldl step ([], 0, [])).1

/-- The cc that issued elements took. -/
def issueCc (es : List VElem) : Nat := es.foldl (fun m e => max m (e.cc + 1)) 0

/-- The cc beyond those that the limit of elements alone takes (R145). -/
def extraCc (cap : Nat) (es : List VElem) : Nat := issueCc es - (es.length + cap - 1) / cap

/-- The elements that a cc holds at most (R145). -/
def State.issueCap (s : State) (c : CoreId) : Nat := if s.on Reg.CORE_VEC_CTRL_HALF c 0 then 16 else 32

/-- A bundle's writes with the cc of its gathered or scattered elements, whose X edge is at cc `x` (R145, R186). -/
def State.settle (s : State) (c : CoreId) (x : Nat) (fx : List Fx) : List Fx :=
  if fx.any (fun f => match f with | .vload _ _ true _ | .vstore _ true _ => true | _ => false) then
    let phases := (s.core c).vec.beats.filterMap (fun e => if x ≤ e.1 then some (e.1 - x, e.2) else none)
      ++ fx.flatMap (s.beatPhases c 0)
    let busy (store : Bool) : List (Nat × Nat) := (phases.filter (fun e => e.2.2 == store)).map (fun e => (e.1, e.2.1))
    fx.map (fun f => match f with
      | .vload d w true es => .vload d w true (gatherIssue (s.issueCap c) (busy false) es)
      | .vstore w true es => .vstore w true (gatherIssue (s.issueCap c) (busy true) es)
      | f => f)
  else fx

/-- The elements of a bundle's gather or scatter. -/
def indexedElems (fx : List Fx) : List VElem :=
  (fx.findSome? (fun f => match f with | .vload _ _ true es | .vstore _ true es => some es | _ => none)).getD []

/-! ## RETI (R108, R109) -/

/-- A little-endian word of a list of bytes. -/
def wordAt (bs : List Byte) (i : Nat) : Word := BitVec.ofNat 32 (leNat ((bs.drop i).take 4))

/-- The state that a TSTATE code of a frame restores; a RUNNING code, and the codes that name no state, restore READY
(log 10). -/
def tstateOf (n : Nat) : TaskSt :=
  match n with
  | 0 => .free
  | 3 => .waiting
  | 4 => .halted
  | _ => .ready

/-- The code of a task state (R123). -/
def tstateCode : TaskSt → Nat
  | .free => 0 | .ready => 1 | .running => 2 | .waiting => 3 | .halted => 4

/-- The frame read from DSP and the popped entry restore the running task, and the task that waits on this RETI when
the popped SR names another; the bundle at the restored PC enters F 8 cc later than after another operation. The frame is read
from the Granary alone: DESIGN CHOICE, the spec does not say whether the read sees stores still in the store buffer (log 11). -/
def State.retiRestore (s : State) (c : CoreId) (t : TaskId) : State :=
  let k := s.task c t
  let f := s.granBytes c (s.granOff c t k.dsp.toNat) 128
  let s := ((s.granRead c (s.granOff c t k.dsp.toNat) 128).2.coreTime c 8).modSeq c (fun q => { q with pre := [] })
  match k.rstk with
  | [] => s
  | e :: rest =>
    let u : TaskId := Fin.ofNat 8 (srTASK e.sr)
    let depth := bitsOf (wordAt f 80).toNat 0 3
    let s1 := s.modTask c t (fun k => { k with
      s := Vector.ofFn (fun (i : Fin 32) => if i.val < 8 then wordAt f (4 * i.val) else k.s.get i)
      lc := Vector.ofFn (fun (i : Fin 4) => wordAt f (32 + 4 * i.val))
      le := Vector.ofFn (fun (i : Fin 4) => wordAt f (48 + 4 * i.val))
      ls := Vector.ofFn (fun (i : Fin 4) => wordAt f (64 + 4 * i.val))
      dsp := wordAt f 84
      rstk := rest })
    if u = t then s1.modTask c t (fun k => { k with sr := srSetDepth e.sr depth, pc := e.addr })
    else
      let st := tstateOf (bitsOf (leNat ((f.drop 94).take 1)) 0 3)
      let s2 := s1.modTask c t (fun k => { k with
        sr := srSetDepth (BitVec.ofNat 16 (leNat ((f.drop 92).take 2)) &&& 0x1FFF) depth
        pc := wordAt f 88
        st := st
        wait := if st = .waiting then k.waits.headD .none else .none
        waits := k.waits.tail })
      let s3 := (s2.modSeq c (fun q => { q with running := none, last := t })).lcEmpty c
      if (s3.task c u).st = .waiting ∧ (s3.task c u).wait = .reti then
        (((s3.modTask c u (fun k => { k with sr := e.sr, pc := e.addr, st := .running, wait := .none })).modSeq c
          (fun q => { q with running := some u, last := u }))).wakeTasks c
      else s3.wakeTasks c

/-! ## The X and W edges -/

/-- The step of a bundle at which a write takes place (R72, R115, R166, R167): stores of the vector unit, then what else issues at X,
a CSRR at the end of X, a CSRW at W before every other write of that edge (R65, R70). -/
def Fx.stage : Fx → Nat
  | .vstore _ _ _ => 0
  | .vload _ _ _ _ | .sload _ _ | .loom _ _ | .carter _ _ => 1
  | .csrr _ _ => 2
  | .csrw _ _ => 3
  | _ => 4

/-- The value a register takes from loaded bytes (R100). -/
def LdPart.value (p : LdPart) (bs : List Byte) : Word :=
  let v := bitsOf (leNat bs) p.lsb p.width
  if p.signed then BitVec.ofInt 32 (sgn p.width v) else BitVec.ofNat 32 v

/-- A scalar load issues at cc `x`: each half reads the Granary or was forwarded from the store buffer (R100, R102, R111). -/
def State.sloadIssue (s : State) (c : CoreId) (t : TaskId) (pc : Word) (x : Nat) (dst : List (SReg × LdPart))
    (parts : List (Nat × Nat × Option (List Byte))) : State :=
  let rs := parts.map (fun p => match p.2.2 with
    | some bs => (bs, false)
    | none => s.bytesAt c x p.1 p.2.1)
  let bs := rs.flatMap (·.1)
  let s1 := parts.foldl (fun y p => if p.2.2.isSome then y else (y.granRead c p.1 p.2.1).2) s
  s1.modSeq c (fun q => { q with loads := q.loads ++
    [{ task := t, pc := pc, dst := dst.map (fun d => (d.1, d.2.value bs)), bad := rs.any (·.2), failed := false }] })

/-- One write of a bundle takes place. `s0` is the state whose registers the bundle's operations read, `x` the cc of its X edge,
`from_` the cc after it from which the bytes that a vector store replaces are kept. -/
def State.applyFx (s0 : State) (x from_ : Nat) (c : CoreId) (t : TaskId) (s : State) (f : Fx) : State :=
  let pc := (s0.task c t).pc
  match f with
  | .s r x => s.modTask c t (fun k => { k with s := k.s.set r x })
  | .p r x => s.modTask c t (fun k => { k with p := k.p.set r x })
  | .pb r x => s.modTask c t (fun k => { k with pb := k.pb.set r x })
  | .pl r x => s.modTask c t (fun k => { k with pl := k.pl.set r x })
  | .lc d x => s.modTask c t (fun k => { k with lc := k.lc.set d x })
  | .le d x => (s.modTask c t (fun k => { k with le := k.le.set d x })).lcEmpty c
  | .dsp x => s.modTask c t (fun k => { k with dsp := x })
  | .sr x => s.modTask c t (fun k => { k with sr := (k.sr &&& 0x1F80) ||| (x &&& 0x007F) })
  | .ie b => s.modTask c t (fun k => { k with sr := if b then k.sr ||| 1 else k.sr &&& 0xFFFE })
  | .v r x => s.modVec c (fun v => { v with v := v.v.set r x })
  | .a k x => s.modVec c (fun v => { v with a := v.a.set k x })
  | .vstart x => s.modVec c (fun v => { v with vstart := x })
  | .vfault x => s.modVec c (fun v => { v with vfault := x })
  | .arith u ov dz sat nan =>
    let flags := bit01 ov + 2 * bit01 dz + 4 * bit01 (sat != 0) + 8 * bit01 (nan != 0)
    let s1 := s.csrPut Reg.CORE_ARITH_FLAGS c 0 (s.csrGet Reg.CORE_ARITH_FLAGS c 0 ||| BitVec.ofNat 64 flags)
    match u with
    | .seq => s1.bump Reg.CORE_SAT_CNT_SEQ_COUNT c 0 sat
    | .vec => (s1.bump Reg.CORE_SAT_CNT_VEC_COUNT c 0 sat).bump Reg.CORE_NAN_CNT_VEC_COUNT c 0 nan
    | .loom => (s1.bump Reg.CORE_SAT_CNT_LOOM_COUNT c 0 sat).bump Reg.CORE_NAN_CNT_LOOM_COUNT c 0 nan
  | .sload dst parts => s.sloadIssue c t pc x dst parts
  | .store off bs => s.modSeq c (fun q => { q with sbuf := q.sbuf ++ [(off, bs)] })
  | .vload d w _ es => s.vloadIssue (s0.core c).vec.v c t pc x d w es
  | .vstore w each es => s.vstoreIssue c x from_ w each es
  | .jump a => s.transfer c t a
  | .level count last start =>
    let d := srLDEPTH (s0.task c t).sr
    if count = 0 then s.transfer c t (last + 32)
    else (s.modTask c t (fun k => { k with lc := k.lc.set (Fin.ofNat 4 d) count, le := k.le.set (Fin.ofNat 4 d) last,
                                           ls := k.ls.set (Fin.ofNat 4 d) start, sr := srSetDepth k.sr (d + 1) })).lcRange
           c start.toNat ((last.toNat + 32 - start.toNat) / 32)
  | .lexit n => s.modTask c t (fun k => { k with sr := srSetDepth k.sr (srLDEPTH k.sr - n) })
  | .rpush e => s.modTask c t (fun k => { k with rstk := e :: k.rstk })
  | .rpop => s.modTask c t (fun k => { k with rstk := k.rstk.tail })
  | .cinv => s.lcEmpty c
  | .yield => (s.modTask c t (fun k => { k with st := .ready })).modSeq c (fun q => { q with running := none, last := t })
  | .tend =>
    ((((s.jobDone c t codeOk).modTask c t (fun k => { k with st := .free, wait := .none, lockOut := none })).modSeq c
      (fun q => { q with running := none, last := t })).deathNotice (.task c t)).wakeTasks c
  | .loom tile a => s.loomEnqueue c t tile a
  | .carter ch a => s.carterStart c t ch a
  | .csrw off x => s.csrWrite (.core c) (Blk.base .core c + off.toNat) x
  | .csrr sd off =>
    let (x, s1) := s.csrRead (.core c) (Blk.base .core c + off.toNat)
    s1.modTask c t (fun k => { k with s := k.s.set sd x })
  | .reti => s.retiRestore c t

/-- The writes of one step of a bundle take place. -/
def State.applyStage (s0 : State) (x from_ : Nat) (c : CoreId) (t : TaskId) (fx : List Fx) (k : Nat) (s : State) : State :=
  (fx.filter (fun f => decide (f.stage = k))).foldl (State.applyFx s0 x from_ c t) s

/-- The loop-end test of R85 at a bundle whose address ends the innermost level; `fuel` bounds the levels tested at
this W edge. Gives the next PC and whether it is a back edge. -/
def State.loopEnd (s : State) (c : CoreId) (t : TaskId) (pc : Word) : Nat → State × Word × Bool
  | 0 => (s, pc + 32, false)
  | fuel + 1 =>
    let k := s.task c t
    let depth := srLDEPTH k.sr
    if depth = 0 then (s, pc + 32, false)
    else
      let d : Fin 4 := Fin.ofNat 4 (depth - 1)
      if k.le.get d ≠ pc then (s, pc + 32, false)
      else if 1 < (k.lc.get d).toNat then
        (s.modTask c t (fun k => { k with lc := k.lc.set d (k.lc.get d - 1) }), k.ls.get d, true)
      else State.loopEnd (s.modTask c t (fun k => { k with sr := srSetDepth k.sr (depth - 1) })) c t pc fuel

/-- The next PC of a bundle: it falls through, or its loop level sends it back (R77, R85). -/
def State.advancePc (s : State) (c : CoreId) (t : TaskId) : State :=
  let pc := (s.task c t).pc
  let (s1, next, back) := s.loopEnd c t pc 4
  if back then s1.transfer c t next else s1.modTask c t (fun k => { k with pc := next })

/-- The ARITH exception of a bundle (R67, R69): the enabled classes its edge cases raised set line 1. -/
def State.arithExc (s : State) (c : CoreId) (fx : List Fx) : State :=
  let en := (s.csrGet Reg.CORE_EXC_EN c 0).toNat
  let classes (want : ArUnit → Bool) : Nat := fx.foldl (fun m f =>
    match f with
    | .arith u ov dz sat nan =>
      if want u then m ||| ((bit01 ov + 2 * bit01 dz + 4 * bit01 (sat != 0) + 8 * bit01 (nan != 0)) &&& en) else m
    | _ => m) 0
  let all := classes (fun _ => true)
  if all = 0 then s
  else
    let s1 := (s.put Reg.CORE_EXC_CAUSE_CLASS c 0 all).put Reg.CORE_EXC_CAUSE_UNIT c 0
      (if classes (fun u => u = .vec) ≠ 0 then 1 else 0)
    (s1.put Reg.CORE_EXC_CAUSE_VALID c 0 1).setIrq c 1

/-- Whether a write chooses the next PC itself. -/
def fxLeaves : Fx → Bool
  | .jump _ | .reti => true
  | .level count _ _ => count = 0
  | _ => false

/-- The writes of an operation. -/
def Op.fx (o : Op) : List Fx :=
  match o.out with
  | .ok fx | .velem fx _ => fx
  | _ => []

/-- The bundle's vector operations take their units at cc `x`, and a gather or scatter its issue cc (R134, R145, R166). -/
def State.occupy (s : State) (c : CoreId) (x : Nat) (units : List (Op × VUnit)) (fx : List Fx) : State :=
  let es := indexedElems fx
  let new := units.map (fun e => (e.2, x + (if e.1.indexed then issueCc es else s.groupCc c e.1)))
  let s1 := s.modVec c (fun v => { v with units := v.units.filter (fun e => decide (x < e.2)) ++ new
                                          beats := v.beats ++ (fx.flatMap (s.beatPhases c 4)).map (fun e => (x + e.1, e.2)) })
  if units.any (fun e => e.1.indexed) then s1.bump Reg.CORE_VEC_GCONF_COUNT c 0 (extraCc (s.issueCap c) es) else s1

/-- What no later bundle can meet is forgotten: bytes and bank phases of beats before the next X edge, and prefetched lines that the
next bundle does not look at (R76, R137, R538). -/
def State.forget (s : State) (c : CoreId) (t : TaskId) : State :=
  let x := (s.core c).seq.cc + 2
  let ln := s.granOff c t (s.task c t).pc.toNat / 64
  (s.modSeq c (fun q => { q with pre := q.pre.filter (fun e => decide (ln ≤ e.1) && decide (e.1 ≤ ln + 2)) })).modVec c
    (fun v => { v with late := v.late.filter (fun e => decide (x ≤ e.cc)), beats := v.beats.filter (fun e => decide (x ≤ e.1)),
                       units := v.units.filter (fun e => decide (x < e.2)) })

/-- A bundle leaves D (R72, R75, R85, R97): at X its operations take their units and issue, the next PC is chosen at W on the loop
state the bundle read, its writes take place, it is counted, and its long operation is charged. -/
def State.commit (s : State) (c : CoreId) (t : TaskId) (ops : List Op) (units : List (Op × VUnit)) : State :=
  let x := (s.core c).seq.cc + 2
  let s0 := (s.coreTime c 2).modTask c t (fun k => { k with wait := .none, longTold := false })
  let fx := s0.settle c x (ops.flatMap Op.fx)
  let from_ := if ops.any (fun o => o.slot == .vl) then 0 else 4
  let put (k : Nat) (y : State) : State := State.applyStage s0 x from_ c t fx k y
  let s1 := put 2 (put 1 (put 0 (s0.occupy c x units fx)))
  let s2 := if fx.any fxLeaves then s1 else s1.advancePc c t
  let s3 := (put 4 (put 3 s2)).arithExc c fx
  let long := ops.foldl (fun m o => max m o.long) 1
  let s4 := (s3.bump Reg.CORE_SEQ_BUNDLES_COUNT c 0 1).bump Reg.CORE_STALL_LONG_COUNT c 0 (long - 1)
  let s5 := (s4.coreTime c (1 + long)).forget c t
  (s5.modSeq c (fun q => { q with bundle := none, inD := false })).atBoundary c t

/-! ## D (R72..R75, R95, R98, R164..R168) -/

/-- A bundle about to enter F (R72, R76, R91, R110): what its fetch meets. The address that CORE_SEQ_FADDR takes for FETCH_BOUND
is the bundle's: DESIGN CHOICE, R121 does not say what it holds then (log 11). -/
def State.fetchFault (s : State) (c : CoreId) (t : TaskId) : Option (BitVec 5 × Option Word) :=
  let pc := (s.task c t).pc
  if pc.toNat % 32 ≠ 0 then some (causePcAlign, none)
  else if !s.inWin c t pc.toNat 32 then some (causeFetchBound, some pc)
  else if s.lcHit c pc.toNat then none
  else
    let off := s.granOff c t pc.toNat
    match (s.core c).seq.pre.find? (fun e => e.1 = off / 64) with
    | some (_, _, lo, hi) => if (if off % 64 < 32 then lo else hi) then some (causeEcc, none) else none
    | none => none

/-- Whether the bundle at the PC is in the loop cache or the prefetch buffer (R72, R76). -/
def State.fetchDone (s : State) (c : CoreId) (t : TaskId) : Bool :=
  let pc := (s.task c t).pc.toNat
  s.lcHit c pc || (s.core c).seq.pre.any (fun e => e.1 == s.granOff c t pc / 64)

/-- Whether a name stands twice in a list. -/
def hasTwice : List RName → Bool
  | [] => false
  | r :: rs => rs.contains r || hasTwice rs

/-- Whether a bundle is ILLEGAL (R73, R86, R164, R165, R168). -/
def State.opsIllegal (s : State) (c : CoreId) (t : TaskId) (ops : List Op) : Bool :=
  let k := s.task c t
  let depth := srLDEPTH k.sr
  ops.any (·.illegal)
    || ops.any (fun o => decide (slotLimit o.slot < ops.countP (fun x => x.slot == o.slot)))
    || decide (6 < ops.length)
    || (ops.any (·.alone) && decide (ops.length ≠ 1))
    || hasTwice (ops.flatMap (·.writes))
    || (ops.any (·.xfer) && decide (0 < depth) && decide (k.le.get (Fin.ofNat 4 (depth - 1)) = k.pc))

/-- Whether the scoreboard or a condition of R75 beside the waits holds an operation in D. -/
def State.opHeld (s : State) (c : CoreId) (t : TaskId) (o : Op) : Bool :=
  (o.reads ++ o.writes).any (fun r => (s.busyRegs c t).contains r) || o.hold

/-- The cc that a bundle spent in D since its commands last came are counted, and those its task was WAITING (R75, R323). -/
def State.charge (s : State) (c : CoreId) (h : Hd) (ops : List Op) : State :=
  let s1 := ((s.bump Reg.CORE_STALL_SCB_COUNT c 0 h.scb).bump Reg.CORE_STALL_SB_COUNT c 0 h.sb).bump
    Reg.CORE_STALL_VWAKE_COUNT c 0 h.vwake
  let s2 := (s1.bump Reg.CORE_STALL_WAIT_COUNT c 0 h.wait).coreTime c (h.scb + h.sb + h.vwake + h.wait)
  match ops.findSome? (fun o => match o.wait with | some (.row _ ctr) => some (ctr, o.away) | _ => none) with
  | some (ctr, away) => s2.rowWaited c ctr (h.wait + away)
  | none => s2

/-- The bundle stays in D: its commands come again, and each edge there is a recognition point (R75, R106). -/
def State.stayInD (s : State) (c : CoreId) (t : TaskId) : State :=
  (s.modSeq c (fun q => { q with bundle := none, inD := true })).atBoundary c t

/-- A wait whose condition is not met: at the bundle's first D edge the task becomes WAITING when another is READY, else it
stays in D; nothing of the bundle has issued (R95, R98). A bundle that something else holds at its first D edge stays in D: DEDUCED
(log 11). -/
def State.enterWait (s : State) (c : CoreId) (t : TaskId) (w : WaitFor) : State :=
  if !(s.core c).seq.inD && s.otherReady c then
    ((s.modTask c t (fun k => { k with st := .waiting, wait := w })).modSeq c
      (fun q => { q with running := none, last := t, bundle := none })).atBoundary c t
  else (s.modTask c t (fun k => { k with wait := w })).stayInD c t

/-- The first operation of a bundle, in slot order, that does not complete: DESIGN CHOICE, the spec does not order two faults of one
bundle (log 11). -/
def firstFault (ops : List Op) : Option Op :=
  ops.find? (fun o => match o.out with | .ok _ => false | _ => true)

/-- A bundle faults as one of its operations does (R109, R110, R144): nothing of it takes effect but the elements that a gather or
scatter performed before the one that fails. -/
def State.opFault (s : State) (c : CoreId) (t : TaskId) (units : List (Op × VUnit)) (o : Op) : State :=
  match o.out with
  | .ok _ => s
  | .fault cause addr half => s.fault c (s.faultRec c t cause addr half)
  | .frame off addr => (s.granRead c off 128).2.fault c (s.faultRec c t causeEcc (some addr) false)
  | .velem fx addr =>
    let x := (s.core c).seq.cc + 2
    let fx' := s.settle c x fx
    let s1 := s.occupy c x (units.filter (fun e => e.1.indexed)) fx'
    let s2 := [0, 1, 4].foldl (fun y k => State.applyStage s x 4 c t fx' k y) s1
    s2.fault c (s.faultRec c t causeVelem (some addr) false)

/-- Every command of a bundle has come: it meets the tests of D in the order of R168 and R75, and leaves D or stays. A bundle with a
vector operation begins a wake whatever else holds it (R140). -/
def State.judge (s : State) (c : CoreId) (t : TaskId) (h : Hd) (b : Bundle) : State :=
  if s.opsIllegal c t b.ops then (s.fault c (s.faultRec c t causeIllegal none false)).atBoundary c t
  else
    let vector := b.ops.any (fun o => slotVector o.slot)
    let s1 := s.charge c h b.ops
    let s2 := if vector then s1.beginWake c else s1
    let x := (s2.core c).seq.cc + 2
    let idle := b.ops.all (fun o => o.after.all (s2.unitFree c x))
    match if b.held || !idle || (vector && (s2.core c).vec.pwr != .on) then none else s2.bundleUnits c x b.ops with
    | none => s2.stayInD c t
    | some units =>
      match b.ops.findSome? (fun o => o.wait.filter (fun w => !s2.waitMet c w)) with
      | some w => s2.enterWait c t w
      | none => match firstFault b.ops with
        | some o => ((s2.opFault c t units o).coreTime c 4).atBoundary c t
        | none => s2.commit c t b.ops units

/-- An operation's command: it joins its bundle, which is judged when its last operation comes. -/
def State.issueOp (s : State) (c : CoreId) (t : TaskId) (h : Hd) (o : Op) : State :=
  let b := ((s.core c).seq.bundle).getD Bundle.empty
  let b' : Bundle := { ops := b.ops ++ [o], held := b.held || s.opHeld c t o }
  if h.last then s.judge c t h b' else s.modSeq c (fun q => { q with bundle := some b' })

/-- Whether the running task of a core may bring an operation to D: the sequencer runs, and at a recognition point no line
is recognisable and, where a bundle would enter F, no switch is due (R95, R106, R119). -/
def State.mayIssue (s : State) (c : CoreId) (t : TaskId) : Bool :=
  let q := (s.core c).seq
  !q.double && (q.bundle.isSome
    || (s.on Reg.CORE_SEQ_CTRL_RUN c 0 && (s.recognisable c (s.task c t).sr).isNone && (q.inD || !s.switchDue c t)))

/-- An operation's command: the running task of its core issues it, or nothing happens. The first of a bundle waits for the fetch of its
line (R72, R538). -/
def State.issue (s : State) (h : Hd) (mk : State → CoreId → TaskId → Op) : State :=
  let c := h.core
  match (s.core c).seq.running with
  | none => s
  | some t =>
    let entering := (s.core c).seq.bundle.isNone && !(s.core c).seq.inD
    if s.mayIssue c t then
      match (if entering then s.fetchFault c t else none) with
      | some (cause, addr) =>
        ((s.modSeq c (fun q => { q with pre := [] })).fault c (s.faultRec c t cause addr false)).atBoundary c t
      | none => if entering && !s.fetchDone c t then s else s.issueOp c t h (mk s c t)
    else s

end Sys2Proof.Machine
end

