-- ==== Sys2Proof/Machine/SlotWords.lean ====
section
/-! DEFINITION. What a slot word spells (05 R162, R164, R169..R180): the command of an operation, by its CLASS, its OP and the
fields of its body. Whether a word is reserved is BundleCheck's; a reserved OP spells nothing here. -/

namespace Sys2Proof.Machine

/-- The register that five bits of a body name. -/
def reg5 (x lsb : Nat) : Fin 32 := Fin.ofNat 32 (bitsOf x lsb 5)

/-- The pointer that three bits name. -/
def reg3 (x lsb : Nat) : PReg := Fin.ofNat 8 (bitsOf x lsb 3)

/-- The accumulator that two bits name (R177..R179). -/
def reg2 (x lsb : Nat) : AReg := Fin.ofNat 4 (bitsOf x lsb 2)

/-- A rounding mode by its code (R43). -/
def rmOf (n : Nat) : RMode :=
  match n with
  | 0 => .rne | 1 => .rna | 2 => .rtz | _ => .floor

/-- A group by its code (R176). -/
def grpOf (n : Nat) : Grp :=
  match n with
  | 0 => .g1 | 1 => .g2 | 2 => .g4 | _ => .g8

/-- A CRC width by WSEL (R171). -/
def crcWOf (n : Nat) : CrcW :=
  match n with
  | 0 => .w8 | 1 => .w16 | _ => .w32

/-- The two-source operations of SX, by OP (R171). -/
def sxPlain (op : Nat) : Option (Hd → SReg → SReg → Src → Instr) :=
  ([(0x00, .add), (0x01, .sub), (0x02, .adds), (0x03, .subs), (0x04, .addus), (0x05, .subus), (0x06, .andd), (0x07, .orr),
    (0x08, .xorr), (0x09, .andn), (0x0A, .sll), (0x0B, .srl), (0x0C, .sra), (0x0D, .ssl), (0x0E, .ssls), (0x0F, .ssr)]
   ++ [(0x11, .minn), (0x12, .maxx), (0x13, .minu), (0x14, .maxu), (0x19, .slt), (0x1A, .sltu), (0x1B, .seqq), (0x21, .mul),
    (0x22, .muls), (0x23, .mulh), (0x24, .mulhu), (0x25, .div), (0x26, .divs), (0x27, .divu), (0x28, .rem), (0x29, .remu)]
    : List (Nat × (Hd → SReg → SReg → Src → Instr))).lookup op

/-- The one-source operations of SX without a parameter, by OP (R171). -/
def sxUnary (op : Nat) : Option (Hd → SReg → SReg → Instr) :=
  ([(0x15, .absv), (0x16, .abss), (0x17, .negv), (0x18, .negs), (0x2A, .isqrt), (0x2B, .clz), (0x2C, .cls), (0x2D, .popc),
    (0x2E, .par)] : List (Nat × (Hd → SReg → SReg → Instr))).lookup op

/-- The command an SX body spells (R169..R171). -/
def sxInstr (h : Hd) (x : Nat) : Option Instr :=
  let op := bitsOf x 30 6
  let sd := reg5 x 25
  let sa := reg5 x 20
  let sb := reg5 x 14
  let imm := BitVec.ofNat 16 (bitsOf x 0 16)
  let src : Src := if x.testBit 19 then .imm imm else .reg sb
  match sxPlain op, sxUnary op with
  | some f, _ => some (f h sd sa src)
  | _, some f => some (f h sd sa)
  | none, none =>
    match op with
    | 0x10 => some (.rshr h sd sa (Fin.ofNat 64 (bitsOf x 8 6)) (rmOf (bitsOf x 6 2)))
    | 0x1C => some (.sel h sd sa sb (reg5 x 9))
    | 0x1D => some (.mov h (BitVec.ofNat 7 (bitsOf x 23 7)) (BitVec.ofNat 7 (bitsOf x 16 7)))
    | 0x1E => some (.movi h sd imm)
    | 0x1F => some (.movhi h sd imm)
    | 0x20 => some (.padd h (reg3 x 25) src)
    | 0x2F => some (.brev h sd sa (reg5 x 9) (bitsOf x 4 5 + 1))
    | 0x30 => some (.crcb h sd sa sb (crcWOf (bitsOf x 12 2)) (x.testBit 11))
    | 0x31 => some (.crcw h sd sa sb (crcWOf (bitsOf x 12 2)) (x.testBit 11))
    | 0x32 => some (.crcv h sd sa sb (crcWOf (bitsOf x 12 2)) (x.testBit 11))
    | 0x33 => some (.mini h sd sa sb)
    | 0x34 => some (.maxi h sd sa sb)
    | 0x35 => some (.miniu h sd sa sb)
    | 0x36 => some (.maxiu h sd sa sb)
    | _ => none

/-- The addressing mode that MODE, sb and IMM16 spell (R80, R172, R179). -/
def modeOf (mode : Nat) (sb : SReg) (imm : BitVec 16) : AMode :=
  match mode with
  | 0 => .base
  | 1 => .off imm
  | 2 => .postI imm
  | _ => .postR sb

/-- The command an SM body spells (R172). -/
def smInstr (h : Hd) (x : Nat) : Option Instr :=
  let sr := reg5 x 26
  let a : MAddr := { p := reg3 x 23, mode := modeOf (bitsOf x 21 2) (reg5 x 16) (BitVec.ofNat 16 (bitsOf x 0 16)) }
  match bitsOf x 31 5 with
  | 0x00 => some (.ldb h sr a)
  | 0x01 => some (.ldbu h sr a)
  | 0x02 => some (.ldh h sr a)
  | 0x03 => some (.ldhu h sr a)
  | 0x04 => some (.ldw h sr a)
  | 0x05 => some (.ldd h sr a)
  | 0x08 => some (.stb h sr a)
  | 0x09 => some (.sth h sr a)
  | 0x0A => some (.stw h sr a)
  | 0x0B => some (.std h sr a)
  | 0x10 => some (.push h sr)
  | 0x11 => some (.pop h sr)
  | 0x12 => some (.pushd h sr)
  | 0x13 => some (.popd h sr)
  | _ => none

/-- The branches, by OP (R173). -/
def scBranch (op : Nat) : Option (Hd → SReg → SReg → BitVec 3 → BitVec 18 → Instr) :=
  ([(0x00, .beq), (0x01, .bne), (0x02, .blt), (0x03, .bge), (0x04, .bltu), (0x05, .bgeu)]
    : List (Nat × (Hd → SReg → SReg → BitVec 3 → BitVec 18 → Instr))).lookup op

/-- The operations of SC with no operand, by OP (R173). -/
def scNone (op : Nat) : Option (Hd → Instr) :=
  ([(0x0C, .ret), (0x0D, fun h => .reti h []), (0x14, .fence), (0x15, .cinv), (0x16, .ei), (0x17, .di), (0x18, .yield), (0x19, .tend),
    (0x1A, .wfi)]
    : List (Nat × (Hd → Instr))).lookup op

/-- The command an SC body spells (R173..R175). An RWAIT that its word spells has not waited yet. -/
def scInstr (h : Hd) (x : Nat) : Option Instr :=
  let op := bitsOf x 31 5
  let sa := reg5 x 26
  let lx (lsb : Nat) : BitVec 3 := BitVec.ofNat 3 (bitsOf x lsb 3)
  let n := BitVec.ofNat 12 (bitsOf x 0 12)
  match scBranch op, scNone op with
  | some f, _ => some (f h sa (reg5 x 21) (lx 18) (BitVec.ofNat 18 (bitsOf x 0 18)))
  | _, some f => some (f h)
  | none, none =>
    match op with
    | 0x08 => some (.jmp h (lx 21) (BitVec.ofNat 21 (bitsOf x 0 21)))
    | 0x09 => some (.jmpr h sa (lx 0))
    | 0x0A => some (.call h (BitVec.ofNat 21 (bitsOf x 0 21)))
    | 0x0B => some (.callr h sa)
    | 0x10 => some (.loop h sa n)
    | 0x11 => some (.loopi h (BitVec.ofNat 16 (bitsOf x 12 16)) n)
    | 0x12 => some (.lexit h (lx 0))
    | 0x1B => some (.lwait h (x.testBit 16) (BitVec.ofNat 16 (bitsOf x 0 16)))
    | 0x1C => some (.cwait h (Fin.ofNat 64 (bitsOf x 0 6)))
    | 0x1D => some (.rwait h sa (BitVec.ofNat 8 (bitsOf x 0 8)) 0)
    | 0x1E => some (.csrr h sa (BitVec.ofNat 20 (bitsOf x 0 20)))
    | 0x1F => some (.csrw h sa (BitVec.ofNat 20 (bitsOf x 0 20)))
    | _ => none

/-- The operations of VA with two sources and no more, by OP (R177). -/
def vaPlain (op : Nat) : Option (Hd → VOpt → VReg → VReg → VSrc → Instr) :=
  ([(0x00, .vadd), (0x01, .vsub), (0x02, .vadds), (0x03, .vsubs), (0x04, .vand), (0x05, .vor), (0x06, .vxor), (0x07, .vandn),
    (0x09, .vsll), (0x0A, .vsrl), (0x0B, .vsra), (0x0C, .vssl), (0x0D, .vssls), (0x0E, .vssr), (0x10, .vmin), (0x11, .vmax)]
   ++ [(0x14, .vabsd), (0x16, .vcmpeq), (0x17, .vcmpne), (0x18, .vcmplt), (0x19, .vcmple), (0x1C, .vmul), (0x1D, .vmuls),
    (0x1F, .vaddw), (0x20, .vsubw), (0x21, .vmulw), (0x29, .vfadd), (0x2A, .vfsub), (0x2B, .vfmul), (0x2D, .vfmin),
    (0x2E, .vfmax)]
    : List (Nat × (Hd → VOpt → VReg → VReg → VSrc → Instr))).lookup op

/-- The command a VA body spells (R176, R177). -/
def vaInstr (h : Hd) (x : Nat) : Option Instr :=
  let op := bitsOf x 30 6
  let vd := reg5 x 25
  let va := reg5 x 20
  let vb := reg5 x 15
  let b : VSrc := if x.testBit 14 then .scl vb else .vec vb
  let o : VOpt := { fmt := fmtOf (bitsOf x 10 4), g := grpOf (bitsOf x 8 2), m := x.testBit 7 }
  let rm := rmOf (bitsOf x 5 2)
  let n : Fin 64 := Fin.ofNat 64 (bitsOf x 14 6)
  let aux := reg5 x 0
  match vaPlain op with
  | some f => some (f h o vd va b)
  | none =>
    match op with
    | 0x08 => some (.vnot h o vd va)
    | 0x0F => some (.vrshr h o vd va n rm)
    | 0x12 => some (.vabs h o vd va)
    | 0x13 => some (.vabss h o vd va)
    | 0x15 => some (.vavg h o vd va b rm)
    | 0x1A => some (.vsel h o vd va b aux)
    | 0x1B => some (.vspan h o vd va)
    | 0x1E => some (.vqmul h o vd va b rm)
    | 0x22 => some (.vnrshr h o vd va n rm)
    | 0x23 => some (.vcvt h o vd va (fmtOf (bitsOf x 0 4)) (if fmtInt o.fmt then some vb else none))
    | 0x24 => some (.vmac h o (reg2 x 25) va vb (fmtOf (bitsOf x 0 4)))
    | 0x25 => some (.vmacs h o (reg2 x 25) va vb (fmtOf (bitsOf x 0 4)))
    | 0x26 => some (.vaclr h (reg2 x 25))
    | 0x27 => some (.varshr h o vd (reg2 x 20) n rm)
    | 0x28 => some (.vrescale h o vd (reg2 x 20) vb aux)
    | 0x2C => some (.vfma h o vd va b aux)
    | 0x2F => some (.vlerp h o vd va b aux rm)
    | 0x30 => some (.vcubic h o vd va vb rm)
    | 0x31 => some (.vclass h o vd va vb aux)
    | _ => none

/-- Format, group and mask of a VP or VR body (R178). -/
def vpOpt (x : Nat) : VOpt := { fmt := fmtOf (bitsOf x 11 4), g := grpOf (bitsOf x 9 2), m := x.testBit 8 }

/-- The command a VP body spells (R178). -/
def vpInstr (h : Hd) (x : Nat) : Option Instr :=
  let o := vpOpt x
  let vd := reg5 x 26
  let va := reg5 x 21
  let vb := reg5 x 16
  let k : VShift := if x.testBit 15 then .scl vb else .imm (BitVec.ofNat 13 (bitsOf x 16 5 * 256 + bitsOf x 0 8))
  match bitsOf x 31 5 with
  | 0x00 => some (.vlaneup h o vd va k)
  | 0x01 => some (.vlanedn h o vd va k)
  | 0x02 => some (.vjoin h o vd va k)
  | 0x03 => some (.vperm h o vd va vb)
  | 0x04 => some (.vweave h o vd va vb)
  | 0x05 => some (.vsplit h o vd va)
  | 0x06 => some (.vbcast h o vd vb)
  | 0x07 => some (.vmvvs h o vd va vb)
  | 0x08 => some (.vmvsv h o vd va vb)
  | 0x09 => some (.vpack h o vd va vb)
  | 0x0A => some (.vhad h o vd va (BitVec.ofNat 2 (bitsOf x 0 2)) (BitVec.ofNat 3 (bitsOf x 2 3)) (rmOf (bitsOf x 5 2))
      (if o.fmt = .fp32 then some vb else none))
  | 0x0B => some (.vgrow h o vd va vb)
  | 0x0C => some (.vmvsc h vd (match bitsOf x 0 2 with | 0 => .vstart | 1 => .vfault | _ => .shape))
  | 0x0D => some (.vmvcs h (x.testBit 0) va)
  | _ => none

/-- The command a VR body spells (R178). -/
def vrInstr (h : Hd) (x : Nat) : Option Instr :=
  let o := vpOpt x
  let vd := reg5 x 26
  let va := reg5 x 21
  let vb := reg5 x 16
  match bitsOf x 31 5 with
  | 0x00 => some (.vrsum h o vd va)
  | 0x01 => some (.vrmaxi h o vd va vb)
  | 0x02 => some (.vrmini h o vd va vb)
  | 0x03 => some (.varsum h o vd (reg2 x 21))
  | 0x04 => some (.vmcount h o vd va)
  | 0x05 => some (.vmfind h o vd va)
  | 0x06 => some (.vscan h o vd va)
  | 0x07 => some (.vcrc16 h vd va vb (x.testBit 0))
  | _ => none

/-- The command a VL (`store` false) or VS body spells (R179). -/
def vmInstr (h : Hd) (store : Bool) (x : Nat) : Option Instr :=
  let v := reg5 x 28
  let p := reg3 x 25
  let a : MAddr := { p := p, mode := modeOf (bitsOf x 23 2) (reg5 x 0) (BitVec.ofNat 16 (bitsOf x 0 16)) }
  let o : VOpt := { fmt := fmtOf (bitsOf x 19 4), g := grpOf (bitsOf x 17 2), m := x.testBit 16 }
  match bitsOf x 33 3 with
  | 0 => some (if store then .vst h v a o else .vld h v a o)
  | 1 => some (if store then .vscatter h v p (reg5 x 0) o else .vgather h v p (reg5 x 0) o)
  | 2 => some (if store then .vast h (reg2 x 28) a else .vald h (reg2 x 28) a)
  | _ => none

/-- The command an LM body spells (R180). -/
def lmInstr (h : Hd) (x : Nat) : Option Instr :=
  let imm := BitVec.ofNat 16 (bitsOf x 0 16)
  match bitsOf x 32 4 with
  | 0 => some (.ljob h (reg3 x 23) imm)
  | 1 => some (.ltile h (reg3 x 23) imm)
  | _ => none

/-- The command a CR body spells (R180). -/
def crInstr (h : Hd) (x : Nat) : Option Instr :=
  if bitsOf x 32 4 = 0 then
    some (.cstart h (Fin.ofNat 64 (bitsOf x 26 6)) (reg3 x 23) (BitVec.ofNat 16 (bitsOf x 0 16)))
  else none

/-- The command a slot word spells; none for a NOP and for a reserved CLASS or OP (R164). -/
def slotInstr (h : Hd) (w : Nat) : Option Instr :=
  let x := bitsOf w 0 36
  match bitsOf w 36 4 with
  | 1 => sxInstr h x
  | 2 => smInstr h x
  | 3 => scInstr h x
  | 4 => vaInstr h x
  | 5 => vpInstr h x
  | 6 => vrInstr h x
  | 7 => vmInstr h false x
  | 8 => vmInstr h true x
  | 9 => lmInstr h x
  | 10 => crInstr h x
  | _ => none

end Sys2Proof.Machine
end

