-- ==== Sys2Proof/Machine/BundleCheck.lean ====
section
/-! DEFINITION. Reserved encodings of a bundle (05 R162..R165, R168..R180) and the event RESERVED_ENCODING: codes, excluded
values and unused fields slot by slot, then the limits of R164 and the combinations of R165. Double writes and the checks
that depend on state are made as each operation issues. -/

namespace Sys2Proof.Machine

/-- Whether the bits [lsb + width − 1 : lsb] of a body are all 0. -/
def zeroBits (x lsb width : Nat) : Bool := bitsOf x lsb width == 0

/-- A reserved SX body (R169..R171). -/
def sxReserved (x : Nat) : Bool :=
  let op := bitsOf x 30 6
  let imm := bitsOf x 19 1 == 1
  let ri := if imm then zeroBits x 16 3 else zeroBits x 0 14
  let unary := !imm && zeroBits x 14 5
  if op = 0x10 then !(unary && zeroBits x 0 6)
  else if 0x15 ≤ op ∧ op ≤ 0x18 ∨ 0x2A ≤ op ∧ op ≤ 0x2E then !(unary && zeroBits x 0 14)
  else if op = 0x1C then imm || !zeroBits x 0 9
  else if op = 0x1D then !zeroBits x 0 16 || decide (0x41 < bitsOf x 23 7) || decide (0x41 < bitsOf x 16 7)
  else if op = 0x1E ∨ op = 0x1F then !imm || !zeroBits x 20 5 || !zeroBits x 16 3
  else if op = 0x20 then !ri || !zeroBits x 20 5 || !zeroBits x 28 2
  else if op = 0x2F then !(unary && zeroBits x 0 4) || decide (32 < bitsOf x 9 5 + bitsOf x 4 5 + 1)
  else if 0x30 ≤ op ∧ op ≤ 0x32 then imm || !zeroBits x 0 11 || bitsOf x 12 2 == 3
  else if 0x33 ≤ op ∧ op ≤ 0x36 then imm || !zeroBits x 0 14
  else if 0x37 ≤ op then true
  else !ri

/-- A mode with fields it does not use (R172, R179). -/
def modeReserved (mode sb imm : Nat) : Bool :=
  match mode with
  | 0 => sb != 0 || imm != 0
  | 3 => imm != 0
  | _ => sb != 0

/-- A reserved SM body (R172). -/
def smReserved (x : Nat) : Bool :=
  let op := bitsOf x 31 5
  if op ≤ 5 ∨ 8 ≤ op ∧ op ≤ 11 then modeReserved (bitsOf x 21 2) (bitsOf x 16 5) (bitsOf x 0 16)
  else if 0x10 ≤ op ∧ op ≤ 0x13 then !zeroBits x 0 26
  else true

/-- A reserved SC body (R173..R175, R318). -/
def scReserved (x : Nat) : Bool :=
  let op := bitsOf x 31 5
  if op ≤ 5 then decide (4 < bitsOf x 18 3)
  else if op = 0x08 then !zeroBits x 24 7 || decide (4 < bitsOf x 21 3)
  else if op = 0x0A then !zeroBits x 21 10
  else if op = 0x09 then !zeroBits x 3 23 || decide (4 < bitsOf x 0 3)
  else if op = 0x0B then !zeroBits x 0 26
  else if op = 0x0C ∨ op = 0x0D ∨ 0x14 ≤ op ∧ op ≤ 0x1A then !zeroBits x 0 31
  else if op = 0x10 then !zeroBits x 12 14 || zeroBits x 0 12
  else if op = 0x11 then !zeroBits x 28 3 || zeroBits x 0 12
  else if op = 0x12 then !zeroBits x 3 28 || zeroBits x 0 3 || decide (4 < bitsOf x 0 3)
  else if op = 0x1B then !zeroBits x 17 14
  else if op = 0x1C then !zeroBits x 6 25
  else if op = 0x1D then !zeroBits x 8 18 || decide (6 ≤ bitsOf x 5 3)
  else if op = 0x1E ∨ op = 0x1F then !zeroBits x 20 6 || !zeroBits x 0 2
  else true

/-- The use of the fields of a VA opcode (R177): the second source (0 none, 1 either, 2 a vector, 3 a scalar, 4 a count),
RM, and how many low bits of AUX. -/
def vaForm (op fmt : Nat) : Nat × Bool × Nat :=
  if op = 0x08 ∨ op = 0x12 ∨ op = 0x13 ∨ op = 0x1B then (0, false, 0)
  else if op = 0x0F ∨ op = 0x22 ∨ op = 0x27 then (4, true, 0)
  else if op = 0x15 ∨ op = 0x1E then (1, true, 0)
  else if op = 0x1A ∨ op = 0x2C then (1, false, 5)
  else if op = 0x23 then (if fmtInt (fmtOf fmt) then 3 else 0, false, 4)
  else if op = 0x24 then (2, false, 4)
  else if op = 0x25 then (3, false, 4)
  else if op = 0x28 ∨ op = 0x31 then (3, false, 5)
  else if op = 0x2F then (1, true, 5)
  else if op = 0x30 then (3, true, 0)
  else (1, false, 0)

/-- A reserved VA body (R176, R177). -/
def vaReserved (x : Nat) : Bool :=
  let op := bitsOf x 30 6
  let (src, rm, aux) := vaForm op (bitsOf x 10 4)
  let acc := op = 0x24 ∨ op = 0x25 ∨ op = 0x26 ∨ op = 0x27 ∨ op = 0x28
  decide (0x31 < op)
    || (src == 0 && !zeroBits x 14 6) || (src == 2 && !zeroBits x 14 1) || (src == 3 && zeroBits x 14 1)
    || (!rm && !zeroBits x 5 2) || !zeroBits x aux (5 - aux)
    || (decide (acc ∨ op = 0x30) && !zeroBits x 8 2)
    || (decide (op = 0x24 ∨ op = 0x25 ∨ op = 0x26) && !zeroBits x 27 3)
    || (decide (op = 0x27 ∨ op = 0x28) && !zeroBits x 22 3)
    || (op == 0x26 && !zeroBits x 0 25) || (op == 0x28 && bitsOf x 0 1 == 1)

/-- A reserved VP body (R178). -/
def vpReserved (x : Nat) : Bool :=
  let op := bitsOf x 31 5
  let scalar := bitsOf x 15 1 == 1
  let noImm := zeroBits x 0 8
  let fp32 := bitsOf x 11 4 == 0xC
  if op ≤ 2 then scalar && !noImm
  else if op = 3 ∨ op = 4 ∨ op = 9 ∨ op = 0x0B then scalar || !noImm
  else if op = 5 then !zeroBits x 15 6 || !noImm
  else if op = 6 then !zeroBits x 21 5 || !scalar || !noImm
  else if op = 7 ∨ op = 8 then !scalar || !noImm
  else if op = 0x0A then
    !zeroBits x 7 1 || (if fp32 then !scalar || !zeroBits x 2 5 else !zeroBits x 15 6)
  else if op = 0x0C then !zeroBits x 8 18 || !zeroBits x 2 6 || bitsOf x 0 2 == 3
  else if op = 0x0D then !zeroBits x 26 5 || !zeroBits x 8 13 || !zeroBits x 1 7
  else true

/-- A reserved VR body (R178). -/
def vrReserved (x : Nat) : Bool :=
  let op := bitsOf x 31 5
  let scalar := bitsOf x 15 1 == 1
  if op = 1 ∨ op = 2 then !scalar || !zeroBits x 0 8
  else if op = 3 then !zeroBits x 23 3 || !zeroBits x 15 6 || !zeroBits x 0 8
  else if op = 7 then !scalar || !zeroBits x 1 7 || !zeroBits x 9 2
  else if op ≤ 6 then !zeroBits x 15 6 || !zeroBits x 0 8
  else true

/-- A reserved VL or VS body (R179). -/
def vmReserved (x : Nat) : Bool :=
  let op := bitsOf x 33 3
  let mode := bitsOf x 23 2
  let badMode := if mode = 0 then !zeroBits x 0 16 else if mode = 3 then !zeroBits x 5 11 else false
  if op = 1 then mode != 0 || !zeroBits x 5 11
  else if op = 0 then badMode
  else if op = 2 then badMode || !zeroBits x 16 7 || !zeroBits x 30 3
  else true

/-- A reserved slot word (R164, R168). -/
def slotReserved (w : Nat) : Bool :=
  let x := bitsOf w 0 36
  match bitsOf w 36 4 with
  | 0 => x != 0
  | 1 => sxReserved x
  | 2 => smReserved x
  | 3 => scReserved x
  | 4 => vaReserved x
  | 5 => vpReserved x
  | 6 => vrReserved x
  | 7 => vmReserved x
  | 8 => vmReserved x
  | 9 => decide (1 < bitsOf x 32 4) || !zeroBits x 26 6 || !zeroBits x 16 7
  | 10 => decide (0 < bitsOf x 32 4) || !zeroBits x 16 7
  | _ => true

/-- The slot words of a bundle (R162). -/
def slotWords (b : BitVec 256) : List Nat := (List.range 6).map (fun k => bitsOf b.toNat (16 + 40 * k) 40)

/-- How many slot words have a CLASS, and an OP at some place. -/
def slotCount (ws : List Nat) (cls : Nat) : Nat := ws.countP (fun w => bitsOf w 36 4 == cls)

/-- How many slot words are a given operation. -/
def opCount (ws : List Nat) (cls lsb width op : Nat) : Nat :=
  ws.countP (fun w => bitsOf w 36 4 == cls && bitsOf w lsb width == op)

/-- A reserved bundle (R163..R165, R168). -/
def bundleReserved (b : BitVec 256) : Bool :=
  let ws := slotWords b
  let tooMany := [(1, 2), (2, 1), (3, 1), (4, 2), (5, 1), (6, 1), (7, 2), (8, 1), (9, 1), (10, 1)].any
    (fun e => decide (e.2 < slotCount ws e.1))
  let gathers := opCount ws 7 33 3 1
  bitsOf b.toNat 0 4 != 5 || !zeroBits b.toNat 4 12 || ws.any slotReserved || tooMany
    || (opCount ws 3 31 5 0x0D == 1 && decide (slotCount ws 0 < 5))
    || decide (1 < gathers)
    || (decide (0 < opCount ws 5 31 5 0x0D) && decide (0 < gathers + opCount ws 8 33 3 1))

/-- The commands a bundle spells, in slot order, the last marked so (R162, R164); `h` is the head the sender gives them. -/
def bundleCommands (h : Hd) (b : BitVec 256) : List Instr :=
  let ws := (slotWords b).filter (fun w => (slotInstr h w).isSome)
  ws.zipIdx.filterMap (fun (e : Nat × Nat) => slotInstr { h with last := e.2 + 1 == ws.length } e.1)

/-- RESERVED_ENCODING: the running task's next bundle is a reserved encoding and raises ILLEGAL at its first D edge
(R168). A bundle that is not reserved is issued by the commands of its operations, so nothing happens here. -/
def execReservedEncoding (c : CoreId) (bundle : BitVec 256) (s : State) : Res :=
  if bundleReserved bundle then
    .next (s.issue { core := c, last := true, scb := 0, sb := 0, vwake := 0, wait := 0 }
      (fun _ _ _ => { slot := .nop, illegal := true, out := .ok [] }))
  else .next s

end Sys2Proof.Machine
end

