-- ==== Sys2Proof/Machine/Carter.lean ====
section
/-! DEFINITION. The Carter's rows (12 R349..R366), and the operations that start Loom jobs and Carter descriptors (05 R180; 07 R219;
12 R349). -/

namespace Sys2Proof.Machine

/-! ## LJOB, LTILE, CSTART -/

/-- What LM and CR operations share (R101, R180): the descriptor's address, its window check, the wait for a full queue or for the
store buffer to empty, and the start at X. -/
def descOp (s : State) (c : CoreId) (t : TaskId) (slot : Slot) (p : PReg) (imm : BitVec 16) (full : Bool) (fx : Word → Fx) : Op :=
  let a := ((s.task c t).p.get p + imm.signExtend 32) &&& 0xFFFFFFC0
  { slot := slot, reads := [.p p], hold := full || !(s.core c).seq.sbuf.isEmpty,
    out := if s.inWin c t a.toNat 64 then .ok [fx a] else .fault causeBound (some a) false }

/-- Whether the Loom queue of four is full (R219). -/
def State.ljobHold (s : State) (c : CoreId) : Bool :=
  decide (4 ≤ (s.core c).loom.jobs.countP (fun j => j.phase == .queued))

/-- LJOB (R219). -/
def execLjob (h : Hd) (p : PReg) (imm : BitVec 16) (s : State) : Res :=
  .next (s.issue h (fun s c t => descOp s c t .lm p imm (s.ljobHold c) (.loom false)))

/-- LTILE (R219). -/
def execLtile (h : Hd) (p : PReg) (imm : BitVec 16) (s : State) : Res :=
  .next (s.issue h (fun s c t => descOp s c t .lm p imm (s.ljobHold c) (.loom true)))

/-- CSTART (R349). -/
def execCstart (h : Hd) (ch : ChanId) (p : PReg) (imm : BitVec 16) (s : State) : Res :=
  .next (s.issue h (fun s c t =>
    descOp s c t .cr p imm (decide (4 ≤ (s.chan c ch).queue.length)) (.carter ch)))

/-! ## Taking and setting up descriptors (R349, R358) -/

/-- A descriptor taken and not yet set up. -/
def DescRun.fresh (addr : Nat) (ring : Option (Nat × Nat)) (winBase winLen : Nat) (desc : Line) (code : Nat) : DescRun :=
  { addr := addr, ring := ring, winBase := winBase, winLen := winLen, isSetUp := false, desc := desc, segs := [], code := code,
    run := false, tested := false, chunks := [], slots := [] }

/-- Whether another channel below this one takes the entries of its ring (R349). -/
def State.ringTaken (s : State) (c : CoreId) (ch : Nat) : Bool :=
  (List.range ch).any (fun k => s.on Reg.CARTER_CH_CFG_SRC c k
    && decide (s.rd Reg.CARTER_CH_CFG_RING c k = s.rd Reg.CARTER_CH_CFG_RING c ch))

/-- DESC_RING_TAKE (R349): an entry that cannot be read cleanly completes with the code of that read (log 20). -/
def execDescRingTake (c : CoreId) (ch : ChanId) (s : State) : Res :=
  let k := s.rd Reg.CARTER_CH_CFG_RING c ch
  let i := s.rd Reg.CARTER_RING_HEAD_HEAD c k
  .next (if s.coreOk c && s.on Reg.CARTER_CH_CFG_SRC c ch && !s.on Reg.CARTER_CH_CTRL_DIS c ch && (s.chan c ch).run.isNone
        && decide (s.ringKind c k = 2) && i != s.rd Reg.CARTER_RING_TAIL_TAIL c k && !s.ringTaken c ch then
      let a := s.ringSlot c k i
      let (code, s1) := s.localRead c.val a 64
      let d := lineOf (s1.localBytes a 64)
      (s1.put Reg.CARTER_RING_HEAD_HEAD c k ((i + 1) % 2 ^ 32)).setChan c ch
        { s.chan c ch with run := some (.fresh a (some (k, i)) 0 0x0400_0000 d code), tag := BitVec.ofNat 16 (cdTag d) }
    else s)

/-- Setup of a taken descriptor (R358, R361). -/
def State.setUp (s : State) (c : CoreId) (ch : Nat) (d : DescRun) : State :=
  let (code, segs) := s.cdCheck c ch d.winBase d.winLen d.desc
  let (badList, s1) := match s.cdListRead c d.winBase d.winLen d.desc, cdList d.desc with
    | some _, some a => s.granRead c (d.winBase + a) (16 * cdEntries d.desc)
    | _, _ => (false, s)
  let code' := if d.code ≠ 0 then d.code else if badList then errEcc else code
  let k := s.chan c ch
  (s1.setChan c ch { k with
    run := some { d with isSetUp := true, segs := if code' = 0 then segs else [], code := code', run := cdPace d.desc == 0 },
    tag := BitVec.ofNat 16 (cdTag d.desc) }).dealBufs c

/-- CARTER_SETUP (R350, R358): of the descriptor taken from a ring, or of the first of the queue. -/
def execCarterSetup (c : CoreId) (ch : ChanId) (s : State) : Res :=
  let k := s.chan c ch
  .next (if !s.coreOk c || !s.on Reg.CARTER_CTRL_EN c 0 || s.on Reg.CARTER_CH_CTRL_DIS c ch then s
    else match k.run with
      | some d => if d.isSetUp then s else s.setUp c ch d
      | none =>
        match k.queue with
        | [] => s
        | (off, base, len) :: rest =>
          let (bad, s1) := s.granRead c off 64
          let code := if bad then errEcc else codeOk
          (s1.setChan c ch { k with queue := rest }).setUp c ch
            (.fresh (granAddr c off) none base len (lineOf (s.granBytes c off 64)) code))

/-! ## Beats (R359, R360) -/

/-- Changes a segment of a running descriptor. -/
def State.modSeg (s : State) (c : CoreId) (ch i : Nat) (f : Seg → Seg) : State :=
  s.modRun c ch (fun d => { d with segs := d.segs.zipIdx.map (fun (e : Seg × Nat) => if e.2 = i then f e.1 else e.1) })

/-- The PRIO of a channel. -/
def State.chanPrio (s : State) (c : CoreId) (ch : Nat) : Fin 8 := Fin.ofNat 8 (s.rd Reg.CARTER_CH_CFG_PRIO c ch)

/-- The channel that a beat goes to (R360): of the highest PRIO with a ready channel, the one that had its last beat while its
chunk goes on, else the next in turn. A pre-emption leaves the turns of the lower PRIO as they are. -/
def State.pickChan (s : State) (c : CoreId) (ready : Nat → Bool) (lasts : Vector Nat 8) (mid : Nat → Bool) : Option Nat :=
  match [7, 6, 5, 4, 3, 2, 1, 0].find? (fun (p : Fin 8) => (List.range 64).any (fun ch => ready ch && s.chanPrio c ch == p)) with
  | none => none
  | some p =>
    let mine (ch : Nat) : Bool := ready ch && s.chanPrio c ch == p
    let last := lasts.get p
    if mid last && mine last then some last else (afterLast last 64).find? mine

/-- A request of a Carter enters the state. One to the spare reserve in use is refused with ERR_BOUND (R376). -/
def State.newReq (s : State) (c : CoreId) (ch i off : Nat) (write remote : Bool) (part : ReqPart) : State :=
  let r : MemReq := { tag := s.nextTag, sender := .carter c (Fin.ofNat 64 ch) i off, write := write, remote := remote,
                      parts := [part], bad := false, err := 0, dead := false }
  let refused := match placeOf part.addr with | .dram a => !remote && s.dramReserved a | _ => false
  { s with reqs := s.reqs ++ [if refused then r.refuse errBound else r], nextTag := s.nextTag + 1 }

/-- The packet of a request to a peer (R400..R402). -/
def State.reqPacket (s : State) (r : MemReq) : Packet :=
  let w := (r.parts.map (fun p => p.addr)).headD 0
  { dst := BitVec.ofNat 16 (awPeer w), src := BitVec.ofNat 16 s.fabAddr, ty := if r.write then 2 else 1, vl := false, status := 0,
    tag := BitVec.ofNat 16 r.tag, win := BitVec.ofNat 8 (awWin w),
    off := BitVec.ofNat 40 (awAddr w + (if r.write then 0 else r.parts.length - 1)),
    data := if r.write then r.parts.map (fun p => lineOf p.data) else [], hchk := true }

/-- Sends the packets of a channel that are not sent yet. -/
def State.sendUnsent (s : State) (c : CoreId) (ch : Nat) (write : Bool) : State :=
  (s.reqs.filter (fun r => r.ofChan c ch && r.write == write && r.unsent)).foldl (fun (x : State) (r : MemReq) =>
    (x.modReq r.tag (fun q => { q with parts := q.parts.map (fun p => { p with stage := .granted }) })).fabSend
      (s.reqPacket r) .packet) s

/-- The request to a peer that a further line joins (R402). -/
def State.joins (s : State) (c : CoreId) (ch i : Nat) (write : Bool) (w : Nat) : Option MemReq :=
  s.reqs.find? (fun r => r.ofChan c ch && r.write == write && r.unsent && r.segOff.1 == i && decide (r.parts.length < 4)
    && (r.parts.getLast?.map (fun p => p.addr + 64)) == some w)

/-- A line of a chunk bound for a peer (R402): packets hold up to four lines, and none is left over at the chunk's end. -/
def State.remoteBeat (s : State) (c : CoreId) (ch i off : Nat) (write ends : Bool) (part : ReqPart) : State :=
  let s1 := match s.joins c ch i write part.addr with
    | some r => s.modReq r.tag (fun q => { q with parts := q.parts ++ [part] })
    | none => (s.sendUnsent c ch write).newReq c ch i off write true part
  let full := s1.reqs.any (fun r => r.ofChan c ch && r.write == write && r.unsent && decide (4 ≤ r.parts.length))
  if full || ends then s1.sendUnsent c ch write else s1

/-- Whether a beat of a channel needs a new tag, and none is free (R359, R378). -/
def State.noTag (s : State) (c : CoreId) (ch i : Nat) (write : Bool) (w : Nat) : Bool :=
  decide (5120 ≤ s.coreTags c) && !(awPeer w != 0 && (s.joins c ch i write w).isSome)

/-- A running descriptor with its beats going. -/
def State.moving (s : State) (c : CoreId) (ch : Nat) : Option DescRun :=
  if s.on Reg.CARTER_CH_CTRL_DIS c ch then none
  else match (s.chan c ch).run with
    | none => none
    | some d => if d.isSetUp && decide (d.code = 0) then some d else none

/-- A COPY of CSR words has an access outstanding (R356). -/
def State.csrBusy (s : State) (c : CoreId) (ch : Nat) (d : DescRun) : Bool :=
  cdCsr d.desc && (!(s.chanReqs c ch).isEmpty)

/-- A channel has a read beat ready (R360). -/
def State.canRead (s : State) (c : CoreId) (ch : Nat) : Bool :=
  match s.moving c ch with
  | none => false
  | some d => d.run && d.holdsNext && !s.csrBusy c ch d && !(cdCsr d.desc && d.segs.any (fun (g : Seg) => !g.buf.isEmpty))

/-- A read beat of a segment (R360): a CSR word is read at once, and its response brings it. -/
def State.readLine (s : State) (c : CoreId) (ch i : Nat) (g : Seg) (n : Nat) : State :=
  let w := g.src.toNat + g.rd
  let ends := decide ((g.rd + n) % 4096 = 0) || decide (g.len ≤ g.rd + n)
  let s1 := s.modSeg c ch i (fun x => { x with rd := x.rd + n })
  if awPeer w ≠ 0 then
    if s.fab.lost.contains (awPeer w) then s1.failSeg c ch i errBound
    else s1.remoteBeat c ch i g.rd false ends { addr := w, len := 64, data := [], stage := .atGate, age := 0, tries := 0 }
  else if awCsr w then
    let (v, s2) := s1.csrRead (.carter c (Fin.ofNat 64 ch)) (awAddr w - 0x60_0000_0000)
    s2.newReq c ch i g.rd false false { addr := w, len := 4, data := leBytes 4 v.toNat, stage := .done, age := 0, tries := 0 }
  else s1.newReq c ch i g.rd false false { addr := w, len := n, data := [], stage := .atGate, age := 0, tries := 0 }

/-- The channel whose read beat goes next (R360). -/
def State.readChan (s : State) (c : CoreId) : Option Nat :=
  s.pickChan c (s.canRead c) (s.core c).carter.rdLast
    (fun ch => (s.moving c ch).any (fun d => d.readSeg.any (fun e => e.2.rd % 4096 != 0)))

/-- Whether the read beat that goes next waits for a tag (R359). -/
def State.readNoTag (s : State) (c : CoreId) : Bool :=
  (s.readChan c).any (fun ch => (s.moving c ch).any (fun d => d.readSeg.any (fun e =>
    s.noTag c ch e.1 false (e.2.src.toNat + e.2.rd))))

/-- CARTER_READ_BEAT (R359..R361): one nc of the reading side. The waits of that nc are counted, and free buffers are dealt. -/
def execCarterReadBeat (c : CoreId) (s : State) : Res :=
  let waits := (List.range 64).any (fun ch => s.wantsBuf c ch)
  let holds := (List.range 64).any (fun ch => (s.moving c ch).any (fun d => cdPace d.desc != 0 && !d.run))
  let s1 := if waits then s.bump Reg.CARTER_BUF_WAIT_COUNT c 0 1 else s
  let s2 := if holds then s1.bump Reg.CARTER_PACE_WAIT_COUNT c 0 1 else s1
  .next (match s2.readChan c with
    | none => s2.dealBufs c
    | some ch =>
      match s2.moving c ch with
      | none => s2
      | some d =>
        match d.readSeg with
        | none => s2
        | some (i, g) =>
          if s2.noTag c ch i false (g.src.toNat + g.rd) then (s2.bump Reg.CARTER_TAG_WAIT_COUNT c 0 1).dealBufs c
          else ((s2.modCarter c (fun r => { r with rdLast := r.rdLast.set (s2.chanPrio c ch) ch })).readLine c ch i g d.unit).dealBufs c)

/-- The buffered lines of a segment that may be written now: any for memory, the entry next in order for a PUT. -/
def putRing (d : Line) : Option Nat := if cdOp d = 3 then some (cdDst d) else none

/-- The smallest offset of the lines buffered. -/
def minOff (l : List (Nat × Line)) : Option (Nat × Line) :=
  l.foldl (fun m e => match m with | none => some e | some x => if e.1 < x.1 then some e else m) none

/-- The line a channel writes next: of the first segment that has one, the lowest. -/
def State.nextWrite (s : State) (c : CoreId) (ch : Nat) : Option (Nat × Nat × Line) :=
  match s.moving c ch with
  | none => none
  | some d =>
    let segs := d.segs.zipIdx.filter (fun (e : Seg × Nat) => decide (e.1.err = 0) && !e.1.buf.isEmpty)
    match segs with
    | [] => none
    | (g, i) :: _ =>
      match minOff g.buf with
      | none => none
      | some (off, l) =>
        let ok := match putRing d.desc with
          | some ring => decide (off = g.wr) && !s.putOut c ring && decide (0 < (s.ringIdx (ringId ring)).free)
          | none => !s.csrBusy c ch d
        if ok then some (i, off, l) else none

/-- The bytes of a segment's chunk. -/
def chunkLen (g : Seg) (n : Nat) : Nat := min 4096 (g.len - n * 4096)

/-- Whether a chunk of a descriptor is written to its end. -/
def DescRun.chunkOver (d : DescRun) (i n done : Nat) : Bool :=
  match d.segs[i]? with
  | some g => decide (chunkLen g n ≤ done)
  | none => true

/-- The chunks of a descriptor after `n` more bytes of one of them are written (R359). -/
def DescRun.chunksWrote (d : DescRun) (i off n : Nat) : List (Nat × Nat × Nat) :=
  let l := d.chunks.map (fun (e : Nat × Nat × Nat) =>
    if e.1 = i ∧ e.2.1 = off / 4096 then (e.1, e.2.1, e.2.2 + n) else e)
  l.filter (fun (e : Nat × Nat × Nat) => !(e.1 == i && e.2.1 == off / 4096 && d.chunkOver i e.2.1 e.2.2))

/-- A write beat's bookkeeping (R359): a chunk written to its end gives its buffer back. -/
def State.wroteLine (s : State) (c : CoreId) (ch i off n : Nat) : State :=
  (s.modSeg c ch i (fun x => { x with wr := x.wr + n, buf := x.buf.filter (fun e => e.1 != off) })).modRun c ch
    (fun d => { d with chunks := d.chunksWrote i off n })

/-- What a write beat of a descriptor writes at an address word: its data, or a free value where a source of the descriptor has that
line too (R359; log 2). -/
def State.overData (s : State) (d : DescRun) (w : Nat) (l : Line) : Line × State :=
  if !cdCsr d.desc && d.segs.any (fun (h : Seg) => decide (h.src.toNat ≤ w) && decide (w < h.src.toNat + h.len)) then s.draw 512
  else (l, s)

/-- The address word a write beat writes: for a PUT the slot at TAIL of its ring. -/
def State.writeWord (s : State) (d : DescRun) (g : Seg) (off : Nat) : Nat :=
  match putRing d.desc with
  | some ring => s.slotOf (ringId ring) (s.ringIdx (ringId ring)).tail
  | none => g.dst.toNat + off

/-- A write beat of a segment (R355, R356, R359, R360, R402). -/
def State.writeLine (s : State) (c : CoreId) (ch i off : Nat) (l : Line) (d : DescRun) (g : Seg) : State :=
  let n := d.unit
  let w := s.writeWord d g off
  let (data, s0) := s.overData d w l
  let bs := (lineBytes data).take n
  let s1 := s0.wroteLine c ch i off n
  let part (a : Nat) (st : ReqStage) : ReqPart := { addr := a, len := n, data := bs, stage := st, age := 0, tries := 0 }
  match putRing d.desc with
  | some _ => (s1.modRun c ch (fun x => { x with slots := x.slots ++ [w] })).newReq c ch i off true false (part w .atGate)
  | none =>
    if awPeer w ≠ 0 then
      if s.fab.lost.contains (awPeer w) then s1.failSeg c ch i errBound
      else
        let held := match (s1.chan c ch).run with
          | none => false
          | some e => e.chunks.any (fun k => k.1 == i && k.2.1 == off / 4096)
        s1.remoteBeat c ch i off true (!held) (part w .atGate)
    else if awCsr w then
      (s1.csrWrite (.carter c (Fin.ofNat 64 ch)) (awAddr w - 0x60_0000_0000) (BitVec.ofNat 32 (leNat bs))).newReq c ch i off true
        false (part w .done)
    else s1.newReq c ch i off true false (part w .atGate)

/-- CARTER_WRITE_BEAT (R359, R360): one nc of the writing side. An nc in which the read beat waits for a tag too is counted by that
beat. -/
def execCarterWriteBeat (c : CoreId) (s : State) : Res :=
  let mid (ch : Nat) : Bool := (s.moving c ch).any (fun d => d.chunks.any (fun e => e.2.2 != 0))
  .next (match s.pickChan c (fun ch => (s.nextWrite c ch).isSome) (s.core c).carter.wrLast mid with
    | none => s
    | some ch =>
      match s.nextWrite c ch, s.moving c ch with
      | some (i, off, l), some d =>
        let g := d.segs.getD i ⟨0, 0, 0, 0, 0, [], 0⟩
        if s.noTag c ch i true (g.dst.toNat + off) then s.bump Reg.CARTER_TAG_WAIT_COUNT c 0 (bit01 (!s.readNoTag c))
        else ((s.modCarter c (fun r => { r with wrLast := r.wrLast.set (s.chanPrio c ch) ch })).writeLine c ch i off l d g).dealBufs c
      | _, _ => s)

/-! ## Pacing (R361) -/

/-- The level of a paced ring, and whether a line-buffer ring has ended. -/
def State.paceLevel (s : State) (c : CoreId) (pring : Nat) : Nat × Bool :=
  if bitsOf pring 15 1 = 1 then
    let n := bitsOf pring 4 3
    let r := bitsOf pring 0 4
    (idxSub (s.copy c (n * 32 + r)).toNat (s.rd Reg.PIPE_RING_REL_REL n r), s.on Reg.PIPE_RING_STAT_END n r)
  else
    let x := s.ringIdx (ringId (bitsOf pring 0 14))
    (idxSub x.tail x.head, false)

/-- Whether a channel is in RUN after a test. -/
def paceNext (d : Line) (run : Bool) (level : Nat) (ended : Bool) : Bool :=
  if cdPace d = 1 then
    if run then !(decide (level ≤ cdLw d) && !ended) else decide (cdHw d ≤ level) || ended
  else if run then !decide (cdHw d ≤ level) else decide (level ≤ cdLw d)

/-- PACE_TEST (R361): before a chunk. -/
def execPaceTest (c : CoreId) (ch : ChanId) (s : State) : Res :=
  .next (match s.moving c ch with
    | none => s
    | some d =>
      if cdPace d.desc = 0 ∨ d.nextChunk.isNone ∨ d.holdsNext ∨ d.tested then s
      else
        let (l, e) := s.paceLevel c (cdPring d.desc)
        let run := paceNext d.desc d.run l e
        (s.modRun c ch (fun x => { x with run := run, tested := run })).dealBufs c)

/-! ## Responses (R362, R364) -/

/-- A request leaves, its tag free. -/
def State.dropReq (s : State) (tag : Nat) : State := { s with reqs := s.reqs.filter (fun q => q.tag != tag) }

/-- The channel of a request of core `c`. -/
def MemReq.chanOf (r : MemReq) (c : CoreId) : Option Nat :=
  match r.sender with
  | .carter d ch _ _ => if d = c then some ch.val else none
  | .peer _ _ _ _ => none

/-- READ_RESPONSE (R364): the data enters its buffer, or the segment fails. -/
def execReadResponse (c : CoreId) (tag : Nat) (s : State) : Res :=
  .next (match s.req? tag with
    | none => s
    | some r =>
      match r.chanOf c with
      | none => s
      | some ch =>
        if r.write || !r.allDone then s
        else
          let s1 := s.dropReq tag
          let (i, off) := r.segOff
          if r.dead then s1
          else if r.err ≠ 0 then (s1.failSeg c ch i r.err).dealBufs c
          else if r.bad then (s1.failSeg c ch i errEcc).dealBufs c
          else s1.modSeg c ch i (fun g => if g.err ≠ 0 then g
            else { g with buf := g.buf ++ r.parts.zipIdx.map (fun (e : ReqPart × Nat) => (off + 64 * e.2, lineOf e.1.data)) }))

/-- TAIL of a PUT's ring advances (R355). -/
def State.putAdvance (s : State) (ring : Nat) : State :=
  let r := ringId ring
  (s.tailWrite r (((s.ringIdx r).tail + 1) % 2 ^ 32)).2

/-- A write error after the completion (R362). -/
def State.lateErr (s : State) (c : CoreId) (ch : Nat) (tag : BitVec 16) (code : Nat) : State :=
  (s.bump Reg.CARTER_LATE_ERR_COUNT c 0 1).coreEvent c 0x881 [ch, tag.toNat, code]

/-- A write's response of a descriptor that is still running. -/
def State.writeEnded (s : State) (c : CoreId) (ch : Nat) (r : MemReq) : State :=
  if r.dead then s
  else if r.err ≠ 0 then (s.failSeg c ch r.segOff.1 r.err).dealBufs c
  else match (s.chan c ch).run with
    | none => s
    | some d => match putRing d.desc with
      | some ring => s.putAdvance ring
      | none => s

/-- WRITE_RESPONSE (R355, R362). -/
def execWriteResponse (c : CoreId) (tag : Nat) (s : State) : Res :=
  .next (match s.req? tag with
    | none => s
    | some r =>
      match r.chanOf c with
      | none => s
      | some ch =>
        if !r.write || !r.allDone then s
        else
          let s1 := s.dropReq tag
          match (s.core c).carter.late.find? (fun e => e.1 == tag) with
          | none => s1.writeEnded c ch r
          | some (_, dtag, ring) =>
            let s2 := s1.modCarter c (fun k => { k with late := k.late.filter (fun e => e.1 != tag) })
            if r.dead then s2
            else if r.err ≠ 0 then s2.lateErr c ch dtag r.err
            else match ring with
              | some g => s2.putAdvance g
              | none => s2)

/-- CARTER_TIMEOUT (R364): the request's response is discarded when it comes; its tag stays taken until then (R378). -/
def execCarterTimeout (c : CoreId) (tag : Nat) (s : State) : Res :=
  .next (match s.req? tag with
    | none => s
    | some r =>
      match r.chanOf c with
      | none => s
      | some ch =>
        if r.dead || r.unsent || !s.on Reg.CARTER_CTRL_TIMEOUT c 0 then s
        else
          let s1 := s.modReq tag (fun q => { q with dead := true })
          match (s.core c).carter.late.find? (fun e => e.1 == tag) with
          | none => (s1.failSeg c ch r.segOff.1 errTimeout).dealBufs c
          | some (_, dtag, _) =>
            (s1.modCarter c (fun k => { k with late := k.late.filter (fun e => e.1 != tag) })).lateErr c ch dtag errTimeout)

/-! ## Completion (R362, R363, R365) -/

/-- Whether a descriptor may complete: its check failed, or its beats have issued and, where it waits for them, its writes are
answered. -/
def State.mayComplete (s : State) (c : CoreId) (ch : Nat) (d : DescRun) : Bool :=
  decide (d.code ≠ 0)
    || (d.moved && !(s.chanReqs c ch).any (fun r => r.unsent) && (!d.waits ch || !(s.chanReqs c ch).any (fun r => r.write)))

/-- DESCRIPTOR_COMPLETE (R363, R365): the completion bytes, then the signal. Writes not yet answered outlive their descriptor. -/
def execDescriptorComplete (c : CoreId) (ch : ChanId) (s : State) : Res :=
  .next (match (s.chan c ch).run with
    | none => s
    | some d =>
      if !d.isSetUp || !s.mayComplete c ch d then s
      else
        let code := if d.code ≠ 0 then d.code else segsCode d.segs
        let total := segTotal (d.segs.filter (fun (g : Seg) => g.err == 0))
        let bytes := if d.code ≠ 0 then completionBytes [] code 0 else completionBytes d.segs code total
        let out := ((s.chanReqs c ch).filter (fun r => r.write)).map (fun r => r.tag)
        let s2 := (s.carterWriteDone c d.addr d.ring bytes).setChan c ch { s.chan c ch with run := none }
        let s3 := s2.modCarter c (fun k => { k with
          late := k.late ++ out.map (fun t => (t, BitVec.ofNat 16 (cdTag d.desc), putRing d.desc)) })
        (s3.carterSignal c ch d.desc code).dealBufs c)

/-- CHANNEL_DISABLE (R366). -/
def execChannelDisable (c : CoreId) (ch : ChanId) (s : State) : Res := .next (s.disWrite c ch true)

end Sys2Proof.Machine
end

