-- ==== Sys2Proof/Machine/Control.lean ====
section
/-! DEFINITION. Sequencer control operations (03 R83..R91, R95, R98, R101, R109, R115; 05 R173..R175): the SC slot. -/

namespace Sys2Proof.Machine

/-- The writes of an LX field or a LEXIT (R87, R174). -/
def lexitFx (k : Nat) : List Fx := if k = 0 then [] else [.lexit k]

/-- Whether an LX field is ILLEGAL: excluded, or above LDEPTH (R174). -/
def lxBad (k : Task) (lx : Nat) : Bool := decide (4 < lx) || decide (srLDEPTH k.sr < lx)

/-- A conditional branch on two registers (R173, R174). -/
def branchOp (h : Hd) (sa sb : SReg) (lx : BitVec 3) (off : BitVec 18) (taken : Word → Word → Bool) (s : State) : Res :=
  .next (s.issue h (fun s c t =>
    let k := s.task c t
    let target := k.pc + BitVec.ofInt 32 (32 * off.toInt)
    { slot := .sc, illegal := lxBad k lx.toNat, reads := [.s sa, .s sb], xfer := true,
      out := .ok ((if taken (k.s.get sa) (k.s.get sb) then [.jump target] else []) ++ lexitFx lx.toNat) }))

/-- A call to a task-relative address (R91): it pushes the address of the next bundle with KIND 0. A misaligned target is found before a
full RSTK: DESIGN CHOICE, the spec does not order the two (log 11). -/
def callOp (k : Task) (reads : List RName) (target : Word) : Op :=
  { slot := .sc, reads := reads, xfer := true,
    out := if target.toNat % 32 ≠ 0 then .fault causePcAlign none false
      else if 56 ≤ k.rstk.length then .fault causeRstkOvf none false
      else .ok [.rpush { addr := k.pc + 32, sr := k.sr, intr := false }, .jump target] }

/-- A loop level of some count whose body is `n` bundles long (R83, R84). -/
def loopOp (k : Task) (reads : List RName) (count : Word) (n : BitVec 12) : Op :=
  let depth := srLDEPTH k.sr
  let d : Fin 4 := Fin.ofNat 4 depth
  { slot := .sc, illegal := decide (n = 0), reads := reads,
    writes := if count = 0 ∨ 4 ≤ depth then [] else [.lc d, .le d], xfer := true,
    out := if 4 ≤ depth then .fault causeLoopDepth none false
      else .ok [.level count (k.pc + BitVec.ofNat 32 (32 * n.toNat)) (k.pc + 32)] }

/-- A sequencer control operation without operands, with what it writes, what it waits for and its effect. -/
def plainSc (h : Hd) (writes : List RName) (wait : Option WaitFor) (fx : List Fx) (s : State) : Res :=
  .next (s.issue h (fun _ _ _ => { slot := .sc, writes := writes, wait := wait, out := .ok fx }))

/-- BEQ (R173). -/
def execBeq (h : Hd) (sa sb : SReg) (lx : BitVec 3) (off : BitVec 18) (s : State) : Res :=
  branchOp h sa sb lx off (fun a b => a == b) s

/-- BNE (R173). -/
def execBne (h : Hd) (sa sb : SReg) (lx : BitVec 3) (off : BitVec 18) (s : State) : Res :=
  branchOp h sa sb lx off (fun a b => a != b) s

/-- BLT, signed (R173). -/
def execBlt (h : Hd) (sa sb : SReg) (lx : BitVec 3) (off : BitVec 18) (s : State) : Res :=
  branchOp h sa sb lx off (fun a b => a.slt b) s

/-- BGE, signed (R173). -/
def execBge (h : Hd) (sa sb : SReg) (lx : BitVec 3) (off : BitVec 18) (s : State) : Res :=
  branchOp h sa sb lx off (fun a b => !a.slt b) s

/-- BLTU (R173). -/
def execBltu (h : Hd) (sa sb : SReg) (lx : BitVec 3) (off : BitVec 18) (s : State) : Res :=
  branchOp h sa sb lx off (fun a b => a.ult b) s

/-- BGEU (R173). -/
def execBgeu (h : Hd) (sa sb : SReg) (lx : BitVec 3) (off : BitVec 18) (s : State) : Res :=
  branchOp h sa sb lx off (fun a b => !a.ult b) s

/-- JMP to a bundle index (R173, R174). -/
def execJmp (h : Hd) (lx : BitVec 3) (tgt : BitVec 21) (s : State) : Res :=
  .next (s.issue h (fun s c t =>
    { slot := .sc, illegal := lxBad (s.task c t) lx.toNat, xfer := true,
      out := .ok (.jump (BitVec.ofNat 32 (tgt.toNat * 32)) :: lexitFx lx.toNat) }))

/-- JMPR to a register address, which must be a bundle's (R112, R173, R174). -/
def execJmpr (h : Hd) (sa : SReg) (lx : BitVec 3) (s : State) : Res :=
  .next (s.issue h (fun s c t =>
    let k := s.task c t
    let target := k.s.get sa
    { slot := .sc, illegal := lxBad k lx.toNat, reads := [.s sa], xfer := true,
      out := if target.toNat % 32 ≠ 0 then .fault causePcAlign none false
        else .ok (.jump target :: lexitFx lx.toNat) }))

/-- CALL a bundle index (R91, R173). -/
def execCall (h : Hd) (tgt : BitVec 21) (s : State) : Res :=
  .next (s.issue h (fun s c t => callOp (s.task c t) [] (BitVec.ofNat 32 (tgt.toNat * 32))))

/-- CALLR a register address (R91, R173). -/
def execCallr (h : Hd) (sa : SReg) (s : State) : Res :=
  .next (s.issue h (fun s c t => callOp (s.task c t) [.s sa] ((s.task c t).s.get sa)))

/-- RET pops an entry of KIND 0 and goes to its address (R91). SR stays as it is: DESIGN CHOICE, the spec says of RETI alone that it
restores SR (log 11). -/
def execRet (h : Hd) (s : State) : Res :=
  .next (s.issue h (fun s c t =>
    { slot := .sc, xfer := true,
      out := match (s.task c t).rstk with
        | [] => .fault causeRstkUnf none false
        | e :: _ => if e.intr then .fault causeRstkKind none false else .ok [.jump e.addr, .rpop] }))

/-- The registers that RETI restores (R96, R109). -/
def retiWrites : List RName :=
  (List.range 8).map (fun i => RName.s (Fin.ofNat 32 i)) ++ (List.finRange 4).map RName.lc ++ (List.finRange 4).map RName.le
    ++ [.dsp, .sr]

/-- The task-relative address of the first unit of a frame that reads uncorrectable (R109). -/
def State.frameBad (s : State) (c : CoreId) (t : TaskId) (off : Nat) : Option Word :=
  ((s.unitHeads c off 128).find? (fun w => s.wordBad c w)).map (fun w => BitVec.ofInt 32 ((w * 8 : Nat) - (s.winBase c t : Int)))

/-- RETI, alone in its bundle: the checks of RSTK and of the frame, then the restoration (R91, R109, R112). A frame outside the window
reports DSP in CORE_SEQ_FADDR: DESIGN CHOICE, R121 does not say what it holds then (log 11). -/
def execReti (h : Hd) (errs : List Upset) (s : State) : Res :=
  .next ((s.struck errs).issue h (fun s c t =>
    let k := s.task c t
    let off := s.granOff c t k.dsp.toNat
    { slot := .sc, writes := retiWrites, xfer := true, alone := true,
      out := match k.rstk with
        | [] => .fault causeRstkUnf none false
        | e :: _ =>
          if !e.intr then .fault causeRstkKind none false
          else if !s.inWin c t k.dsp.toNat 128 then .fault causeBound (some k.dsp) false
          else match s.frameBad c t off with
            | some a => .frame off a
            | none => .ok [.reti] }))

/-- LOOP with a register count (R83). -/
def execLoop (h : Hd) (sa : SReg) (n : BitVec 12) (s : State) : Res :=
  .next (s.issue h (fun s c t => loopOp (s.task c t) [.s sa] ((s.task c t).s.get sa) n))

/-- LOOPI with an immediate count (R83). -/
def execLoopi (h : Hd) (count : BitVec 16) (n : BitVec 12) (s : State) : Res :=
  .next (s.issue h (fun s c t => loopOp (s.task c t) [] (count.zeroExtend 32) n))

/-- LEXIT retires the `k` innermost levels at W (R87, R173). -/
def execLexit (h : Hd) (k : BitVec 3) (s : State) : Res :=
  .next (s.issue h (fun s c t =>
    { slot := .sc, illegal := decide (k = 0) || lxBad (s.task c t) k.toNat, xfer := true, out := .ok [.lexit k.toNat] }))

/-- FENCE waits until the store buffer is empty and earlier vector stores have issued their last beat or element (R101, R137). -/
def execFence (h : Hd) (s : State) : Res :=
  .next (s.issue h (fun s c _ => { slot := .sc, hold := !(s.core c).seq.sbuf.isEmpty, after := [.z], out := .ok [] }))

/-- CINV empties the loop cache (R89). -/
def execCinv (h : Hd) (s : State) : Res := plainSc h [] none [.cinv] s

/-- EI: IE is set at W (R115). -/
def execEi (h : Hd) (s : State) : Res := plainSc h [.sr] none [.ie true] s

/-- DI: IE is cleared at W (R115). -/
def execDi (h : Hd) (s : State) : Res := plainSc h [.sr] none [.ie false] s

/-- YIELD: the task becomes READY and the sequencer may switch (R95). -/
def execYield (h : Hd) (s : State) : Res := plainSc h [] none [.yield] s

/-- TEND ends the job: FREE, the completion OK, a death notice (R95, R348, R388). -/
def execTend (h : Hd) (s : State) : Res := plainSc h [] none [.tend] s

/-- WFI waits for a pending enabled line (R98, R106). -/
def execWfi (h : Hd) (s : State) : Res := plainSc h [] (some .irq) [] s

/-- LWAIT waits for the Loom jobs or tiles of a tag (R98, R222). -/
def execLwait (h : Hd) (job : Bool) (id : BitVec 16) (s : State) : Res :=
  plainSc h [] (some (.loom job id)) [] s

/-- CWAIT waits for a Carter channel (R98, R351). -/
def execCwait (h : Hd) (ch : ChanId) (s : State) : Res := plainSc h [] (some (.carter ch)) [] s

/-- RWAIT waits for a row count (R318). `away` are the cc the task spent WAITING since it was last in D, which the wait counters add to
those it spent in D (R98, R122, R323). -/
def execRwait (h : Hd) (sa : SReg) (ctr : BitVec 8) (away : Nat) (s : State) : Res :=
  .next (s.issue h (fun s c t =>
    { slot := .sc, illegal := decide (6 ≤ ctr.toNat / 32), reads := [.s sa],
      wait := some (.row ((s.task c t).s.get sa) ctr), away := away, out := .ok [] }))

/-- CSRR of the own core's block: read, latched and cleared in one access at the end of X (R21, R115, R167, R175). -/
def execCsrr (h : Hd) (sd : SReg) (off : BitVec 20) (s : State) : Res :=
  .next (s.issue h (fun _ _ _ =>
    { slot := .sc, illegal := decide (off.toNat % 4 ≠ 0), writes := [.s sd], long := 8, out := .ok [.csrr sd off] }))

/-- CSRW of the own core's block (R115, R175). -/
def execCsrw (h : Hd) (sa : SReg) (off : BitVec 20) (s : State) : Res :=
  .next (s.issue h (fun s c t =>
    { slot := .sc, illegal := decide (off.toNat % 4 ≠ 0), reads := [.s sa], long := 8,
      out := .ok [.csrw off ((s.task c t).s.get sa)] }))

/-- NOP: a bundle whose slots are all NOP takes its place in the bundle cycle (R164). -/
def execNop (h : Hd) (s : State) : Res :=
  .next (s.issue h (fun _ _ _ => { slot := .nop, out := .ok [] }))

end Sys2Proof.Machine
end

