-- ==== Sys2Proof/Machine/Host.lean ====
section
/-! DEFINITION. The host port's rows (15 R423..R442; 10 R290, R291; 13 R539): frames and units received, the session, its messages,
and what the part sends of itself. -/

namespace Sys2Proof.Machine

/-! ## Frames received (R423..R428) -/

/-- A number of `n` bytes, the most significant first, at byte `at`. -/
def beAt (bs : List Byte) (pos n : Nat) : Nat := ((bs.drop pos).take n).foldl (fun x b => x * 256 + b.toNat) 0

/-- The EtherType onward of a frame, its one IEEE 802.1Q tag removed (R423, R424), and the length the tag took. -/
def untag (f : List Byte) : List Byte × Nat := if beAt f 0 2 = 0x8100 then (f.drop 4, 4) else (f, 0)

/-- The IPv6 address of the station (R425). -/
def State.hostIpv6 (s : State) : Nat :=
  (List.range 4).foldl (fun x j => x * 2 ^ 32 + s.rd Reg.HOST_IPV6_ADDR 0 j) 0

/-- The unit that a frame carries, and the network address and port it came from (R425): `none` for a frame to discard. -/
def State.unitIn (s : State) (f : List Byte) : Option (List Byte × List Byte) :=
  let p := f.drop 2
  match s.rd Reg.HOST_CTRL_ENCAP 0 0 with
  | 0 => if beAt f 0 2 = s.rd Reg.HOST_ETYPE_ETYPE 0 0 then some (p, []) else none
  | 1 =>
    let u := p.drop (beAt p 0 1 % 16 * 4)
    if beAt f 0 2 = 0x0800 ∧ beAt p 0 1 / 16 = 4 ∧ beAt p 6 2 % 0x4000 = 0 ∧ beAt p 9 1 = 17
        ∧ beAt p 16 4 = s.rd Reg.HOST_IPV4_ADDR 0 0 ∧ beAt u 2 2 = s.rd Reg.HOST_ETYPE_UDP_PORT 0 0 then
      some (u.drop 8, (p.drop 12).take 4 ++ u.take 2)
    else none
  | 2 =>
    let u := p.drop 40
    if beAt f 0 2 = 0x86DD ∧ beAt p 0 1 / 16 = 6 ∧ beAt p 6 1 = 17 ∧ beAt p 24 16 = s.hostIpv6
        ∧ beAt u 2 2 = s.rd Reg.HOST_ETYPE_UDP_PORT 0 0 then
      some (u.drop 8, (p.drop 8).take 16 ++ u.take 2)
    else none
  | _ => none

/-- The bytes of words that follow the header of an operation (R431). -/
def opWords (op : Nat) : Nat :=
  match op with
  | 0x03 => 16
  | 0x04 | 0x05 | 0x06 | 0x07 | 0x40 | 0x41 => 8
  | 0x08 => 32
  | _ => 0

/-- The messages of a unit (R430, R431); at most `fuel`. A message that the unit does not hold whole is discarded (log 25). -/
def messagesOf (bs : List Byte) : Nat → List HMsg
  | 0 => []
  | fuel + 1 =>
    let op := beAt bs 0 1
    let dlen := leNat ((bs.drop 2).take 2)
    let w := opWords op
    let n := 8 + w + dlen
    if bs.length < max 8 n then []
    else { op := op, dlen := dlen, tag := leNat ((bs.drop 4).take 4), words := (bs.drop 8).take w,
           data := (bs.drop (8 + w)).take dlen } :: messagesOf (bs.drop ((n + 7) / 8 * 8)) fuel

/-- Whether the host may send an operation, with so much data (R431). -/
def HMsg.allowed (m : HMsg) : Bool := decide (1 ≤ m.op) && decide (m.op ≤ 9) && decide (m.dlen ≤ 1024)

/-- The host acknowledges units (R428): those before `ack` leave, DONE of their rings advances (R436), and what waited for room is
sent. An `ack` that names no unit sent acknowledges nothing. -/
def State.hostAcked (s : State) (ack : Nat) : State :=
  match s.host.unacked with
  | [] => s
  | u :: _ =>
    let n := idxSub ack u.seq
    if n ≤ s.host.unacked.length then
      let rings := (s.host.unacked.take n).flatMap (fun u => u.rings)
      let s1 := { s with host := { s.host with unacked := s.host.unacked.drop n } }
      let s2 := rings.foldl (fun (x : State) (e : Nat × Nat) =>
        x.put Reg.HOST_RING_DONE_DONE 0 e.1 ((x.rd Reg.HOST_RING_DONE_DONE 0 e.1 + e.2) % 2 ^ 32)) s1
      s2.hostDrain s2.host.backlog.length
    else s

/-- The messages of an accepted unit: those that the host may not send are answered ERR_BOUND (R431), the others wait. -/
def State.hostTake (s : State) (ms : List HMsg) : State :=
  ms.foldl (fun (x : State) (m : HMsg) =>
    if m.allowed then { x with host := { x.host with inbox := x.host.inbox ++ [m] } }
    else x.hostRespond m.op m.tag errBound []) s

/-- A second session is refused (R30, R429). -/
def State.hostRefuse (s : State) (mac : BitVec 48) : State := s.hostEvent 0x101 [mac.toNat % 2 ^ 32, mac.toNat / 2 ^ 32]

/-- A unit out of order or of another session (R427, R428). -/
def State.hostSeqDrop (s : State) : State := s.bump Reg.HOST_SEQ_DROP_CNT_COUNT 0 0 1

/-- A SYN unit (R429): refused while a session is open or about to be; else its messages wait for OPEN, from READY on or while
start-up waits after a configuration conflict (R445, R455). -/
def State.synUnit (s : State) (u net : List Byte) (mac : BitVec 48) (len : Nat) : State :=
  let ms := messagesOf ((u.drop 16).take len) (len / 8)
  if s.hostOpen || !s.host.inbox.isEmpty then s.hostRefuse mac
  else if leNat ((u.drop 12).take 4) ≠ 0 ∨ leNat ((u.drop 4).take 4) ≠ 0 then s.hostSeqDrop
  else if (ms.head?.map (fun m => m.op)) = some 0x01 ∧ (s.phase = 9 ∨ s.mgmt.waiting) then
    { s with host := { s.host with peer := mac, net := net, inbox := ms, rxNext := 1 } }
  else s

/-- A numbered unit of the session (R428). -/
def State.seqUnit (s : State) (u : List Byte) (len : Nat) : State :=
  if leNat ((u.drop 4).take 4) = s.host.rxNext then
    let s1 := { s with host := { s.host with rxNext := (s.host.rxNext + 1) % 2 ^ 32, owesAck := true } }
    (s1.hostAcked (leNat ((u.drop 8).take 4))).hostTake (messagesOf ((u.drop 16).take len) (len / 8))
  else s.hostSeqDrop.hostAckOnly

/-- A unit (R426..R429). -/
def State.unitRx (s : State) (u net : List Byte) (mac : BitVec 48) : State :=
  let len := leNat ((u.drop 2).take 2)
  let b0 := beAt u 0 1
  if u.length < 20 + len ∨ b0 % 16 ≠ 1 ∨ leNat ((u.drop (16 + len)).take 4) ≠ crc32c (u.take (16 + len)) then
    s.bump Reg.HOST_CRC_ERR_CNT_COUNT 0 0 1
  else if b0.testBit 4 then s.synUnit u net mac len
  else if !s.hostOpen || decide (leNat ((u.drop 12).take 4) ≠ s.host.session) then s.hostSeqDrop
  else if b0.testBit 5 then s.hostAcked (leNat ((u.drop 8).take 4))
  else s.seqUnit u len

/-- Whether the port receives: its link is up (R443). -/
def State.hostLink (s : State) : Bool := s.on Reg.HOST_STAT_LINK 0 0 && !s.held

/-- A frame that R442 discards: one that does not verify while keys are installed. -/
def State.macDrop (s : State) (protOk : Bool) : Bool := s.host.keys.isSome && !protOk

/-- HOST_UNIT_RECEIVE (R423..R428, R442). `frame` is the frame from its EtherType on, without the FCS; `protOk` tells whether it
came protected and verifies, and is of no account without keys. -/
def execHostUnitReceive (frame : List Byte) (srcMac : BitVec 48) (protOk : Bool) (s : State) : Res :=
  let (f, tag) := untag frame
  .next (if !s.hostLink then s
    else if s.macDrop protOk then s.bump Reg.HOST_MACSEC_DROP_CNT_COUNT 0 0 1
    else if (if s.on Reg.HOST_CTRL_JUMBO 0 0 then 9022 else 1518) + tag < 16 + frame.length then s
    else if !s.on Reg.HOST_CTRL_EN 0 0 then s
    else match s.unitIn f with
      | none => s.bump Reg.HOST_DROP_CNT_COUNT 0 0 1
      | some (u, net) => s.unitRx u net srcMac)

/-- ACK_TIMER (R428). -/
def execAckTimer (s : State) : Res := .next (if s.hostOpen && s.host.owesAck then s.hostAckOnly else s)

/-- RETRANSMIT (R428). -/
def execRetransmit (s : State) : Res :=
  .next (if s.hostOpen && !s.host.unacked.isEmpty then
      s.host.unacked.foldl State.hostEmit (s.bump Reg.HOST_RETX_CNT_COUNT 0 0 1)
    else s)

/-- PAUSE_FRAME (R424): discarded. -/
def execPauseFrame (s : State) : Res := .next s

/-- An ARP request or a neighbour solicitation (R425): answered when it asks for the station's address. -/
def State.askNeighbour (s : State) (mac : BitVec 48) (v6 mine protOk : Bool) : State :=
  if !s.hostLink then s
  else if s.macDrop protOk then s.bump Reg.HOST_MACSEC_DROP_CNT_COUNT 0 0 1
  else if mine then s.macSend (fun vid sec => .neighbour mac v6 vid sec)
  else s.bump Reg.HOST_DROP_CNT_COUNT 0 0 1

/-- ARP_REQUEST (R425). -/
def execArpRequest (mac : BitVec 48) (target : Word) (protOk : Bool) (s : State) : Res :=
  .next (s.askNeighbour mac false (decide (target.toNat = s.rd Reg.HOST_IPV4_ADDR 0 0)) protOk)

/-- NEIGHBOUR_SOLICITATION (R425). -/
def execNeighbourSolicitation (mac : BitVec 48) (target : BitVec 128) (protOk : Bool) (s : State) : Res :=
  .next (s.askNeighbour mac true (decide (target.toNat = s.hostIpv6)) protOk)

/-! ## The session (R429) -/

/-- The message next to start, if it has the operation (R432). -/
def State.nextMsg (s : State) (op : Nat) : Option HMsg :=
  match s.host.inbox with
  | [] => none
  | m :: _ => if m.op = op then some m else none

/-- The message next to start leaves the queue. -/
def State.dropMsg (s : State) : State := { s with host := { s.host with inbox := s.host.inbox.drop 1 } }

/-- OPEN (R429): the messages that came with it are then judged as any other's. While a session is open it is refused. -/
def execOpenSession (s : State) : Res :=
  .next (match s.nextMsg 0x01 with
    | none => s
    | some m =>
      if s.hostOpen then s.dropMsg.hostRefuse s.host.peer
      else
        let rest := s.host.inbox.drop 1
        let n := if (s.host.session + 1) % 2 ^ 32 = 0 then 1 else (s.host.session + 1) % 2 ^ 32
        let old := s.host
        let h := { HostPort.reset with
          session := n, peer := old.peer, net := old.net, rxNext := 1, owesAck := true, camEvents := old.camEvents }
        let s1 := (({ s with host := h } : State).put Reg.HOST_STAT_SESSION 0 0 1).put Reg.HOST_STAT_SESSNUM 0 0 (n % 2 ^ 16)
        (s1.hostRespond 0x01 m.tag codeOk (leBytes 4 n ++ leBytes 8 (s1.csrGet Reg.HOST_MAC_ADDR 0 0).toNat
          ++ leBytes 8 (s1.csrGet Reg.GLOBAL_PART_ID 0 0).toNat)).hostTake rest)

/-- Whether a message started earlier awaits its answer (R432). -/
def State.hostBusy (s : State) : Bool :=
  decide (0 < s.host.camOut) || s.sec.signQ.any (fun r => r.session == s.host.session)

/-- CLOSE (R429, R432): after every earlier message has been answered. -/
def execCloseSession (s : State) : Res :=
  .next (match if s.hostOpen then s.nextMsg 0x02 else none with
    | none => s
    | some m => if s.hostBusy then s else (s.dropMsg.hostRespond 0x02 m.tag codeOk []).endSession 1)

/-- SESSION_IDLE_TIMEOUT (R429). -/
def execSessionIdleTimeout (s : State) : Res := .next (s.endSession 2)

/-- HOST_LINK_DOWN (R429): the link has been down for 100 ms. -/
def execHostLinkDown (s : State) : Res :=
  .next (if s.held then s else (s.put Reg.HOST_STAT_LINK 0 0 0).endSession 3)

/-- HOST_KILL (R429). -/
def execHostKill (s : State) : Res := .next (s.endSession 4)

/-- HOST_PHY_LINK_UP (R423, R443): the role is resolved by auto-negotiation, or taken from ROLE. -/
def execHostPhyLinkUp (leader : Bool) (s : State) : Res :=
  .next (if s.held || s.mgmt.supplyFailed || (decide (s.phase < 8) && !s.mgmt.waiting) then s
    else
      let role := if s.on Reg.HOST_PHY_AN 0 0 then leader else s.on Reg.HOST_PHY_ROLE 0 0
      (s.put Reg.HOST_STAT_LINK 0 0 1).put Reg.HOST_STAT_LEADER 0 0 (bit01 role))

/-! ## Messages in parts (R431) -/

/-- The further parts of the message that opens a sequence, and what follows: those of its OP and TAG up to DLEN 0, which must be at
hand. -/
def moreParts (op tag : Nat) : List HMsg → Option (List Byte × Nat)
  | [] => none
  | m :: ms =>
    if m.op ≠ op ∨ m.tag ≠ tag then some ([], 0)
    else if m.dlen = 0 then some ([], 1)
    else (moreParts op tag ms).map (fun r => (m.data ++ r.1, r.2 + 1))

/-- The next message with all its parts, and the state without them (R431, R432). A part of 1,024 B with no further one at hand is
the whole (log 25). -/
def State.nextParts (s : State) (op : Nat) : Option (HMsg × State) :=
  match if s.hostOpen then s.nextMsg op else none with
  | none => none
  | some m =>
    let rest := s.host.inbox.drop 1
    if m.dlen < 1024 ∨ ¬ rest.head?.any (fun n => n.op == op && n.tag == m.tag) then some (m, s.dropMsg)
    else
      (moreParts op m.tag rest).map (fun r =>
        ({ m with data := m.data ++ r.1 }, { s with host := { s.host with inbox := rest.drop r.2 } }))

/-- A field of the words of a message. -/
def HMsg.field (m : HMsg) (pos n : Nat) : Nat := leNat ((m.words.drop pos).take n)

/-! ## READ and WRITE (R433) -/

/-- Whether an address lies in CSR space. -/
def inCsr (a : Nat) : Bool := decide (0x60_0000_0000 ≤ a) && decide (a < 0x60_1000_0000)

/-- The lines of a range. -/
def lineAddrs (a n : Nat) : List Nat := (List.range (n / 64)).map (fun i => a + 64 * i)

/-- The code of an access that R433 refuses; 0 for one that is performed. -/
def State.hostReach (s : State) (a n : Nat) : Nat :=
  if inCsr a then
    if a % 4 ≠ 0 ∨ n % 4 ≠ 0 then errAlign
    else if n = 0 ∨ 256 < n ∨ 0x60_1000_0000 < a + n then errBound
    else 0
  else if a % 64 ≠ 0 ∨ n % 64 ≠ 0 then errAlign
  else
    let ls := lineAddrs a n
    let shut (l : Nat) : Bool := match placeOf l with
      | .gran c _ => s.underTest c
      | .dram d => s.dramLost d
      | _ => false
    if !(ls.all (fun l => s.rangeOk l 64)) then errBound
    else if ls.any shut then errDisabled
    else 0

/-- Whether a line waits at a Granary that answers no external request yet (R196, R203). -/
def State.hostWaits (s : State) (a n : Nat) : Bool :=
  !inCsr a && (lineAddrs a n).any (fun l =>
    s.granHeld { addr := l, len := 64, data := [], stage := .atGate, age := 0, tries := 0 })

/-- The host port's reads of lines in ascending order (R193, R370, R433): the clean ones' bytes, and the code of the first that is
not. -/
def State.hostLines (s : State) : List Nat → List Byte × Nat × State
  | [] => ([], codeOk, s)
  | a :: rest =>
    let (code, s1) := s.localRead 8 a 64
    let (bs, later, s2) := s1.hostLines rest
    ((if code = codeOk then s1.localBytes a 64 else []) ++ bs, if code ≠ codeOk then code else later, s2)

/-- Reads of `n` CSR words in ascending order (R433). -/
def State.readWords (s : State) (off : Nat) : Nat → List Byte × State
  | 0 => ([], s)
  | n + 1 =>
    let (v, s1) := s.csrRead .host off
    let (bs, s2) := s1.readWords (off + 4) n
    (leBytes 4 v.toNat ++ bs, s2)

/-- READ (R433): a line of memory by its grant at a Tollgate (R380). -/
def execHostRead (s : State) : Res :=
  .next (match if s.hostOpen then s.nextMsg 0x03 else none with
    | none => s
    | some m =>
      let a := m.field 0 8
      let n := m.field 8 4
      let code := s.hostReach a n
      if code ≠ 0 then s.dropMsg.hostRespond 0x03 m.tag code []
      else if s.hostWaits a n then s
      else if inCsr a then
        let (bs, s1) := s.dropMsg.readWords (a - 0x60_0000_0000) (n / 4)
        s1.hostRespond 0x03 m.tag codeOk bs
      else match s.useGrants 8 (s.transfers false a n) with
        | none => s
        | some s0 =>
          let (bs, code, s1) := s0.dropMsg.hostLines (lineAddrs a n)
          s1.hostRespond 0x03 m.tag code bs)

/-- Whether an offset holds a LOCK_OP register (R539). -/
def isLockOp (off : Nat) : Bool := match csrFind off with
  | some r => r.is Reg.LOCK_OP
  | none => false

/-- Writes of CSR words in ascending order (R433), up to a LOCK_OP word, where the write stops (R539); whether all were written. -/
def State.writeWords (s : State) (off : Nat) (bs : List Byte) : Nat → Bool × State
  | 0 => (true, s)
  | n + 1 =>
    let s1 := s.csrWrite .host off (BitVec.ofNat 32 (leNat (bs.take 4)))
    if isLockOp off then (false, s1) else s1.writeWords (off + 4) (bs.drop 4) n

/-- WRITE (R433, R539): a line of memory by its grant at a Tollgate (R380). -/
def execHostWrite (s : State) : Res :=
  .next (match s.nextParts 0x04 with
    | none => s
    | some (m, s1) =>
      let a := m.field 0 8
      let n := m.data.length
      let code := s.hostReach a n
      if code ≠ 0 then s1.hostRespond 0x04 m.tag code []
      else if s.hostWaits a n then s
      else if inCsr a then
        let (ok, s2) := s1.writeWords (a - 0x60_0000_0000) m.data (n / 4)
        s2.hostRespond 0x04 m.tag (if ok then codeOk else errBound) []
      else match s1.useGrants 8 (s.transfers true a n) with
        | none => s
        | some s2 =>
          let (code, s3) := (lineAddrs a n).foldl (fun (x : Nat × State) (l : Nat) =>
            let (code, y) := x.2.linesPut 8 l ((m.data.drop (l - a)).take 64)
            (if x.1 ≠ codeOk then x.1 else code, y)) (codeOk, s2)
          s3.hostRespond 0x04 m.tag code [])

/-! ## The other messages -/

/-- DOORBELL (R432, R434): of a core's ring or a host ring. -/
def execDoorbell (s : State) : Res :=
  .next (match if s.hostOpen then s.nextMsg 0x05 else none with
    | none => s
    | some m =>
      let s1 := s.dropMsg
      let v := m.field 4 4
      match ringId (m.field 0 4 % 2 ^ 14) with
      | .fab _ => s1.hostRespond 0x05 m.tag errBound []
      | r =>
        let (ok, s2) := s1.tailWrite r v
        s2.hostRespond 0x05 m.tag (if ok then codeOk else errBound) [])

/-- LOCK (R386, R431): as owner KIND 3. A number beyond the locks is answered ERR_BOUND (log 25). -/
def execHostLock (s : State) : Res :=
  .next (match if s.hostOpen then s.nextMsg 0x06 else none with
    | none => s
    | some m =>
      let l := m.field 0 2
      if 1024 ≤ l then s.dropMsg.hostRespond 0x06 m.tag errBound []
      else
        let s1 := s.dropMsg
        ({ s1 with host := { s1.host with lockTag := some m.tag } } : State).lockOp .host (m.field 2 1) l)

/-- Whether a camera takes control commands now (R291). -/
def State.camTakes (s : State) (c : CamId) : Bool :=
  let st := s.camState c
  !(st == camOff || st == camInvalid || st == camDown) && ((s.cam c).cmdOut.isNone || decide ((s.cam c).cmdQ.length < 8))

/-- CAM_CMD (R291, R431): how many bytes a read asks for is a free value, since the message has no field for it (log 2, 25). -/
def execCamCmd (s : State) : Res :=
  .next (match s.nextParts 0x07 with
    | none => s
    | some (m, s1) =>
      if h : m.field 0 1 < 16 then
        let c : CamId := ⟨m.field 0 1, h⟩
        let write := m.field 1 1 = 0
        if s1.camTakes c then
          let (len, s2) := s1.draw 11
          let k : CamCmd := { msg := s1.host.session * 2 ^ 32 + m.tag, write := write, addr := BitVec.ofNat 64 (m.field 4 4),
                              data := if write then m.data else [], len := if write then m.data.length else len.toNat }
          ({ s2 with host := { s2.host with camOut := s2.host.camOut + 1 } } : State).camSend c k
        else s1.hostRespond 0x07 m.tag errBound []
      else s1.hostRespond 0x07 m.tag errBound [])

/-- The bits of the fuse banks but SECRET, each packed from bit 0 upward, in the order of R469. -/
def Fuses.bankBytes (f : Fuses) (deviceId : Nat) : List Byte :=
  leBytes 64 f.fwPk.toNat ++ leBytes 8 (2 ^ f.svn - 1) ++ leBytes 1 f.lcBits ++ leBytes 64 f.devPk.toNat
    ++ leBytes 32 f.keyCheck.toNat ++ leBytes 512 (2 ^ f.seg - 1) ++ leBytes 8 deviceId ++ leBytes 32 f.fcalDig.toNat
    ++ leBytes 8 f.retire.toNat ++ leBytes 7424 (f.repair.foldr (fun (e : Nat × Nat × Nat × Nat) x =>
        x * 2 ^ 29 + (e.1 + 8 * e.2.1 + 2 ^ 8 * e.2.2.1 + 2 ^ 23 * e.2.2.2)) 0)

/-- Bytes 0..279 of an attestation report, LEAF left 0 until the signature (R487). -/
def State.report (s : State) (user : BitVec 256) : List Byte :=
  let f := s.sec.fuses
  let cells := (f.lc.get 0).toNat + 2 ^ 5 * (f.lc.get 1).toNat + 2 ^ 10 * (f.lc.get 2).toNat
  let flags := s.rd Reg.MGMT_CAL_STAT_FACTORY_BAD 0 0 + 2 * s.rd Reg.MGMT_CAL_STAT_USER_NONE 0 0
    + 4 * s.rd Reg.MGMT_CAL_STAT_USER_CONFLICT 0 0 + 8 * bit01 (decide (s.rd Reg.MGMT_BOOT_STAT_CFG_COPY 0 0 = 3))
    + 16 * s.rd Reg.MGMT_BOOT_STAT_IMAGE 0 0 + 32 * s.rd Reg.MGMT_BOOT_STAT_CONFIRMED 0 0
  leBytes 4 0x41545354 ++ leBytes 2 1 ++ leBytes 1 s.lcState ++ leBytes 1 flags
    ++ leBytes 8 (s.csrGet Reg.FAB_DEVICE_ID 0 0).toNat ++ leBytes 4 (s.csrGet Reg.GLOBAL_PART_ID 0 0).toNat
    ++ leBytes 4 s.mgmt.imgSeq ++ leBytes 4 s.mgmt.imgSvn ++ leBytes 4 f.svn
    ++ leBytes 4 (s.csrGet Reg.GLOBAL_UNITS 0 0).toNat ++ leBytes 4 0 ++ leBytes 8 0
    ++ digestBytes f.pkDigest ++ digestBytes s.mgmt.imgDigest ++ digestBytes s.mgmt.cfgDigest
    ++ digestBytes (Config.shake256 (digestBytes s.mgmt.fcalDigest ++ digestBytes s.mgmt.ucalDigest))
    ++ digestBytes (Config.shake256 (leBytes 1 s.lcState ++ leBytes 2 cells))
    ++ digestBytes (Config.shake256 (f.bankBytes (s.csrGet Reg.FAB_DEVICE_ID 0 0).toNat))
    ++ digestBytes user ++ leBytes 4 9893 ++ leBytes 4 0

/-- ATTEST (R441, R486..R488): the key pair is drawn and the signature asked for, or the answer is ERR_DISABLED. -/
def execAttest (s : State) : Res :=
  .next (match if s.hostOpen then s.nextMsg 0x08 else none with
    | none => s
    | some m =>
      let s1 := s.dropMsg
      if s1.signDisabled then s1.hostRespond 0x08 m.tag errDisabled []
      else
        let (d, s2) := s1.draw 512
        let ek := Config.mlkemEncapKey d
        let r : SignReq := { tag := m.tag, session := s2.host.session,
                             report := s2.report (Config.shake256 (m.words ++ ek)), tail := ek }
        { s2 with host := { s2.host with kem := some d }, sec := { s2.sec with signQ := s2.sec.signQ ++ [r] } })

/-- The SAK and salt of a direction (R441). -/
def sessionKey (k : BitVec 256) (session dir : Nat) : BitVec 352 :=
  Config.shake352 (digestBytes k ++ leBytes 4 session ++ leBytes 1 dir)

/-- The keys of a shared secret take effect (R440, R441). -/
def State.installKeys (s : State) (k : BitVec 256) : State :=
  let an := ((s.host.keys.map (fun k => k.an)).getD 0 + 1) % 4
  let ks : MacKeys := { rx := sessionKey k s.host.session 1, tx := sessionKey k s.host.session 2, an := an }
  ({ s with host := { s.host with keys := some ks, pn := 1, rekeyTold := false } } : State).put Reg.HOST_STAT_SECURE 0 0 1

/-- KEY (R440..R442): its answer is the last unit sent under what was in force, so it waits for room to send it. With MACsec off the
keys take no effect. Of a ciphertext without a key pair, or of another length, the answer's STATUS is a free value (log 2, 25). -/
def execKey (s : State) : Res :=
  .next (match s.nextParts 0x09 with
    | none => s
    | some (m, s1) =>
      if 64 ≤ s.host.unacked.length then s
      else match s1.host.kem with
        | some d =>
          if m.data.length = 1568 then
            let s2 := s1.hostRespond 0x09 m.tag codeOk []
            if s2.on Reg.HOST_MACSEC_EN 0 0 then s2.installKeys (Config.mlkemDecaps d m.data) else s2
          else
            let (c, s2) := s1.draw 8
            s2.hostRespond 0x09 m.tag c.toNat []
        | none =>
          let (c, s2) := s1.draw 8
          s2.hostRespond 0x09 m.tag c.toNat [])

/-! ## What the part sends of itself (R431, R436) -/

/-- The host ring whose turn is next among those with entries to send (R436). -/
def State.nextRing (s : State) : Option Nat :=
  let ready := numsWhere 2048 (fun h => s.on Reg.HOST_RING_CFG_EN 0 h
    && s.rd Reg.HOST_RING_HEAD_HEAD 0 h != s.rd Reg.HOST_RING_TAIL_TAIL 0 h)
  (ready.find? (fun h => decide (s.host.turn ≤ h))).orElse (fun _ => ready.head?)

/-- The entries of a ring from an index on; what a slot that cannot be read sends is a free value (log 2, 25). -/
def State.ringEntries (s : State) (h i : Nat) : Nat → List Byte × State
  | 0 => ([], s)
  | n + 1 =>
    let (e, s1) := s.entryRead 8 (s.slotOf (.host h) i)
    let (bs, s2) := s1.ringEntries h ((i + 1) % 2 ^ 32) n
    (lineBytes e ++ bs, s2)

/-- RING_DATA (R436): one message of the ring whose turn it is, once a unit may be sent and the slots' grants are there (R380). -/
def execRingData (s : State) : Res :=
  .next (match if s.hostOpen && decide (s.host.unacked.length < 64) then s.nextRing else none with
    | none => s
    | some h =>
      let i := s.rd Reg.HOST_RING_HEAD_HEAD 0 h
      let n := min (idxSub (s.rd Reg.HOST_RING_TAIL_TAIL 0 h) i) (s.rd Reg.HOST_CTRL_RMAX 0 0 + 1)
      match s.useGrants 8 ((List.range n).flatMap (fun j => s.transfers false (s.slotOf (.host h) (i + j)) 64)) with
      | none => s
      | some s0 =>
      let (bs, s1) := s0.ringEntries h i n
      let s2 := s1.put Reg.HOST_RING_HEAD_HEAD 0 h ((i + n) % 2 ^ 32)
      ({ s2 with host := { s2.host with turn := h + 1 } } : State).hostSend
        (msgOf 0x40 0 (64 * n) 0 (leBytes 4 (14336 + h) ++ leBytes 4 i ++ bs)) [(h, n)])

/-- CAM_EVENT (R290, R431): the oldest event packet, in parts where it is long. -/
def execCamEvent (s : State) : Res :=
  .next (match if s.hostOpen then s.host.camEvents else [] with
    | [] => s
    | (c, d) :: rest =>
      let parts := if d.length ≤ 1024 then [d] else partsOf d (d.length / 1024 + 1) ++ [[]]
      parts.foldl (fun (x : State) (p : List Byte) => x.hostSend (msgOf 0x41 0 p.length 0 (leBytes 8 c ++ p)) [])
        { s with host := { s.host with camEvents := rest } })

end Sys2Proof.Machine
end

