-- ==== Sys2Proof/Machine/Scalar.lean ====
section
/-! DEFINITION. Scalar arithmetic (03 R115..R118, 02 R60..R63, 05 R169..R171): the SX slot. -/

namespace Sys2Proof.Machine

/-- The flags of a result, written at W with it (R60, R65). -/
def arithFx (u : ArUnit) (r : IRes) : List Fx :=
  if r.ov || r.dz || r.sat then [.arith u r.ov r.dz (bit01 r.sat) 0] else []

/-- An SX operation that writes one scalar register (R115). -/
def sxOp (reads : List RName) (sd : SReg) (long : Nat) (r : IRes) : Op :=
  { slot := .sx, reads := reads, writes := [.s sd], long := long,
    out := .ok (.s sd (BitVec.ofNat 32 r.code) :: arithFx .seq r) }

/-- A scalar operation of a register and a last source (R169). -/
def sx2 (h : Hd) (sd sa : SReg) (b : Src) (long : Nat) (f : Nat → Nat → IRes) (s : State) : Res :=
  .next (s.issue h (fun s c t =>
    let k := s.task c t
    sxOp (.s sa :: srcReads b) sd long (f (k.s.get sa).toNat (srcVal k b).toNat)))

/-- A scalar operation of one register. -/
def sx1 (h : Hd) (sd sa : SReg) (long : Nat) (f : Nat → IRes) (s : State) : Res :=
  .next (s.issue h (fun s c t => sxOp [.s sa] sd long (f ((s.task c t).s.get sa).toNat)))

/-- A truth value as a result (R115). -/
def boolRes (b : Bool) : IRes := IRes.plain (bit01 b)

/-- The floor of the square root of a 32-bit value, bit by bit. -/
def isqrt32 (x : Nat) : Nat :=
  (List.range 16).foldl (fun r i => if (r + 2 ^ (15 - i)) ^ 2 ≤ x then r + 2 ^ (15 - i) else r) 0

/-- Leading bits after bit 31 that equal it (R117). -/
def cls32 (x : Nat) : Nat := (if x / 2 ^ 31 = 1 then clz32 (2 ^ 32 - 1 - x) else clz32 x) - 1

/-- The reversal of the field [lsb + w − 1 : lsb] (R117). -/
def brevRes (x lsb w : Nat) : Nat := setBits x lsb w (revBits w (bitsOf x lsb w))

/-- A CRC operation over some bytes of the data (R116). -/
def crcOp (h : Hd) (sd sa sb : SReg) (w : CrcW) (ref : Bool) (n : Nat) (s : State) : Res :=
  .next (s.issue h (fun s c t =>
    let k := s.task c t
    let bytes := (List.range n).map (fun i => bitsOf (k.s.get sa).toNat (8 * i) 8)
    sxOp [.s sd, .s sa, .s sb] sd 1
      (IRes.plain (crcBytes (crcWidth w) ref (k.s.get sb).toNat (k.s.get sd).toNat bytes))))

/-- A running extreme with its index (R118). -/
def runningOp (h : Hd) (sd sa sb : SReg) (better : Word → Word → Bool) (s : State) : Res :=
  .next (s.issue h (fun s c t =>
    let k := s.task c t
    let take := better (k.s.get sa) (k.s.get sd)
    { slot := .sx, illegal := !isEven sd, reads := [.s sd, .s (nextReg sd), .s sa, .s sb],
      writes := [.s sd, .s (nextReg sd)],
      out := .ok [.s sd (if take then k.s.get sa else k.s.get sd),
                  .s (nextReg sd) (if take then k.s.get sb else k.s.get (nextReg sd))] }))

/-- ADD (R60, R115). -/
def execAdd (h : Hd) (sd sa : SReg) (b : Src) (s : State) : Res :=
  sx2 h sd sa b 1 (fun a b => wrapRes true 32 (sgn 32 a + sgn 32 b)) s

/-- SUB (R60, R115). -/
def execSub (h : Hd) (sd sa : SReg) (b : Src) (s : State) : Res :=
  sx2 h sd sa b 1 (fun a b => wrapRes true 32 (sgn 32 a - sgn 32 b)) s

/-- ADDS (R60, R115). -/
def execAdds (h : Hd) (sd sa : SReg) (b : Src) (s : State) : Res :=
  sx2 h sd sa b 1 (fun a b => satRes true 32 (sgn 32 a + sgn 32 b)) s

/-- SUBS (R60, R115). -/
def execSubs (h : Hd) (sd sa : SReg) (b : Src) (s : State) : Res :=
  sx2 h sd sa b 1 (fun a b => satRes true 32 (sgn 32 a - sgn 32 b)) s

/-- ADDUS (R60, R115). -/
def execAddus (h : Hd) (sd sa : SReg) (b : Src) (s : State) : Res :=
  sx2 h sd sa b 1 (fun a b => satRes false 32 ((a : Int) + b)) s

/-- SUBUS (R60, R115). -/
def execSubus (h : Hd) (sd sa : SReg) (b : Src) (s : State) : Res :=
  sx2 h sd sa b 1 (fun a b => satRes false 32 ((a : Int) - b)) s

/-- AND (R115). -/
def execAndd (h : Hd) (sd sa : SReg) (b : Src) (s : State) : Res :=
  sx2 h sd sa b 1 (fun a b => IRes.plain (a &&& b)) s

/-- OR (R115). -/
def execOrr (h : Hd) (sd sa : SReg) (b : Src) (s : State) : Res :=
  sx2 h sd sa b 1 (fun a b => IRes.plain (a ||| b)) s

/-- XOR (R115). -/
def execXorr (h : Hd) (sd sa : SReg) (b : Src) (s : State) : Res :=
  sx2 h sd sa b 1 (fun a b => IRes.plain (a ^^^ b)) s

/-- ANDN (R115). -/
def execAndn (h : Hd) (sd sa : SReg) (b : Src) (s : State) : Res :=
  sx2 h sd sa b 1 (fun a b => IRes.plain (a &&& (2 ^ 32 - 1 - b))) s

/-- SLL (R62). -/
def execSll (h : Hd) (sd sa : SReg) (b : Src) (s : State) : Res :=
  sx2 h sd sa b 1 (fun a b => sllRes 32 a b) s

/-- SRL (R62). -/
def execSrl (h : Hd) (sd sa : SReg) (b : Src) (s : State) : Res :=
  sx2 h sd sa b 1 (fun a b => srlRes 32 a b) s

/-- SRA (R62). -/
def execSra (h : Hd) (sd sa : SReg) (b : Src) (s : State) : Res :=
  sx2 h sd sa b 1 (fun a b => sraRes 32 a b) s

/-- SSL (R62). -/
def execSsl (h : Hd) (sd sa : SReg) (b : Src) (s : State) : Res :=
  sx2 h sd sa b 1 (fun a b => sslRes false 32 a b) s

/-- SSLS (R62). -/
def execSsls (h : Hd) (sd sa : SReg) (b : Src) (s : State) : Res :=
  sx2 h sd sa b 1 (fun a b => sslRes true 32 a b) s

/-- SSR (R62). -/
def execSsr (h : Hd) (sd sa : SReg) (b : Src) (s : State) : Res :=
  sx2 h sd sa b 1 (fun a b => ssrRes 32 a b) s

/-- MIN (R115). -/
def execMinn (h : Hd) (sd sa : SReg) (b : Src) (s : State) : Res :=
  sx2 h sd sa b 1 (fun a b => IRes.plain (if sgn 32 b < sgn 32 a then b else a)) s

/-- MAX (R115). -/
def execMaxx (h : Hd) (sd sa : SReg) (b : Src) (s : State) : Res :=
  sx2 h sd sa b 1 (fun a b => IRes.plain (if sgn 32 a < sgn 32 b then b else a)) s

/-- MINU (R115). -/
def execMinu (h : Hd) (sd sa : SReg) (b : Src) (s : State) : Res :=
  sx2 h sd sa b 1 (fun a b => IRes.plain (min a b)) s

/-- MAXU (R115). -/
def execMaxu (h : Hd) (sd sa : SReg) (b : Src) (s : State) : Res :=
  sx2 h sd sa b 1 (fun a b => IRes.plain (max a b)) s

/-- SLT (R115). -/
def execSlt (h : Hd) (sd sa : SReg) (b : Src) (s : State) : Res :=
  sx2 h sd sa b 1 (fun a b => boolRes (decide (sgn 32 a < sgn 32 b))) s

/-- SLTU (R115). -/
def execSltu (h : Hd) (sd sa : SReg) (b : Src) (s : State) : Res :=
  sx2 h sd sa b 1 (fun a b => boolRes (decide (a < b))) s

/-- SEQ (R115). -/
def execSeqq (h : Hd) (sd sa : SReg) (b : Src) (s : State) : Res :=
  sx2 h sd sa b 1 (fun a b => boolRes (decide (a = b))) s

/-- MUL (R60, R115). -/
def execMul (h : Hd) (sd sa : SReg) (b : Src) (s : State) : Res :=
  sx2 h sd sa b 1 (fun a b => wrapRes true 32 (sgn 32 a * sgn 32 b)) s

/-- MULS (R60, R115). -/
def execMuls (h : Hd) (sd sa : SReg) (b : Src) (s : State) : Res :=
  sx2 h sd sa b 1 (fun a b => satRes true 32 (sgn 32 a * sgn 32 b)) s

/-- MULH (R115). -/
def execMulh (h : Hd) (sd sa : SReg) (b : Src) (s : State) : Res :=
  sx2 h sd sa b 1 (fun a b => IRes.plain (lowBits 32 ((sgn 32 a * sgn 32 b) / 2 ^ 32))) s

/-- MULHU (R115). -/
def execMulhu (h : Hd) (sd sa : SReg) (b : Src) (s : State) : Res :=
  sx2 h sd sa b 1 (fun a b => IRes.plain (a * b / 2 ^ 32)) s

/-- DIV (R60, R61, R97). -/
def execDiv (h : Hd) (sd sa : SReg) (b : Src) (s : State) : Res :=
  sx2 h sd sa b 36 (fun a b => divRes true false 32 a b) s

/-- DIVS (R60, R61, R97). -/
def execDivs (h : Hd) (sd sa : SReg) (b : Src) (s : State) : Res :=
  sx2 h sd sa b 36 (fun a b => divRes true true 32 a b) s

/-- DIVU (R60, R61, R97). -/
def execDivu (h : Hd) (sd sa : SReg) (b : Src) (s : State) : Res :=
  sx2 h sd sa b 36 (fun a b => divRes false false 32 a b) s

/-- REM (R60, R61, R97). -/
def execRem (h : Hd) (sd sa : SReg) (b : Src) (s : State) : Res :=
  sx2 h sd sa b 36 (fun a b => remRes true 32 a b) s

/-- REMU (R60, R61, R97). -/
def execRemu (h : Hd) (sd sa : SReg) (b : Src) (s : State) : Res :=
  sx2 h sd sa b 36 (fun a b => remRes false 32 a b) s

/-- ABS (R60). -/
def execAbsv (h : Hd) (sd sa : SReg) (s : State) : Res :=
  sx1 h sd sa 1 (fun a => absRes false true 32 a) s

/-- ABSS (R60). -/
def execAbss (h : Hd) (sd sa : SReg) (s : State) : Res :=
  sx1 h sd sa 1 (fun a => absRes true true 32 a) s

/-- NEG (R60). -/
def execNegv (h : Hd) (sd sa : SReg) (s : State) : Res :=
  sx1 h sd sa 1 (fun a => negRes false 32 a) s

/-- NEGS (R60). -/
def execNegs (h : Hd) (sd sa : SReg) (s : State) : Res :=
  sx1 h sd sa 1 (fun a => negRes true 32 a) s

/-- ISQRT (R97, R115). -/
def execIsqrt (h : Hd) (sd sa : SReg) (s : State) : Res :=
  sx1 h sd sa 20 (fun a => IRes.plain (isqrt32 a)) s

/-- CLZ (R117). -/
def execClz (h : Hd) (sd sa : SReg) (s : State) : Res :=
  sx1 h sd sa 1 (fun a => IRes.plain (clz32 a)) s

/-- CLS (R117). -/
def execCls (h : Hd) (sd sa : SReg) (s : State) : Res :=
  sx1 h sd sa 1 (fun a => IRes.plain (cls32 a)) s

/-- POPC (R117). -/
def execPopc (h : Hd) (sd sa : SReg) (s : State) : Res :=
  sx1 h sd sa 1 (fun a => IRes.plain (popcount 32 a)) s

/-- PAR (R117). -/
def execPar (h : Hd) (sd sa : SReg) (s : State) : Res :=
  sx1 h sd sa 1 (fun a => IRes.plain (popcount 32 a % 2)) s

/-- RSHR: the rounding right shift of the signed value (R58, R115). -/
def execRshr (h : Hd) (sd sa : SReg) (n : Fin 64) (rm : RMode) (s : State) : Res :=
  sx1 h sd sa 1 (fun a => IRes.plain (lowBits 32 (rshrI (sgn 32 a) n rm))) s

/-- SEL: sa where sc is not 0, else sb (R115). -/
def execSel (h : Hd) (sd sa sb sc : SReg) (s : State) : Res :=
  .next (s.issue h (fun s c t =>
    let k := s.task c t
    sxOp [.s sa, .s sb, .s sc] sd 1
      (IRes.plain (if k.s.get sc ≠ 0 then (k.s.get sa).toNat else (k.s.get sb).toNat))))

/-- MOV between banked registers; reserved numbers are ILLEGAL (R79, R170). -/
def execMov (h : Hd) (d src : BitVec 7) (s : State) : Res :=
  .next (s.issue h (fun s c t =>
    let k := s.task c t
    match movReg d, movReg src with
    | some rd, some rs =>
      { slot := .sx, reads := [rs], writes := [rd], out := .ok (bankedFx k rd (bankedVal k rs)) }
    | _, _ => { slot := .sx, illegal := true, out := .ok [] }))

/-- MOVI: the sign-extended immediate (R171). -/
def execMovi (h : Hd) (sd : SReg) (imm : BitVec 16) (s : State) : Res :=
  .next (s.issue h (fun _ _ _ => sxOp [] sd 1 (IRes.plain (imm.signExtend 32).toNat)))

/-- MOVHI: bits [31:16] replaced, the low half kept (R171). -/
def execMovhi (h : Hd) (sd : SReg) (imm : BitVec 16) (s : State) : Res :=
  .next (s.issue h (fun s c t =>
    sxOp [.s sd] sd 1 (IRes.plain (setBits ((s.task c t).s.get sd).toNat 16 16 imm.toNat))))

/-- PADD: the pointer update of R81 by the last source (R115). -/
def execPadd (h : Hd) (p : PReg) (b : Src) (s : State) : Res :=
  .next (s.issue h (fun s c t =>
    let k := s.task c t
    { slot := .sx, reads := [.p p, .pb p, .pl p] ++ srcReads b, writes := [.p p],
      out := .ok [.p p (ptrAdd k p (srcVal k b).toInt)] }))

/-- BREV: a field reversed; a width of 0 or above 32 − lsb has no encoding and is ILLEGAL (R117). -/
def execBrev (h : Hd) (sd sa : SReg) (lsb : Fin 32) (w : Nat) (s : State) : Res :=
  .next (s.issue h (fun s c t =>
    { sxOp [.s sa] sd 1 (IRes.plain (brevRes ((s.task c t).s.get sa).toNat lsb w)) with
      illegal := decide (w = 0) || decide (32 < lsb.val + w) }))

/-- CRCB: one byte (R116). -/
def execCrcb (h : Hd) (sd sa sb : SReg) (w : CrcW) (ref : Bool) (s : State) : Res := crcOp h sd sa sb w ref 1 s

/-- CRCW: four bytes, byte 0 first (R116). -/
def execCrcw (h : Hd) (sd sa sb : SReg) (w : CrcW) (ref : Bool) (s : State) : Res := crcOp h sd sa sb w ref 4 s

/-- CRCV: the 512 bytes of a vector register (R97, R116). -/
def execCrcv (h : Hd) (sd : SReg) (vn : VReg) (sb : SReg) (w : CrcW) (ref : Bool) (s : State) : Res :=
  .next (s.issue h (fun s c t =>
    let k := s.task c t
    let x := ((s.core c).vec.v.get vn).toNat
    let bytes := (List.range 512).map (fun i => lane x 8 i)
    sxOp [.s sd, .v vn, .s sb] sd 16
      (IRes.plain (crcBytes (crcWidth w) ref (k.s.get sb).toNat (k.s.get sd).toNat bytes))))

/-- MINI: running signed minimum with its index (R118). -/
def execMini (h : Hd) (sd sa sb : SReg) (s : State) : Res := runningOp h sd sa sb (fun a d => a.slt d) s

/-- MAXI: running signed maximum with its index (R118). -/
def execMaxi (h : Hd) (sd sa sb : SReg) (s : State) : Res := runningOp h sd sa sb (fun a d => d.slt a) s

/-- MINIU: running unsigned minimum with its index (R118). -/
def execMiniu (h : Hd) (sd sa sb : SReg) (s : State) : Res := runningOp h sd sa sb (fun a d => a.ult d) s

/-- MAXIU: running unsigned maximum with its index (R118). -/
def execMaxiu (h : Hd) (sd sa sb : SReg) (s : State) : Res := runningOp h sd sa sb (fun a d => d.ult a) s

end Sys2Proof.Machine
end

