-- ==== Sys2Proof/Machine/ScalarMem.lean ====
section
/-! DEFINITION. Scalar memory operations (03 R80, R90, R92, R99..R104, R115; 05 R172): the SM slot. -/

namespace Sys2Proof.Machine

/-- The halves of an access at a task-relative address: one, or two when it crosses a line boundary of the Granary
(R102): start and length of each. -/
def State.halves (s : State) (c : CoreId) (t : TaskId) (a n : Nat) : List (Nat × Nat) :=
  let r := 64 - s.granOff c t a % 64
  if n ≤ r then [(a, n)] else [(a, r), (a + r, n - r)]

/-- The window check of an access (R92, R103): the first byte of the failing half, and whether it is the second half
alone that fails. -/
def State.accessFault (s : State) (c : CoreId) (t : TaskId) (hs : List (Nat × Nat)) : Option (Nat × Bool) :=
  match hs.findIdx? (fun e => !s.inWin c t e.1 e.2) with
  | none => none
  | some i => some ((hs.getD i (0, 0)).1, decide (i ≠ 0))

/-- Whether a buffered entry overlaps `n` bytes at a Granary offset (R100). -/
def sbOverlaps (e : Nat × List Byte) (off n : Nat) : Bool :=
  decide (e.1 < off + n) && decide (off < e.1 + e.2.length)

/-- Whether a half of a load waits for the store buffer: an entry overlaps it, and the youngest that does holds not all
of it (R100). -/
def State.sbHolds (s : State) (c : CoreId) (off n : Nat) : Bool :=
  match ((s.core c).seq.sbuf.filter (fun e => sbOverlaps e off n)).getLast? with
  | none => false
  | some e => !(decide (e.1 ≤ off) && decide (off + n ≤ e.1 + e.2.length))

/-- The bytes that a half of a load takes from the youngest overlapping entry, or none where it reads the Granary (R100). -/
def State.forwarded (s : State) (c : CoreId) (off n : Nat) : Option (List Byte) :=
  (((s.core c).seq.sbuf.filter (fun e => sbOverlaps e off n)).getLast?).map (fun e => (e.2.drop (off - e.1)).take n)

/-- A load of `n` bytes at a task-relative address (R92, R100, R102, R103): `dst` gives the registers and the part of the data
each takes, `extra` the pointer or stack writes, which take place at W. -/
def State.loadOp (s : State) (c : CoreId) (t : TaskId) (illegal : Bool) (reads writes : List RName) (a n : Nat)
    (dst : List (SReg × LdPart)) (extra : List Fx) : Op :=
  let hs := s.halves c t a n
  let ps := hs.map (fun e => (s.granOff c t e.1, e.2))
  { slot := .sm, illegal := illegal, reads := reads, writes := dst.map (fun e => RName.s e.1) ++ writes,
    hold := (s.accessFault c t hs).isNone && ps.any (fun e => s.sbHolds c e.1 e.2),
    out := match s.accessFault c t hs with
      | some (addr, half) => .fault causeBound (some (BitVec.ofNat 32 addr)) half
      | none => .ok (.sload dst (ps.map (fun e => (e.1, e.2, s.forwarded c e.1 e.2))) :: extra) }

/-- A store of some bytes at a task-relative address through the store buffer (R92, R99, R102, R103). -/
def State.storeOp (s : State) (c : CoreId) (t : TaskId) (illegal : Bool) (reads writes : List RName) (a : Nat)
    (bs : List Byte) (extra : List Fx) : Op :=
  let hs := s.halves c t a bs.length
  { slot := .sm, illegal := illegal, reads := reads, writes := writes,
    hold := decide (8 < (s.core c).seq.sbuf.length + hs.length),
    out := match s.accessFault c t hs with
      | some (addr, half) => .fault causeBound (some (BitVec.ofNat 32 addr)) half
      | none => .ok (hs.map (fun e => Fx.store (s.granOff c t e.1) ((bs.drop (e.1 - a)).take e.2)) ++ extra) }

/-- A load of `n` bytes into one register (R115). -/
def loadOne (h : Hd) (sr : SReg) (m : MAddr) (n : Nat) (signed : Bool) (s : State) : Res :=
  .next (s.issue h (fun s c t =>
    let k := s.task c t
    s.loadOp c t false (addrReads m) (addrWrites m) (addrOf k m).toNat n [(sr, ⟨0, 8 * n, signed⟩)] (addrFx k m)))

/-- A store of one register's low bytes (R115). -/
def storeOne (h : Hd) (sr : SReg) (m : MAddr) (n : Nat) (s : State) : Res :=
  .next (s.issue h (fun s c t =>
    let k := s.task c t
    s.storeOp c t false (.s sr :: addrReads m) (addrWrites m) (addrOf k m).toNat (leBytes n (k.s.get sr).toNat)
      (addrFx k m)))

/-- A register pair from an 8 B value: the even register takes bits [31:0] (R90). -/
def pairOf (sr : SReg) : List (SReg × LdPart) := [(sr, ⟨0, 32, false⟩), (nextReg sr, ⟨32, 32, false⟩)]

/-- The 8 bytes of a register pair (R90). -/
def pairBytes (k : Task) (sr : SReg) : List Byte :=
  leBytes 4 (k.s.get sr).toNat ++ leBytes 4 (k.s.get (nextReg sr)).toNat

/-- A push: DSP falls and the data goes to the new DSP, unless that lies below the task's limit (R90). A DSP smaller than the push's
size counts as below the limit and raises STACK: DESIGN CHOICE, the spec does not say whether it wraps (log 11). -/
def pushOp (h : Hd) (sr : SReg) (n : Nat) (s : State) : Res :=
  .next (s.issue h (fun s c t =>
    let k := s.task c t
    let pair := decide (n = 8)
    let bs := if pair then pairBytes k sr else leBytes 4 (k.s.get sr).toNat
    let limit := s.rd Reg.CORE_TASK_DSL_LIMIT c t * 4
    let below := decide (k.dsp.toNat < limit + n)
    let o := s.storeOp c t (pair && !isEven sr) (.dsp :: .s sr :: (if pair then [.s (nextReg sr)] else [])) [.dsp]
      (k.dsp.toNat - n) bs [.dsp (k.dsp - BitVec.ofNat 32 n)]
    if below then { o with out := .fault causeStack none false } else o))

/-- A pop: the data at DSP, which then rises (R90). -/
def popOp (h : Hd) (sr : SReg) (n : Nat) (s : State) : Res :=
  .next (s.issue h (fun s c t =>
    let k := s.task c t
    let pair := decide (n = 8)
    s.loadOp c t (pair && !isEven sr) [.dsp] [.dsp] k.dsp.toNat n
      (if pair then pairOf sr else [(sr, ⟨0, 32, false⟩)]) [.dsp (k.dsp + BitVec.ofNat 32 n)]))

/-- LDB (R100, R115). -/
def execLdb (h : Hd) (sr : SReg) (m : MAddr) (s : State) : Res :=
  loadOne h sr m 1 true s

/-- LDBU (R100, R115). -/
def execLdbu (h : Hd) (sr : SReg) (m : MAddr) (s : State) : Res := loadOne h sr m 1 false s

/-- LDH (R100, R115). -/
def execLdh (h : Hd) (sr : SReg) (m : MAddr) (s : State) : Res :=
  loadOne h sr m 2 true s

/-- LDHU (R100, R115). -/
def execLdhu (h : Hd) (sr : SReg) (m : MAddr) (s : State) : Res := loadOne h sr m 2 false s

/-- LDW (R100, R115). -/
def execLdw (h : Hd) (sr : SReg) (m : MAddr) (s : State) : Res := loadOne h sr m 4 false s

/-- LDD: 8 B into an even-odd pair; an odd register is ILLEGAL (R90, R172). -/
def execLdd (h : Hd) (sr : SReg) (m : MAddr) (s : State) : Res :=
  .next (s.issue h (fun s c t =>
    let k := s.task c t
    s.loadOp c t (!isEven sr) (addrReads m) (addrWrites m) (addrOf k m).toNat 8 (pairOf sr) (addrFx k m)))

/-- STB (R99, R115). -/
def execStb (h : Hd) (sr : SReg) (m : MAddr) (s : State) : Res := storeOne h sr m 1 s

/-- STH (R99, R115). -/
def execSth (h : Hd) (sr : SReg) (m : MAddr) (s : State) : Res := storeOne h sr m 2 s

/-- STW (R99, R115). -/
def execStw (h : Hd) (sr : SReg) (m : MAddr) (s : State) : Res := storeOne h sr m 4 s

/-- STD: 8 B from an even-odd pair; an odd register is ILLEGAL (R90, R172). -/
def execStd (h : Hd) (sr : SReg) (m : MAddr) (s : State) : Res :=
  .next (s.issue h (fun s c t =>
    let k := s.task c t
    s.storeOp c t (!isEven sr) (.s sr :: .s (nextReg sr) :: addrReads m) (addrWrites m) (addrOf k m).toNat
      (pairBytes k sr) (addrFx k m)))

/-- PUSH (R90). -/
def execPush (h : Hd) (sr : SReg) (s : State) : Res := pushOp h sr 4 s

/-- POP (R90). -/
def execPop (h : Hd) (sr : SReg) (s : State) : Res := popOp h sr 4 s

/-- PUSHD (R90). -/
def execPushd (h : Hd) (sr : SReg) (s : State) : Res := pushOp h sr 8 s

/-- POPD (R90). -/
def execPopd (h : Hd) (sr : SReg) (s : State) : Res := popOp h sr 8 s

end Sys2Proof.Machine
end

