-- ==== Sys2Proof/Machine/SeqEvents.lean ====
section
/-! DEFINITION. Events of the sequencer and the vector unit (03 R95, R99, R107, R108, R111, R113, R119..R124, R538;
04 R139, R140, R146; 11 R320): register writes with a row of their own, loads that return, interrupt entry and task
switches. -/

namespace Sys2Proof.Machine

/-- SEQ_CTRL_RUN (R113, R119). -/
def execSeqCtrlRun (c : CoreId) (run : Bool) (s : State) : Res := .next (s.setRun c run)

/-- SEQ_CTRL_CINV (R119). -/
def execSeqCtrlCinv (c : CoreId) (s : State) : Res := .next (s.seqCinv c)

/-- HALT_REQ (R123). -/
def execHaltReq (c : CoreId) (t : TaskId) (s : State) : Res := .next (s.haltReqWrite c t)

/-- RELEASE_TASK (R123). -/
def execReleaseTask (c : CoreId) (t : TaskId) (s : State) : Res := .next (s.releaseWrite c t)

/-- IRQ_SET (R124). -/
def execIrqSet (c : CoreId) (mask : BitVec 16) (s : State) : Res := .next (s.irqSetWrite c mask.toNat)

/-- TIMER_CMP_WRITE (R122). -/
def execTimerCmpWrite (c : CoreId) (high : Bool) (v : Word) (s : State) : Res := .next (s.timerCmpWrite c high v)

/-- TIMER_MATCH: the count reached CMP (R122). -/
def execTimerMatch (c : CoreId) (s : State) : Res := .next (s.timerTest c)

/-- VEC_CTRL_WAKE (R140, R159). -/
def execVecCtrlWake (c : CoreId) (s : State) : Res := .next (s.beginWake c)

/-- VEC_POWER_DOWN: the idle count reached IDLE × 16 with PD_EN set, no slot or bus occupied and no vector bundle in D (R139). -/
def execVecPowerDown (c : CoreId) (s : State) : Res :=
  if s.on Reg.CORE_VEC_CTRL_PD_EN c 0 && (s.core c).vec.pwr == .on && !s.unitsBusy c && !s.vecInD c then
    .next (s.modVec c (fun v => { v with pwr := .down }))
  else .next s

/-- VEC_WAKE_DONE: 180 cc after a wake began (R140). -/
def execVecWakeDone (c : CoreId) (s : State) : Res :=
  if (s.core c).vec.pwr = .waking then .next (s.modVec c (fun v => { v with pwr := .on })) else .next s

/-- The line that the sequencer fetches next, as a task-relative address (R538): of the line of the PC and the two that follow it, the
nearest in the window that neither the prefetch buffer nor the loop cache holds. -/
def State.fetchNext (s : State) (c : CoreId) (t : TaskId) : Option Nat :=
  let l := (s.task c t).pc.toNat / 64 * 64
  [l, l + 64, l + 128].find? (fun a =>
    s.inWin c t a 64 && !(s.core c).seq.pre.any (fun e => e.1 == s.granOff c t a / 64) && !(s.lcHit c a && s.lcHit c (a + 32)))

/-- LINE_FETCH of the line at `addr`, which is that of the next bundle or one of the two that follow it (R538). Each of its two bundles may come back
uncorrectable; the others that lie in the loop cache's range are copied into it (R88). -/
def execLineFetch (c : CoreId) (addr : Word) (errs : List Upset) (s0 : State) : Res :=
  let s := s0.struck errs
  .next (match (s.core c).seq.running with
  | none => s
  | some t =>
    if !s.on Reg.CORE_SEQ_CTRL_RUN c 0 then s
    else match s.fetchNext c t with
    | none => s
    | some a =>
      if a ≠ addr.toNat then s
      else
      let off := s.granOff c t a
      let (lo, badLo) := s.bytesAt c (s.core c).seq.cc off 32
      let (hi, badHi) := s.bytesAt c (s.core c).seq.cc (off + 32) 32
      let s1 := (s.granRead c off 64).2.modSeq c (fun q => { q with pre := q.pre ++ [(off / 64, lineOf (lo ++ hi), badLo, badHi)] })
      let s2 := if badLo then s1 else s1.lcCopy c a (BitVec.ofNat 256 (leNat lo))
      if badHi then s2 else s2.lcCopy c (a + 32) (BitVec.ofNat 256 (leNat hi)))

/-- STORE_BUFFER_DRAIN: the oldest entry reaches the Granary (R99). -/
def execStoreBufferDrain (c : CoreId) (errs : List Upset) (s0 : State) : Res :=
  let s := s0.struck errs
  match (s.core c).seq.sbuf with
  | [] => .next s
  | (off, bs) :: rest => .next ((s.granWrite c off bs).modSeq c (fun q => { q with sbuf := rest }))

/-- A deferred fault arises (R111, R146): bundles already issued complete, so the bundle under way stays. -/
def State.deferFault (s : State) (c : CoreId) (t : TaskId) (pc : Word) : State :=
  let inH := match (s.core c).seq.running with
    | some u => srINH (s.task c u).sr && srILVL (s.task c u).sr == 0
    | none => false
  if inH then s.doubleFault c
  else (s.modSeq c (fun q => { q with fault := some { cause := causeEcc, task := t, deferred := true, half := false,
                                                      addr := none, pc := pc } })).setIrq c 0

/-- SCALAR_LOAD_RETURN of the oldest load: its registers are written, or the fault ECC is deferred and they stay as they
are, unreadable until interrupt entry (R96, R111, R501). -/
def execScalarLoadReturn (c : CoreId) (errs : List Upset) (s0 : State) : Res :=
  let s := s0.struck errs
  match (s.core c).seq.loads.findIdx? (fun l => !l.failed) with
  | none => .next s
  | some i =>
    match (s.core c).seq.loads[i]? with
    | none => .next s
    | some l =>
      if l.bad then
        .next ((s.modSeq c (fun q => { q with loads := q.loads.set i { l with failed := true } })).deferFault c l.task l.pc)
      else
        .next ((l.dst.foldl (fun x d => x.modTask c l.task (fun k => { k with s := k.s.set d.1 d.2 })) s).modSeq c
          (fun q => { q with loads := q.loads.eraseIdx i }))

/-- The place of the `k`-th load still to return among the loads in flight: a short load on one bus may return before a longer one on
the other (R137, R142). -/
def loadPlace : List VLoad → Nat → Option Nat
  | [], _ => none
  | l :: rest, k =>
    if l.failed then (loadPlace rest k).map (· + 1)
    else match k with
      | 0 => some 0
      | k + 1 => (loadPlace rest k).map (· + 1)

/-- VECTOR_LOAD_RETURN of the `k`-th load in flight: its registers are written, or VFAULT takes the lowest active element that read
uncorrectable and the fault ECC is deferred (R146). -/
def execVectorLoadReturn (c : CoreId) (errs : List Upset) (k : Nat) (s0 : State) : Res :=
  let s := s0.struck errs
  match loadPlace (s.core c).vec.loads k with
  | none => .next s
  | some i =>
    match (s.core c).vec.loads[i]? with
    | none => .next s
    | some l =>
      match l.bad with
      | some j =>
        let s1 := s.modVec c (fun v => { v with vfault := BitVec.ofNat 32 (j % 2 ^ 12 + 3 * 2 ^ 12 + 2 ^ 31)
                                                loads := v.loads.set i { l with failed := true } })
        .next (s1.deferFault c l.task l.pc)
      | none =>
        let s1 := s.modVec c (fun v => { v with v := l.regs.foldl (fun r d => r.set d.1 d.2) v.v
                                                loads := v.loads.eraseIdx i })
        .next (match l.acc with
          | some (k, x) => s1.modVec c (fun v => { v with a := v.a.set k x })
          | none => s1)

/-- The 128 bytes of an interrupt frame of a task (R108). -/
def frameBytes (k : Task) : List Byte :=
  (List.finRange 8).flatMap (fun i => leBytes 4 (k.s.get (Fin.ofNat 32 i.val)).toNat)
    ++ (List.finRange 4).flatMap (fun i => leBytes 4 (k.lc.get i).toNat)
    ++ (List.finRange 4).flatMap (fun i => leBytes 4 (k.le.get i).toNat)
    ++ (List.finRange 4).flatMap (fun i => leBytes 4 (k.ls.get i).toNat)
    ++ leBytes 4 (srLDEPTH k.sr) ++ leBytes 4 k.dsp.toNat ++ leBytes 4 k.pc.toNat ++ leBytes 2 k.sr.toNat
    ++ leBytes 1 (tstateCode k.st) ++ List.replicate 33 0

/-- The fault registers at a fault entry (R121). An address the spec does not state for a cause is a free value. -/
def State.faultRegs (s : State) (c : CoreId) (f : FaultRec) : State :=
  let (addr, s0) : Word × State := match f.addr with
    | some a => (a, s)
    | none => s.draw 32
  let w := f.cause.toNat + f.task.val * 32 + bit01 f.deferred * 256 + bit01 f.half * 512 + 2 ^ 31
  ((s0.csrPut Reg.CORE_SEQ_FAULT c 0 (BitVec.ofNat 64 w)).csrPut Reg.CORE_SEQ_FADDR c 0 (addr.zeroExtend 64)).csrPut
    Reg.CORE_SEQ_FPC c 0 (f.pc.zeroExtend 64)

/-- The task that handles a line: the faulting task for line 0, else the one that CORE_IRQ_VEC names (R124). -/
def State.irqTarget (s : State) (c : CoreId) (line : Nat) (t : TaskId) : TaskId :=
  if line = 0 then
    match (s.core c).seq.fault with
    | some f => f.task
    | none => t
  else Fin.ofNat 8 (s.rd Reg.CORE_IRQ_VEC_TASK c line)

/-- The entry of a line into a target task, past the checks (R107): the RSTK push, the store buffer drained, the frame
written where it lies in the target's window, and the target running at the handler, whose first bundle enters F 12 cc on. A frame
outside the window is not written and the handler entered all the same: DESIGN CHOICE, the spec states neither (log 11). -/
def State.enterHandler (s : State) (c : CoreId) (t u : TaskId) (line : Nat) : State :=
  let k := s.task c t
  let tgt := s.task c u
  let frame := (tgt.dsp.toNat / 64 * 64) - 128
  let s1 := (s.core c).seq.sbuf.foldl (fun x e => x.granWrite c e.1 e.2) s
  let s2 := s1.modSeq c (fun q => { q with sbuf := [] })
  let s3 := if s2.inWin c u frame 128 then s2.granWrite c (s2.granOff c u frame) (frameBytes tgt) else s2
  let s4 := if u = t then s3 else
    ((s3.modTask c t (fun k => { k with st := .waiting, wait := .reti })).modTask c u
      (fun x => { x with waits := x.wait :: x.waits, wait := .none })).lcEmpty c
  let s5 := s4.modTask c u (fun x => { x with
    rstk := { addr := k.pc, sr := k.sr, intr := true } :: x.rstk
    sr := BitVec.ofNat 16 (2 + line * 4 + u.val * 128)
    dsp := BitVec.ofNat 32 frame
    pc := BitVec.ofNat 32 (s.rd Reg.CORE_IRQ_VEC_HANDLER c line * 32)
    st := .running
    wait := .none })
  let s6 := s5.modSeq c (fun q => { q with
    running := some u
    last := u
    bundle := none
    inD := false
    pre := []
    fault := if line = 0 then none else q.fault })
  (if line = 0 then s6.loadsLost c else s6).coreTime c 12

/-- INTERRUPT_ENTRY of the lowest recognisable line of the running task (R106, R107, R113), at a recognition point: where its next
bundle would enter F, or while that bundle waits in D, from which it is abandoned. -/
def execInterruptEntry (c : CoreId) (s : State) : Res :=
  match (s.core c).seq.running with
  | none => .next s
  | some t =>
    if (s.core c).seq.double || !s.on Reg.CORE_SEQ_CTRL_RUN c 0 then .next s
    else
      match s.recognisable c (s.task c t).sr with
      | none => .next s
      | some line =>
        let s0 := (s.modSeq c (fun q => { q with bundle := none })).atBoundary c t
        if (s0.core c).seq.running != some t then .next s0
        else
          let u := s0.irqTarget c line t
          let s1 := s0.put Reg.CORE_IRQ_PEND_PEND c 0 (s0.irqPending c - 2 ^ line)
          let s2 := match line, (s0.core c).seq.fault with
            | 0, some f => (s1.faultRegs c f).lostFree c
            | _, _ => s1
          let tgt := s2.task c u
          let below := decide (tgt.dsp.toNat / 64 * 64 < 128 + s2.rd Reg.CORE_TASK_DSL_LIMIT c u * 4)
          if 64 ≤ tgt.rstk.length ∨ below then .next (s2.doubleFault c) else .next (s2.enterHandler c t u line)

/-- A READY task starts to run: 7 cc are counted, and the loop cache and the prefetch buffer are empty (R89, R95). -/
def State.runTask (s : State) (c : CoreId) (u : TaskId) : State :=
  let s1 := (s.modTask c u (fun k => { k with st := .running })).modSeq c
    (fun q => { q with running := some u, last := u, pre := [] })
  ((s1.lcEmpty c).bump Reg.CORE_STALL_FETCH_COUNT c 0 7).coreTime c 7

/-- TASK_SWITCH to the READY task picked when none runs, or where the next bundle of the running task would enter F when the priority
of the one picked is higher; an interrupt due at the same point is taken first (R95). -/
def execTaskSwitch (c : CoreId) (s : State) : Res :=
  let q := (s.core c).seq
  if q.double || q.bundle.isSome || !s.on Reg.CORE_SEQ_CTRL_RUN c 0 then .next s
  else match q.running, s.pickTask c with
    | _, none => .next s
    | none, some u => .next (s.runTask c u)
    | some t, some u =>
      if !q.inD && s.switchDue c t && (s.recognisable c (s.task c t).sr).isNone then
        .next ((s.modTask c t (fun k => { k with st := .ready })).runTask c u)
      else .next s

/-- PIPE_WAIT_LONG: an RWAIT has waited WAIT_LIMIT × 256 cc; the event is raised once for the wait (R320). -/
def execPipeWaitLong (c : CoreId) (t : TaskId) (s : State) : Res :=
  let k := s.task c t
  match k.wait with
  | .row v ctr =>
    if k.longTold || !s.on Reg.PIPE_CTRL_WAIT_LIMIT c 0 then .next s
    else .next ((s.modTask c t (fun k => { k with longTold := true })).coreEvent c 0x062 [t.val, ctr.toNat, v.toNat])
  | _ => .next s

end Sys2Proof.Machine
end

