-- ==== Sys2Proof/Machine/VecCore.lean ====
section
/-! DEFINITION. The shape of a vector operation (04 R126..R130, R134; 05 R176, R178): element-wise results over register
groups, masks, and the flags they raise. -/

namespace Sys2Proof.Machine

/-- The result of one element: its code, OV, whether it saturated, and whether it was a NaN turned into an integer. -/
structure VRes where
  code : Nat
  ov : Bool
  sat : Bool
  nan : Bool

/-- A result that met no edge. -/
def VRes.plain (code : Nat) : VRes := ⟨code, false, false, false⟩

/-- An integer result as an element. -/
def VRes.int (r : IRes) : VRes := ⟨r.code, r.ov, r.sat, false⟩

/-- A conversion as an element (R48, R52). -/
def VRes.conv (r : Conv) : VRes := ⟨r.code, false, r.sat, r.nan⟩

/-- `sat` of an exact integer in an integer format (R58). -/
def satCode (f : Fmt) (x : Int) : VRes := VRes.conv (satInt f x 1)

/-- The mask register (R125, R129). -/
def maskReg (vs : Vector VWord 32) : VWord := vs.get 31

/-- The flags and counts of the active elements (R48, R129, R147). -/
def vecFlags (n : Nat) (act : Nat → Bool) (f : Nat → VRes) : List Fx :=
  let js := (List.range n).filter act
  let ov := js.any (fun j => (f j).ov)
  let sat := js.countP (fun j => (f j).sat)
  let nan := js.countP (fun j => (f j).nan)
  if ov || sat != 0 || nan != 0 then [.arith .vec ov false sat nan] else []

/-- Whether a group of `g` registers from `v` may not be named: too large, misaligned, or past v31 (R127). -/
def grpBad (v : VReg) (g : Nat) : Bool :=
  decide (8 < g) || decide (v.val % g ≠ 0) || decide (32 < v.val + g)

/-- Whether a group holds v31. -/
def grpHolds31 (v : VReg) (g : Nat) : Bool := decide (v.val ≤ 31) && decide (31 < v.val + g)

/-- Whether two groups share a register. -/
def grpOverlap (v : VReg) (g : Nat) (u : VReg) (k : Nat) : Bool :=
  decide (v.val < u.val + k) && decide (u.val < v.val + g)

/-- The registers an instruction with the mask bit reads beside its sources. -/
def maskReads (m : Bool) : List RName := if m then [.v 31] else []

/-- An operation that writes `n` elements of width `w` into the group `vd` of `g` registers; inactive elements keep
their values (R129). `src` is the size of a source group that is larger (R134). -/
def vecOp (slot : Slot) (illegal : Bool) (reads : List RName) (m : Bool) (vs : Vector VWord 32) (vd : VReg)
    (g w n : Nat) (f : Nat → VRes) (src : Nat := 1) : Op :=
  let act := active m (maskReg vs)
  let old := grpVal vs vd g
  { slot := slot, illegal := illegal || grpBad vd g || (m && grpHolds31 vd g), reads := reads ++ maskReads m,
    writes := grpNames vd g, group := max g src,
    out := .ok (grpFx vd g (lanesOf w (fun j => if act j then (f j).code else lane old w j) n) ++ vecFlags n act f) }

/-- An operation that writes a mask of `n` bits: bits of inactive elements stay, bits from `n` up become 0 (R129). `src` is the
size of its source groups. -/
def maskOp (illegal : Bool) (reads : List RName) (m : Bool) (vs : Vector VWord 32) (vd : VReg) (n : Nat)
    (f : Nat → Bool) (src : Nat := 1) : Op :=
  let act := active m (maskReg vs)
  let old := (vs.get vd).toNat
  { slot := .va, illegal := illegal || (m && vd == 31), reads := reads ++ maskReads m, writes := [.v vd],
    group := src,
    out := .ok [.v vd (BitVec.ofNat 4096 (lanesOf 1 (fun j => if act j then bit01 (f j) else lane old 1 j) n))] }

/-- An operation that writes scalar registers; `src` is the size of its source group. -/
def vecToScalar (slot : Slot) (illegal : Bool) (reads : List RName) (m : Bool) (dst : List (SReg × Word))
    (fx : List Fx) (src : Nat := 1) : Op :=
  { slot := slot, illegal := illegal, reads := reads ++ maskReads m, writes := dst.map (fun d => RName.s d.1), group := src,
    out := .ok (dst.map (fun d => Fx.s d.1 d.2) ++ fx) }

/-- An element-wise operation of a register group and a last source, in the formats `ok` accepts; `f` takes the element
width and the two codes (R147). -/
def vec2 (h : Hd) (o : VOpt) (vd va : VReg) (b : VSrc) (ok : Fmt → Bool) (f : Task → Nat → Nat → Nat → VRes)
    (s : State) : Res :=
  .next (s.issue h (fun s c t =>
    let k := s.task c t
    let vs := (s.core c).vec.v
    let g := grpCount o.g
    let w := laneBits o.fmt
    let a := grpVal vs va g
    vecOp .va (!ok o.fmt || grpBad va g || !vsrcAligned g b) (grpNames va g ++ vsrcReads g b) o.m vs vd g w
      (grpElems o.fmt g) (fun j => f k w (lane a w j) (vsrcLane k vs g w b j))))

/-- An element-wise operation of one register group. -/
def vec1 (h : Hd) (o : VOpt) (vd va : VReg) (ok : Fmt → Bool) (f : Nat → Nat → VRes) (s : State) : Res :=
  .next (s.issue h (fun s c _ =>
    let vs := (s.core c).vec.v
    let g := grpCount o.g
    let w := laneBits o.fmt
    let a := grpVal vs va g
    vecOp .va (!ok o.fmt || grpBad va g) (grpNames va g) o.m vs vd g w (grpElems o.fmt g) (fun j => f w (lane a w j))))

/-- Formats whose widening fits a lane: 8 and 16 bits (R128). -/
def narrowFmt : Fmt → Bool
  | .u8 | .s8 | .u16 | .s16 => true
  | _ => false

/-- The code of a signed or unsigned element as an integer, by its format. -/
def elemInt (f : Fmt) (w x : Nat) : Int := intVal (fmtSigned f) w x

end Sys2Proof.Machine
end

