-- ==== Sys2Proof/Machine/VecArith.lean ====
section
/-! DEFINITION. Vector arithmetic (04 R128, R130, R147..R149, R155..R157; 05 R176, R177): the VA slot. -/

namespace Sys2Proof.Machine

/-- Shift counts of the vector shifts: a scalar count is its whole 32-bit value, an element count its own value,
sign-extended for the signed-count shifts (R62, R147). -/
def countOf (signed : Bool) (k : Task) (vs : Vector VWord 32) (g w : Nat) (b : VSrc) (j : Nat) : Nat :=
  match b with
  | .scl r => (k.s.get r).toNat
  | .vec v =>
    let x := lane (grpVal vs v g) w j
    if signed then lowBits 32 (sgn w x) else x

/-- A vector shift (R62). -/
def vecShift (h : Hd) (o : VOpt) (vd va : VReg) (b : VSrc) (signed : Bool) (f : Nat → Nat → Nat → IRes) (s : State) :
    Res :=
  .next (s.issue h (fun s c t =>
    let k := s.task c t
    let vs := (s.core c).vec.v
    let g := grpCount o.g
    let w := laneBits o.fmt
    let a := grpVal vs va g
    vecOp .va (!intFmt o.fmt || grpBad va g || !vsrcAligned g b) (grpNames va g ++ vsrcReads g b) o.m vs vd g w
      (grpElems o.fmt g) (fun j => VRes.int (f w (lane a w j) (countOf signed k vs g w b j)))))

/-- A comparison into a mask, by the format; a NaN compares unequal and not less (R147). -/
def vecCmp (h : Hd) (o : VOpt) (vd va : VReg) (b : VSrc) (f : Val → Val → Bool) (s : State) : Res :=
  .next (s.issue h (fun s c t =>
    let k := s.task c t
    let vs := (s.core c).vec.v
    let g := grpCount o.g
    let w := laneBits o.fmt
    let a := grpVal vs va g
    maskOp (!arithFmt o.fmt || grpBad va g || !vsrcAligned g b) (grpNames va g ++ vsrcReads g b) o.m vs vd
      (grpElems o.fmt g) (fun j => f (decodeVal o.fmt (lane a w j)) (decodeVal o.fmt (vsrcLane k vs g w b j))) g))

/-- A widening operation: exact results of 2w bits into a group of 2G (R128, R147). Overlapping groups are ILLEGAL here as in VCVT and
VNRSHR: DESIGN CHOICE, R128 says it of VCVT (log 12). -/
def vecWide (h : Hd) (o : VOpt) (vd va : VReg) (b : VSrc) (f : Int → Int → Int) (s : State) : Res :=
  .next (s.issue h (fun s c t =>
    let k := s.task c t
    let vs := (s.core c).vec.v
    let g := grpCount o.g
    let w := laneBits o.fmt
    let a := grpVal vs va g
    let clash := grpOverlap vd (2 * g) va g || (match b with | .vec v => grpOverlap vd (2 * g) v g | .scl _ => false)
    vecOp .va (!narrowFmt o.fmt || grpBad va g || !vsrcAligned g b || clash) (grpNames va g ++ vsrcReads g b) o.m vs vd
      (2 * g) (2 * w) (grpElems o.fmt g)
      (fun j => VRes.plain (lowBits (2 * w) (f (elemInt o.fmt w (lane a w j)) (elemInt o.fmt w (vsrcLane k vs g w b j)))))))

/-- A multiply-accumulate into the lanes in use of an accumulator, saturating at 48 bits (R130, R148). `b` gives the
second source's elements. -/
def macOp (ak : AReg) (o : VOpt) (va : VReg) (fmtB : Fmt) (badB : Bool) (readsB : List RName) (b : Nat → Nat) (s : State)
    (c : CoreId) : Op :=
  let vs := (s.core c).vec.v
  let wa := laneBits o.fmt
  let wb := laneBits fmtB
  let a := (vs.get va).toNat
  let acc := ((s.core c).vec.a.get ak).toNat
  let n := 4096 / max 1 (max wa wb)
  let act := active o.m (maskReg vs)
  let f (j : Nat) : VRes :=
    VRes.int (satRes true 48 (sgn 48 (lane acc 48 j) + elemInt o.fmt wa (lane a wa j) * elemInt fmtB wb (b j)))
  { slot := .va, illegal := !narrowFmt o.fmt || !narrowFmt fmtB || o.g != .g1 || badB,
    reads := .a ak :: .v va :: readsB ++ maskReads o.m, writes := [.a ak],
    out := .ok (.a ak (BitVec.ofNat 24576
        (lanesOf 48 (fun j => if j < n ∧ act j then (f j).code else lane acc 48 j) 512)) :: vecFlags n act f) }

/-- A narrowing of the accumulator lanes in use into integers, or into FP32, the one other format that S48 converts to (R53, R130;
that these two instructions provide it is DEDUCED, log 12). -/
def accNarrow (h : Hd) (o : VOpt) (vd : VReg) (ak : AReg) (bad : Bool) (reads : List RName)
    (f : Task → Int → VRes) (s : State) : Res :=
  .next (s.issue h (fun s c t =>
    let k := s.task c t
    let vs := (s.core c).vec.v
    let acc := ((s.core c).vec.a.get ak).toNat
    let w := laneBits o.fmt
    vecOp .va (!(intFmt o.fmt || o.fmt == .fp32) || o.g != .g1 || bad) (.a ak :: reads) o.m vs vd 1 w (grpElems o.fmt 1)
      (fun j => f k (sgn 48 (lane acc 48 j)))))

/-- A floating-point operation: the exact result written by R46 (R149). -/
def vecFloat (h : Hd) (o : VOpt) (vd va : VReg) (b : VSrc) (f : Val → Val → Val) (s : State) : Res :=
  vec2 h o vd va b floatFmt (fun k _ x y =>
    VRes.conv (fpResult k.arith o.fmt (f (decodeVal o.fmt x) (decodeVal o.fmt y)))) s

/-- The weights of VCUBIC over 2^14, from the fraction over 2^16 (R156). -/
def cubicW (f : Nat) : Int × Int × Int × Int :=
  let t : Int := f
  let q : Int := 2 ^ 16
  let wt (a3 a2 a1 a0 : Int) : Int :=   -- coefficients doubled: 16384 * (..) over 2 * q^3
    rndQ (16384 * (a3 * t ^ 3 + a2 * t ^ 2 * q + a1 * t * q ^ 2 + a0 * q ^ 3)) (2 * (2 ^ 16) ^ 3) .rne
  let m1 := wt (-1) 2 (-1) 0
  let w0 := wt 3 (-5) 0 2
  let p1 := wt (-3) 4 1 0
  (m1, w0, p1, 16384 - (m1 + w0 + p1))

/-- VADD (R147). -/
def execVadd (h : Hd) (o : VOpt) (vd va : VReg) (b : VSrc) (s : State) : Res :=
  vec2 h o vd va b intFmt (fun _ w x y => VRes.int (wrapRes (fmtSigned o.fmt) w (elemInt o.fmt w x + elemInt o.fmt w y))) s

/-- VSUB (R147). -/
def execVsub (h : Hd) (o : VOpt) (vd va : VReg) (b : VSrc) (s : State) : Res :=
  vec2 h o vd va b intFmt (fun _ w x y => VRes.int (wrapRes (fmtSigned o.fmt) w (elemInt o.fmt w x - elemInt o.fmt w y))) s

/-- VADDS (R147). -/
def execVadds (h : Hd) (o : VOpt) (vd va : VReg) (b : VSrc) (s : State) : Res :=
  vec2 h o vd va b intFmt (fun _ w x y => VRes.int (satRes (fmtSigned o.fmt) w (elemInt o.fmt w x + elemInt o.fmt w y))) s

/-- VSUBS (R147). -/
def execVsubs (h : Hd) (o : VOpt) (vd va : VReg) (b : VSrc) (s : State) : Res :=
  vec2 h o vd va b intFmt (fun _ w x y => VRes.int (satRes (fmtSigned o.fmt) w (elemInt o.fmt w x - elemInt o.fmt w y))) s

/-- VAND: bitwise in any format that fixes a lane width (R126, R147). -/
def execVand (h : Hd) (o : VOpt) (vd va : VReg) (b : VSrc) (s : State) : Res :=
  vec2 h o vd va b memFmt (fun _ _ x y => VRes.plain (x &&& y)) s

/-- VOR: bitwise in any format that fixes a lane width (R126, R147). -/
def execVor (h : Hd) (o : VOpt) (vd va : VReg) (b : VSrc) (s : State) : Res :=
  vec2 h o vd va b memFmt (fun _ _ x y => VRes.plain (x ||| y)) s

/-- VXOR: bitwise in any format that fixes a lane width (R126, R147). -/
def execVxor (h : Hd) (o : VOpt) (vd va : VReg) (b : VSrc) (s : State) : Res :=
  vec2 h o vd va b memFmt (fun _ _ x y => VRes.plain (x ^^^ y)) s

/-- VANDN: bitwise in any format that fixes a lane width (R126, R147). -/
def execVandn (h : Hd) (o : VOpt) (vd va : VReg) (b : VSrc) (s : State) : Res :=
  vec2 h o vd va b memFmt (fun _ w x y => VRes.plain (x &&& (2 ^ w - 1 - y))) s

/-- VNOT: bitwise in any format that fixes a lane width (R126, R147). -/
def execVnot (h : Hd) (o : VOpt) (vd va : VReg) (s : State) : Res :=
  vec1 h o vd va memFmt (fun w x => VRes.plain (2 ^ w - 1 - x)) s

/-- VSLL (R62, R147). -/
def execVsll (h : Hd) (o : VOpt) (vd va : VReg) (b : VSrc) (s : State) : Res :=
  vecShift h o vd va b false sllRes s

/-- VSRL (R62, R147). -/
def execVsrl (h : Hd) (o : VOpt) (vd va : VReg) (b : VSrc) (s : State) : Res :=
  vecShift h o vd va b false srlRes s

/-- VSRA (R62, R147). -/
def execVsra (h : Hd) (o : VOpt) (vd va : VReg) (b : VSrc) (s : State) : Res :=
  vecShift h o vd va b false sraRes s

/-- VSSL (R62, R147). -/
def execVssl (h : Hd) (o : VOpt) (vd va : VReg) (b : VSrc) (s : State) : Res :=
  vecShift h o vd va b true (sslRes false) s

/-- VSSLS (R62, R147). -/
def execVssls (h : Hd) (o : VOpt) (vd va : VReg) (b : VSrc) (s : State) : Res :=
  vecShift h o vd va b true (sslRes true) s

/-- VSSR (R62, R147). -/
def execVssr (h : Hd) (o : VOpt) (vd va : VReg) (b : VSrc) (s : State) : Res :=
  vecShift h o vd va b true ssrRes s

/-- VRSHR (R58, R147). -/
def execVrshr (h : Hd) (o : VOpt) (vd va : VReg) (n : Fin 64) (rm : RMode) (s : State) : Res :=
  vec1 h o vd va intFmt (fun w x => VRes.plain (lowBits w (rshrI (elemInt o.fmt w x) n rm))) s

/-- VMIN (R147). -/
def execVmin (h : Hd) (o : VOpt) (vd va : VReg) (b : VSrc) (s : State) : Res :=
  vec2 h o vd va b intFmt (fun _ w x y => VRes.plain (if elemInt o.fmt w y < elemInt o.fmt w x then y else x)) s

/-- VMAX (R147). -/
def execVmax (h : Hd) (o : VOpt) (vd va : VReg) (b : VSrc) (s : State) : Res :=
  vec2 h o vd va b intFmt (fun _ w x y => VRes.plain (if elemInt o.fmt w x < elemInt o.fmt w y then y else x)) s

/-- VABS (R60, R147). -/
def execVabs (h : Hd) (o : VOpt) (vd va : VReg) (s : State) : Res :=
  vec1 h o vd va intFmt (fun w x => VRes.int (absRes false (fmtSigned o.fmt) w x)) s

/-- VABSS (R60, R147). -/
def execVabss (h : Hd) (o : VOpt) (vd va : VReg) (s : State) : Res :=
  vec1 h o vd va intFmt (fun w x => VRes.int (absRes true (fmtSigned o.fmt) w x)) s

/-- VABSD: exact before saturation (R147). -/
def execVabsd (h : Hd) (o : VOpt) (vd va : VReg) (b : VSrc) (s : State) : Res :=
  vec2 h o vd va b intFmt (fun _ w x y => satCode o.fmt (elemInt o.fmt w x - elemInt o.fmt w y).natAbs) s

/-- VAVG: exact sum, rounded once (R147). -/
def execVavg (h : Hd) (o : VOpt) (vd va : VReg) (b : VSrc) (rm : RMode) (s : State) : Res :=
  vec2 h o vd va b intFmt (fun _ w x y => VRes.plain (lowBits w (rndQ (elemInt o.fmt w x + elemInt o.fmt w y) 2 rm))) s

/-- VCMPEQ (R129, R147). -/
def execVcmpeq (h : Hd) (o : VOpt) (vd va : VReg) (b : VSrc) (s : State) : Res :=
  vecCmp h o vd va b eqVal s

/-- VCMPNE (R129, R147). -/
def execVcmpne (h : Hd) (o : VOpt) (vd va : VReg) (b : VSrc) (s : State) : Res :=
  vecCmp h o vd va b (fun a b => !eqVal a b) s

/-- VCMPLT (R129, R147). -/
def execVcmplt (h : Hd) (o : VOpt) (vd va : VReg) (b : VSrc) (s : State) : Res :=
  vecCmp h o vd va b ltVal s

/-- VCMPLE (R129, R147). -/
def execVcmple (h : Hd) (o : VOpt) (vd va : VReg) (b : VSrc) (s : State) : Res :=
  vecCmp h o vd va b (fun a b => ltVal a b || eqVal a b) s

/-- VSEL: bit j of vm chooses between the sources (R147). -/
def execVsel (h : Hd) (o : VOpt) (vd va : VReg) (b : VSrc) (vm : VReg) (s : State) : Res :=
  .next (s.issue h (fun s c t =>
    let k := s.task c t
    let vs := (s.core c).vec.v
    let g := grpCount o.g
    let w := laneBits o.fmt
    let a := grpVal vs va g
    vecOp .va (!memFmt o.fmt || grpBad va g || !vsrcAligned g b) (.v vm :: grpNames va g ++ vsrcReads g b) o.m vs vd g w
      (grpElems o.fmt g)
      (fun j => VRes.plain (if (vs.get vm).getLsbD j then lane a w j else vsrcLane k vs g w b j))))

/-- VSPAN: the mask of the elements below a count (R129, R147). -/
def execVspan (h : Hd) (o : VOpt) (vd : VReg) (sa : SReg) (s : State) : Res :=
  .next (s.issue h (fun s c t =>
    maskOp (!memFmt o.fmt) [.s sa] o.m (s.core c).vec.v vd (grpElems o.fmt (grpCount o.g))
      (fun j => decide (j < ((s.task c t).s.get sa).toNat))))

/-- VMUL (R60, R147). -/
def execVmul (h : Hd) (o : VOpt) (vd va : VReg) (b : VSrc) (s : State) : Res :=
  vec2 h o vd va b intFmt (fun _ w x y => VRes.int (wrapRes (fmtSigned o.fmt) w (elemInt o.fmt w x * elemInt o.fmt w y))) s

/-- VMULS (R60, R147). -/
def execVmuls (h : Hd) (o : VOpt) (vd va : VReg) (b : VSrc) (s : State) : Res :=
  vec2 h o vd va b intFmt (fun _ w x y => VRes.int (satRes (fmtSigned o.fmt) w (elemInt o.fmt w x * elemInt o.fmt w y))) s

/-- VQMUL: exact product, rounded, then saturated (R147). -/
def execVqmul (h : Hd) (o : VOpt) (vd va : VReg) (b : VSrc) (rm : RMode) (s : State) : Res :=
  vec2 h o vd va b intFmt (fun _ w x y => satCode o.fmt (rndQ (elemInt o.fmt w x * elemInt o.fmt w y) (2 ^ (w - 1)) rm)) s

/-- VADDW (R128, R147). -/
def execVaddw (h : Hd) (o : VOpt) (vd va : VReg) (b : VSrc) (s : State) : Res :=
  vecWide h o vd va b (fun x y => x + y) s

/-- VSUBW (R128, R147). -/
def execVsubw (h : Hd) (o : VOpt) (vd va : VReg) (b : VSrc) (s : State) : Res :=
  vecWide h o vd va b (fun x y => x - y) s

/-- VMULW (R128, R147). -/
def execVmulw (h : Hd) (o : VOpt) (vd va : VReg) (b : VSrc) (s : State) : Res :=
  vecWide h o vd va b (fun x y => x * y) s

/-- VNRSHR: a rounding right shift from 2w to w, saturated; the wide source is signed as the narrow format is
(R128, R147). -/
def execVnrshr (h : Hd) (o : VOpt) (vd va : VReg) (n : Fin 64) (rm : RMode) (s : State) : Res :=
  .next (s.issue h (fun s c _ =>
    let vs := (s.core c).vec.v
    let g := grpCount o.g
    let w := laneBits o.fmt
    let a := grpVal vs va (2 * g)
    vecOp .va (!narrowFmt o.fmt || grpBad va (2 * g) || grpOverlap vd g va (2 * g)) (grpNames va (2 * g)) o.m vs vd g w
      (grpElems o.fmt g) (fun j => satCode o.fmt (rshrI (intVal (fmtSigned o.fmt) (2 * w) (lane a (2 * w) j)) n rm)) (2 * g)))

/-- Formats VCVT converts between (R126). -/
def cvtFmt : Fmt → Bool
  | .e4m3 | .e5m2 => true
  | f => arithFmt f

/-- VCVT: FMT is the destination; an integer destination takes its zero point from a scalar; groups by R128
(R53, R147). -/
def execVcvt (h : Hd) (o : VOpt) (vd va : VReg) (srcFmt : Fmt) (zp : Option SReg) (s : State) : Res :=
  .next (s.issue h (fun s c t =>
    let k := s.task c t
    let vs := (s.core c).vec.v
    let g := grpCount o.g
    let wd := laneBits o.fmt
    let ws := laneBits srcFmt
    let low := max 1 (min wd ws)
    let gd := g * (wd / low)
    let gs := g * (ws / low)
    let a := grpVal vs va gs
    let z : Int := match zp with
      | some r => zpOf o.fmt (k.s.get r).toNat
      | none => 0
    vecOp .va (!cvtFmt o.fmt || !cvtFmt srcFmt || (fmtInt o.fmt != zp.isSome) || grpBad va gs
        || (gd != gs && grpOverlap vd gd va gs))
      (grpNames va gs ++ (match zp with | some r => [.s r] | none => [])) o.m vs vd gd wd (4096 * g / low)
      (fun j => VRes.conv (toCode k.arith o.fmt z (decodeVal srcFmt (lane a ws j)))) gs))

/-- VMAC: each product exact, each addition saturating at 48 bits (R130, R148). -/
def execVmac (h : Hd) (o : VOpt) (ak : AReg) (va vb : VReg) (fmtB : Fmt) (s : State) : Res :=
  .next (s.issue h (fun s c _ =>
    macOp ak o va fmtB false [.v vb] (fun j => lane ((s.core c).vec.v.get vb).toNat (laneBits fmtB) j) s c))

/-- VMACS: VMAC with a scalar second source (R147). -/
def execVmacs (h : Hd) (o : VOpt) (ak : AReg) (va : VReg) (sb : SReg) (fmtB : Fmt) (s : State) : Res :=
  .next (s.issue h (fun s c t =>
    macOp ak o va fmtB false [.s sb] (fun _ => ((s.task c t).s.get sb).toNat % 2 ^ laneBits fmtB) s c))

/-- VACLR: all 512 lanes become 0 (R147). -/
def execVaclr (h : Hd) (ak : AReg) (s : State) : Res :=
  .next (s.issue h (fun _ _ _ => { slot := .va, writes := [.a ak], out := .ok [.a ak 0] }))

/-- VARSHR: a rounding shift of the accumulator lanes in use, saturated; to FP32 the shifted integer is rounded to nearest even
(R53, R147). -/
def execVarshr (h : Hd) (o : VOpt) (vd : VReg) (ak : AReg) (n : Fin 64) (rm : RMode) (s : State) : Res :=
  accNarrow h o vd ak false [] (fun k x => VRes.conv (toCode k.arith o.fmt 0 (valInt (rshrI x n rm)))) s

/-- The conversion of VRESCALE: multiplier `m`, shift `n` and a zero point (R58, R59). The spec gives shifts of 0..63 only: beyond
them the quotient that the zero point is added to is a free value over 2^63: DESIGN CHOICE (log 12). -/
def rescaleConv (ctl : ArithCtl) (f : Fmt) (x : Int) (m n : Nat) (zp : Int) : Conv :=
  if n < 64 then rescale ctl f x m n zp
  else
    let t := Config.rescaleOver x m n
    toCode ctl f zp (.fin (decide (t < 0)) t.natAbs (2 ^ 63))

/-- VRESCALE: the lanes in use rescaled with multiplier sm, shift sn, zero point s[sn + 1]; an odd sn has no encoding (R53, R59,
R147, R177). -/
def execVrescale (h : Hd) (o : VOpt) (vd : VReg) (ak : AReg) (sm sn : SReg) (s : State) : Res :=
  accNarrow h o vd ak (!isEven sn) [.s sm, .s sn, .s (nextReg sn)]
    (fun k x => VRes.conv (rescaleConv k.arith o.fmt x (k.s.get sm).toNat (k.s.get sn).toNat
      (zpOf o.fmt (k.s.get (nextReg sn)).toNat))) s

/-- VFADD (R46, R149). -/
def execVfadd (h : Hd) (o : VOpt) (vd va : VReg) (b : VSrc) (s : State) : Res :=
  vecFloat h o vd va b addVal s

/-- VFSUB (R46, R149). -/
def execVfsub (h : Hd) (o : VOpt) (vd va : VReg) (b : VSrc) (s : State) : Res :=
  vecFloat h o vd va b (fun x y => addVal x (negVal y)) s

/-- VFMUL (R46, R149). -/
def execVfmul (h : Hd) (o : VOpt) (vd va : VReg) (b : VSrc) (s : State) : Res :=
  vecFloat h o vd va b mulVal s

/-- VFMA: a × b + c with a single rounding (R149). -/
def execVfma (h : Hd) (o : VOpt) (vd va : VReg) (b : VSrc) (vc : VReg) (s : State) : Res :=
  .next (s.issue h (fun s c t =>
    let k := s.task c t
    let vs := (s.core c).vec.v
    let g := grpCount o.g
    let w := laneBits o.fmt
    let a := grpVal vs va g
    let add := grpVal vs vc g
    vecOp .va (!floatFmt o.fmt || grpBad va g || grpBad vc g || !vsrcAligned g b)
      (grpNames va g ++ grpNames vc g ++ vsrcReads g b) o.m vs vd g w (grpElems o.fmt g)
      (fun j => VRes.conv (fpResult k.arith o.fmt (addVal
        (mulVal (decodeVal o.fmt (lane a w j)) (decodeVal o.fmt (vsrcLane k vs g w b j)))
        (decodeVal o.fmt (lane add w j)))))))

/-- VFMIN (R149). -/
def execVfmin (h : Hd) (o : VOpt) (vd va : VReg) (b : VSrc) (s : State) : Res :=
  vec2 h o vd va b floatFmt (fun _ _ x y => VRes.plain (minMaxCode o.fmt (fun a b => belowVal b a) x y)) s

/-- VFMAX (R149). -/
def execVfmax (h : Hd) (o : VOpt) (vd va : VReg) (b : VSrc) (s : State) : Res :=
  vec2 h o vd va b floatFmt (fun _ _ x y => VRes.plain (minMaxCode o.fmt belowVal x y)) s

/-- VLERP: a + (b − a) × f / 65536, exact before its rounding (R155). -/
def execVlerp (h : Hd) (o : VOpt) (vd va : VReg) (b : VSrc) (sf : SReg) (rm : RMode) (s : State) : Res :=
  .next (s.issue h (fun s c t =>
    let k := s.task c t
    let vs := (s.core c).vec.v
    let g := grpCount o.g
    let w := laneBits o.fmt
    let a := grpVal vs va g
    let f : Int := ((k.s.get sf).toNat % 2 ^ 16 : Nat)
    let ok := o.fmt == .u8 || o.fmt == .u16 || o.fmt == .s16
    vecOp .va (!ok || grpBad va g || !vsrcAligned g b) (.s sf :: grpNames va g ++ vsrcReads g b) o.m vs vd g w
      (grpElems o.fmt g)
      (fun j =>
        let x := elemInt o.fmt w (lane a w j)
        let y := elemInt o.fmt w (vsrcLane k vs g w b j)
        satCode o.fmt (rndQ (x * 65536 + (y - x) * f) 65536 rm))))

/-- VCUBIC over the four rows of a group aligned to 4 (R156, R177). -/
def execVcubic (h : Hd) (o : VOpt) (vd vs : VReg) (sf : SReg) (rm : RMode) (s : State) : Res :=
  .next (s.issue h (fun s c t =>
    let k := s.task c t
    let regs := (s.core c).vec.v
    let w := laneBits o.fmt
    let row (i : Nat) : Nat := (regs.get (Fin.ofNat 32 (vs.val + i))).toNat
    let (m1, w0, p1, p2) := cubicW ((k.s.get sf).toNat % 2 ^ 16)
    let ok := o.fmt == .u8 || o.fmt == .u16 || o.fmt == .s16
    vecOp .va (!ok || o.g != .g1 || grpBad vs 4) (.s sf :: grpNames vs 4) o.m regs vd 1 w (grpElems o.fmt 1)
      (fun j =>
        let x (i : Nat) : Int := elemInt o.fmt w (lane (row i) w j)
        satCode o.fmt (rndQ (m1 * x 0 + w0 * x 1 + p1 * x 2 + p2 * x 3) 16384 rm))))

/-- VCLASS: 2, 1 or 0 by the high threshold sb and the low threshold sa, compared in the format (R157). -/
def execVclass (h : Hd) (o : VOpt) (vd vs : VReg) (sa sb : SReg) (s : State) : Res :=
  .next (s.issue h (fun s c t =>
    let k := s.task c t
    let regs := (s.core c).vec.v
    let g := grpCount o.g
    let w := laneBits o.fmt
    let a := grpVal regs vs g
    let lo := decodeVal o.fmt ((k.s.get sa).toNat % 2 ^ w)
    let hi := decodeVal o.fmt ((k.s.get sb).toNat % 2 ^ w)
    let atLeast (x y : Val) : Bool := ltVal y x || eqVal x y
    vecOp .va (!arithFmt o.fmt || grpBad vs g) (.s sa :: .s sb :: grpNames vs g) o.m regs vd g w (grpElems o.fmt g)
      (fun j =>
        let x := decodeVal o.fmt (lane a w j)
        VRes.plain (if atLeast x hi then 2 else if atLeast x lo && ltVal x hi then 1 else 0))))

end Sys2Proof.Machine
end

