-- ==== Sys2Proof/Machine/VecMem.lean ====
section
/-! DEFINITION. Vector memory operations (04 R141..R146; 05 R179): the VL and VS slots. -/

namespace Sys2Proof.Machine

/-- Bits a beat moves: 1,024, or 512 in half-width mode (R134, R138). -/
def State.beatBits (s : State) (c : CoreId) : Nat := if s.on Reg.CORE_VEC_CTRL_HALF c 0 then 512 else 1024

/-- The bytes an element of `width` bits takes, from a task-relative base: first byte and count. -/
def elemSpan (a width j : Nat) : Nat × Nat :=
  (a + j * width / 8, (j * width % 8 + width + 7) / 8)

/-- The window check of a contiguous access: the first byte of the lowest failing active element (R141). -/
def State.contFault (s : State) (c : CoreId) (t : TaskId) (a width : Nat) (js : List Nat) : Option Nat :=
  (js.find? (fun j => !s.inWin c t (elemSpan a width j).1 (elemSpan a width j).2)).map (fun j => (elemSpan a width j).1)

/-- The elements of a contiguous access; the beat of element `j` issues `j × lane bits / beat bits` after X. -/
def State.contElems (s : State) (c : CoreId) (t : TaskId) (a width lanew : Nat) (js : List Nat) (code : Nat → Nat) :
    List VElem :=
  js.map (fun j => { j := j, bit := s.granOff c t a * 8 + j * width, cc := j * lanew / s.beatBits c, code := code j })

/-- A contiguous load or store of the elements `js` of a group of `group` registers (R134, R141, R142). -/
def State.contOp (s : State) (c : CoreId) (t : TaskId) (slot : Slot) (illegal : Bool) (reads writes : List RName)
    (m : MAddr) (width lanew : Nat) (js : List Nat) (code : Nat → Nat) (group : Nat) (fx : List VElem → List Fx) : Op :=
  let k := s.task c t
  let a := (addrOf k m).toNat
  { slot := slot, illegal := illegal, reads := reads ++ addrReads m, writes := writes ++ addrWrites m, group := group,
    out := match s.contFault c t a width js with
      | some b => .fault causeBound (some (BitVec.ofNat 32 b)) false
      | none => .ok (fx (s.contElems c t a width lanew js code) ++ addrFx k m) }

/-- VLD: N elements, 4-bit and 12-bit codes unpacked (R142). -/
def execVld (h : Hd) (vd : VReg) (m : MAddr) (o : VOpt) (s : State) : Res :=
  .next (s.issue h (fun s c t =>
    let vs := (s.core c).vec.v
    let g := grpCount o.g
    let js := (List.range (grpElems o.fmt g)).filter (active o.m (maskReg vs))
    s.contOp c t .vl (!memFmt o.fmt || grpBad vd g || (o.m && grpHolds31 vd g)) (maskReads o.m) (grpNames vd g) m
      (fmtBits o.fmt) (laneBits o.fmt) js (fun _ => 0) g
      (fun es => if es.isEmpty then [] else [.vload (.regs vd g o.fmt (laneBits o.fmt)) (fmtBits o.fmt) false es])))

/-- VST: N elements; packing to U4, S4 or U12 passes each through sat (R142). -/
def execVst (h : Hd) (v : VReg) (m : MAddr) (o : VOpt) (s : State) : Res :=
  .next (s.issue h (fun s c t =>
    let vs := (s.core c).vec.v
    let g := grpCount o.g
    let w := laneBits o.fmt
    let x := grpVal vs v g
    let js := (List.range (grpElems o.fmt g)).filter (active o.m (maskReg vs))
    let f (j : Nat) : VRes :=
      if w = fmtBits o.fmt then VRes.plain (lane x w j) else satCode o.fmt (elemInt o.fmt w (lane x w j))
    let act := active o.m (maskReg vs)
    s.contOp c t .vs (!memFmt o.fmt || grpBad v g) (grpNames v g ++ maskReads o.m) [] m (fmtBits o.fmt) w js
      (fun j => (f j).code) g
      (fun es => .vstore (fmtBits o.fmt) false es :: vecFlags (grpElems o.fmt g) act f)))

/-- VALD: 512 lanes of 6 bytes (R142). -/
def execVald (h : Hd) (ak : AReg) (m : MAddr) (s : State) : Res :=
  .next (s.issue h (fun s c t =>
    s.contOp c t .vl false [] [.a ak] m 48 48 (List.range 512) (fun _ => 0) 6
      (fun es => [.vload (.acc ak) 48 false es])))

/-- VAST: 512 lanes of 6 bytes (R142). -/
def execVast (h : Hd) (ak : AReg) (m : MAddr) (s : State) : Res :=
  .next (s.issue h (fun s c t =>
    let x := ((s.core c).vec.a.get ak).toNat
    s.contOp c t .vs false [.a ak] [] m 48 48 (List.range 512) (fun j => lane x 48 j) 6
      (fun es => [.vstore 48 false es])))

/-- A gather or scatter (R143, R144, R145): the active elements from VSTART up, checked for the window and then for
alignment; the elements below the first that fails are performed. The cc at which each issues are found at X (State.settle). -/
def State.indexedOp (s : State) (c : CoreId) (t : TaskId) (store : Bool) (v : VReg) (p : PReg) (vi : VReg) (o : VOpt) :
    Op :=
  let k := s.task c t
  let vs := (s.core c).vec.v
  let g := grpCount o.g
  let w := fmtBits o.fmt
  let n := grpElems o.fmt g
  let gi := g * 32 / max 1 w
  let act := active o.m (maskReg vs)
  let start := ((s.core c).vec.vstart).toNat
  let js := (List.range n).filter (fun j => act j && decide (start ≤ j))
  let idx := grpVal vs vi gi
  let addr (j : Nat) : Word := k.p.get p + BitVec.ofNat 32 (lane idx 32 j)
  let bound (j : Nat) : Bool := !s.inWin c t (addr j).toNat (w / 8)
  let fails (j : Nat) : Bool := bound j || decide ((addr j).toNat % (w / 8) ≠ 0)
  let bad := js.find? fails
  let run := match bad with
    | some i => js.filter (fun j => j < i)
    | none => js
  let x := grpVal vs v g
  let es : List VElem := run.map (fun j => { j := j, bit := s.granOff c t (addr j).toNat * 8, cc := 0, code := lane x w j })
  let fx : List Fx := if es.isEmpty then [] else [if store then .vstore w true es else .vload (.regs v g o.fmt w) w true es]
  let illegal := !byteFmt o.fmt || grpBad v g || grpBad vi (max 1 gi) || (!store && o.m && grpHolds31 v g)
  { slot := if store then .vs else .vl, illegal := illegal, group := g, indexed := true,
    reads := .p p :: .vstart :: .vfault :: grpNames vi gi ++ (if store then grpNames v g else []) ++ maskReads o.m,
    writes := .vstart :: .vfault :: (if store then [] else grpNames v g),
    out := match bad with
      | none => .ok (.vstart 0 :: fx)
      | some i =>
        .velem (.vstart (BitVec.ofNat 32 i) ::
            .vfault (BitVec.ofNat 32 (i + (if bound i then 1 else 2) * 2 ^ 12 + bit01 store * 2 ^ 16 + 2 ^ 31)) :: fx)
          (addr i) }

/-- VGATHER (R144). -/
def execVgather (h : Hd) (vd : VReg) (p : PReg) (vi : VReg) (o : VOpt) (s : State) : Res :=
  .next (s.issue h (fun s c t => s.indexedOp c t false vd p vi o))

/-- VSCATTER (R144). -/
def execVscatter (h : Hd) (v : VReg) (p : PReg) (vi : VReg) (o : VOpt) (s : State) : Res :=
  .next (s.issue h (fun s c t => s.indexedOp c t true v p vi o))

end Sys2Proof.Machine
end

