-- ==== Sys2Proof/Machine/VecPerm.lean ====
section
/-! DEFINITION. Vector permutes and reductions (04 R131, R132, R150..R154, R158; 05 R178): the VP and VR slots. -/

namespace Sys2Proof.Machine

/-- The shift of a permute: an immediate or a whole scalar, unsigned (R150). -/
def shiftOf (k : Task) : VShift → Nat
  | .imm x => x.toNat
  | .scl r => (k.s.get r).toNat

/-- The registers a shift reads. -/
def shiftReads : VShift → List RName
  | .imm _ => []
  | .scl r => [.s r]

/-- A permute of one group and `n` elements of width `w`; `f` takes the task, the group's value and the element. Every format that
names an element width is accepted, the memory-only ones too: DESIGN CHOICE, here and in VSEL, VSPAN, VMCOUNT and VMFIND (log 12). -/
def vecPerm (h : Hd) (o : VOpt) (m : Bool) (vd va : VReg) (bad : Nat → Bool) (reads : Nat → List RName)
    (f : Task → Vector VWord 32 → Nat → Nat → Nat → Nat → Nat) (s : State) : Res :=
  .next (s.issue h (fun s c t =>
    let k := s.task c t
    let vs := (s.core c).vec.v
    let g := grpCount o.g
    let w := laneBits o.fmt
    let n := grpElems o.fmt g
    let a := grpVal vs va g
    vecOp .vp (!memFmt o.fmt || grpBad va g || bad g) (grpNames va g ++ reads g) m vs vd g w n
      (fun j => VRes.plain (f k vs a w n j))))

/-- VLANEUP; M is ignored (R150). -/
def execVlaneup (h : Hd) (o : VOpt) (vd vs : VReg) (k : VShift) (s : State) : Res :=
  vecPerm h o false vd vs (fun _ => false) (fun _ => shiftReads k)
    (fun t _ a w _ j => if shiftOf t k ≤ j then lane a w (j - shiftOf t k) else 0) s

/-- VLANEDN; M is ignored (R150). -/
def execVlanedn (h : Hd) (o : VOpt) (vd vs : VReg) (k : VShift) (s : State) : Res :=
  vecPerm h o false vd vs (fun _ => false) (fun _ => shiftReads k)
    (fun t _ a w n j => if j + shiftOf t k < n then lane a w (j + shiftOf t k) else 0) s

/-- VJOIN of a group and the group that follows it; a shift above N gives all zero (R150, R178). Groups that would pass v31 are
ILLEGAL: DESIGN CHOICE, the spec does not state the case (log 12). -/
def execVjoin (h : Hd) (o : VOpt) (vd va : VReg) (k : VShift) (s : State) : Res :=
  vecPerm h o false vd va (fun g => decide (32 < va.val + 2 * g))
    (fun g => grpNames (Fin.ofNat 32 (va.val + g)) g ++ shiftReads k)
    (fun t vs a w n j =>
      let x := j + shiftOf t k
      let g := n * w / 4096
      if n < shiftOf t k then 0
      else if x < n then lane a w x else lane (grpVal vs (Fin.ofNat 32 (va.val + g)) g) w (x - n)) s

/-- VPERM by a group of unsigned indices of the same width (R150). -/
def execVperm (h : Hd) (o : VOpt) (vd vs vi : VReg) (s : State) : Res :=
  vecPerm h o o.m vd vs (fun g => grpBad vi g) (fun g => grpNames vi g)
    (fun _ regs a w n j =>
      let i := lane (grpVal regs vi (n * w / 4096)) w j
      if i < n then lane a w i else 0) s

/-- VWEAVE interleaves two groups into one of 2G; M is ignored (R150). -/
def execVweave (h : Hd) (o : VOpt) (vd va vb : VReg) (s : State) : Res :=
  .next (s.issue h (fun s c _ =>
    let vs := (s.core c).vec.v
    let g := grpCount o.g
    let w := laneBits o.fmt
    let a := grpVal vs va g
    let b := grpVal vs vb g
    vecOp .vp (!memFmt o.fmt || grpBad va g || grpBad vb g) (grpNames va g ++ grpNames vb g) false vs vd (2 * g) w
      (2 * grpElems o.fmt g) (fun j => VRes.plain (if j % 2 = 0 then lane a w (j / 2) else lane b w (j / 2)))))

/-- VSPLIT: the even elements, then the odd ones; M is ignored (R150). -/
def execVsplit (h : Hd) (o : VOpt) (vd va : VReg) (s : State) : Res :=
  vecPerm h o false vd va (fun _ => false) (fun _ => [])
    (fun _ _ a w n j => if j < n / 2 then lane a w (2 * j) else lane a w (2 * (j - n / 2) + 1)) s

/-- VBCAST: the low bits of a scalar (R150). -/
def execVbcast (h : Hd) (o : VOpt) (vd : VReg) (sa : SReg) (s : State) : Res :=
  .next (s.issue h (fun s c t =>
    let g := grpCount o.g
    let w := laneBits o.fmt
    vecOp .vp (!memFmt o.fmt) [.s sa] o.m (s.core c).vec.v vd g w (grpElems o.fmt g)
      (fun _ => VRes.plain (((s.task c t).s.get sa).toNat % 2 ^ w))))

/-- VMVVS: an element to a scalar, sign- or zero-extended by the format; 0 past the group (R150). -/
def execVmvvs (h : Hd) (o : VOpt) (sd : SReg) (vs : VReg) (sb : SReg) (s : State) : Res :=
  .next (s.issue h (fun s c t =>
    let regs := (s.core c).vec.v
    let g := grpCount o.g
    let w := laneBits o.fmt
    let i := ((s.task c t).s.get sb).toNat
    let x : Int := if i < grpElems o.fmt g then elemInt o.fmt w (lane (grpVal regs vs g) w i) else 0
    vecToScalar .vp (!memFmt o.fmt || grpBad vs g) (.s sb :: grpNames vs g) o.m [(sd, BitVec.ofInt 32 x)] [] g))

/-- VMVSV: a scalar to one element; the others keep their values (R150). -/
def execVmvsv (h : Hd) (o : VOpt) (vd : VReg) (sa sb : SReg) (s : State) : Res :=
  .next (s.issue h (fun s c t =>
    let k := s.task c t
    let vs := (s.core c).vec.v
    let g := grpCount o.g
    let w := laneBits o.fmt
    let old := grpVal vs vd g
    vecOp .vp (!memFmt o.fmt) [.s sa, .s sb] o.m vs vd g w (grpElems o.fmt g)
      (fun j => VRes.plain (if j = (k.s.get sb).toNat then (k.s.get sa).toNat % 2 ^ w else lane old w j))))

/-- VPACK: the elements chosen by vm, packed in order; the rest become 0 (R150). -/
def execVpack (h : Hd) (o : VOpt) (vd vs vm : VReg) (s : State) : Res :=
  .next (s.issue h (fun s c _ =>
    let regs := (s.core c).vec.v
    let g := grpCount o.g
    let w := laneBits o.fmt
    let a := grpVal regs vs g
    let n := grpElems o.fmt g
    let kept := ((List.range n).filter (fun j => (regs.get vm).getLsbD j)).map (fun j => lane a w j)
    vecOp .vp (!memFmt o.fmt || grpBad vs g) (.v vm :: grpNames vs g) false regs vd g w n
      (fun j => VRes.plain (kept.getD j 0))))

/-- One butterfly stage over FP32 codes (R151). -/
def hadStage (s : Nat) (xs : List Nat) : List Nat :=
  (List.range xs.length).map (fun i =>
    if i / 2 ^ s % 2 = 0 then addFp32 (xs.getD i 0) (xs.getD (i + 2 ^ s) 0)
    else encodeFp32 (addVal (decodeVal .fp32 (xs.getD (i - 2 ^ s) 0)) (negVal (decodeVal .fp32 (xs.getD i 0)))))

/-- The Hadamard rotation of FP32 codes in blocks of 2 ^ `lg` (R151). -/
def hadFp32 (lg : Nat) (xs : List Nat) : List Nat := (List.range lg).foldl (fun ys s => hadStage s ys) xs

/-- VHAD: blocks of 16, 32, 64 or 128; S16 and S32 with one rounding shift, FP32 with a scale (R151, R178). -/
def execVhad (h : Hd) (o : VOpt) (vd vs : VReg) (block : BitVec 2) (n : BitVec 3) (rm : RMode) (sc : Option SReg)
    (s : State) : Res :=
  .next (s.issue h (fun s c t =>
    let k := s.task c t
    let regs := (s.core c).vec.v
    let g := grpCount o.g
    let w := laneBits o.fmt
    let a := grpVal regs vs g
    let cnt := grpElems o.fmt g
    let b := 16 * 2 ^ block.toNat
    let fp := o.fmt == .fp32
    let ok := o.fmt == .s16 || o.fmt == .s32 || fp
    let scale : Nat := match sc with
      | some r => (k.s.get r).toNat
      | none => 0
    let out := if fp then hadFp32 (4 + block.toNat) ((List.range cnt).map (fun j => lane a w j)) else []
    vecOp .vp (!ok || o.m || decide (cnt < b) || (fp != sc.isSome) || (fp && (n != 0 || rm != .rne)) || grpBad vs g)
      (grpNames vs g ++ (match sc with | some r => [.s r] | none => [])) false regs vd g w cnt
      (fun j =>
        if fp then VRes.plain (mulFp32 (out.getD j 0) scale)
        else satCode o.fmt (rshrI (hadSum (fun i => elemInt o.fmt w (lane a w (j / b * b + i))) b (j % b)) n.toNat rm))))

/-- Whether an element of a growth step is seeded (R158). -/
def growSeed (x n : Nat → Nat) (cnt j : Nat) : Bool :=
  let nb (i : Nat) : Bool := decide (i < cnt) && n i == 2
  x j == 2 || (decide (1 ≤ x j) && ((decide (1 ≤ j) && nb (j - 1)) || nb j || nb (j + 1)))

/-- Whether the run that ends at element `j` from the left holds a seed. -/
def growRun (x n : Nat → Nat) (cnt : Nat) : Nat → Bool
  | 0 => decide (1 ≤ x 0) && growSeed x n cnt 0
  | j + 1 => decide (1 ≤ x (j + 1)) && (growSeed x n cnt (j + 1) || growRun x n cnt j)

/-- VGROW: a run of codes of at least 1 that holds a seed becomes 2; M is ignored (R158). -/
def execVgrow (h : Hd) (o : VOpt) (vd vs vn : VReg) (s : State) : Res :=
  .next (s.issue h (fun s c _ =>
    let regs := (s.core c).vec.v
    let g := grpCount o.g
    let w := laneBits o.fmt
    let cnt := grpElems o.fmt g
    let a := grpVal regs vs g
    let b := grpVal regs vn g
    let x (j : Nat) : Nat := lane a w j
    let n (j : Nat) : Nat := lane b w j
    let left := growRun x n cnt
    let right := growRun (fun j => x (cnt - 1 - j)) (fun j => if j < cnt then n (cnt - 1 - j) else 0) cnt
    vecOp .vp ((o.fmt != .u8 && o.fmt != .u16) || grpBad vs g || grpBad vn g) (grpNames vs g ++ grpNames vn g) false regs
      vd g w cnt (fun j => VRes.plain (if left j || right (cnt - 1 - j) then 2 else x j))))

/-- The shape word of the V6 (R132): 512 lanes of 8 bits, 2^3 lines a register, 512 accumulator lanes. -/
def shapeWord : Nat := 512 + 3 * 2 ^ 16 + 512 * 2 ^ 20

/-- VMVSC reads VSTART, VFAULT or the shape word (R131, R132). -/
def execVmvsc (h : Hd) (sd : SReg) (sel : VSel) (s : State) : Res :=
  .next (s.issue h (fun s c _ =>
    let v := (s.core c).vec
    match sel with
    | .vstart => vecToScalar .vp false [.vstart] false [(sd, v.vstart)] []
    | .vfault => vecToScalar .vp false [.vfault] false [(sd, v.vfault)] []
    | .shape => vecToScalar .vp false [] false [(sd, BitVec.ofNat 32 shapeWord)] []))

/-- VMVCS writes VSTART or VFAULT; reserved bits are ignored and VALID is cleared (R131). -/
def execVmvcs (h : Hd) (fault : Bool) (sa : SReg) (s : State) : Res :=
  .next (s.issue h (fun s c t =>
    let x := (s.task c t).s.get sa
    { slot := .vp, reads := [.s sa], writes := [if fault then .vfault else .vstart],
      out := .ok [if fault then .vfault (x &&& 0x0001_FFFF) else .vstart (x &&& 0x0000_0FFF)] }))

/-- The active elements of a group, as numbers. -/
def activeList (m : Bool) (vs : Vector VWord 32) (n : Nat) : List Nat := (List.range n).filter (active m (maskReg vs))

/-- VRSUM: integers summed exactly and saturated to S32; FP32 summed in element order, each addition rounded (R152). -/
def execVrsum (h : Hd) (o : VOpt) (sd : SReg) (vs : VReg) (s : State) : Res :=
  .next (s.issue h (fun s c _ =>
    let regs := (s.core c).vec.v
    let g := grpCount o.g
    let w := laneBits o.fmt
    let a := grpVal regs vs g
    let js := activeList o.m regs (grpElems o.fmt g)
    if o.fmt = .fp32 then
      let r := match js with
        | [] => 0
        | j :: rest => rest.foldl (fun x i => addFp32 x (lane a w i)) (encodeFp32 (decodeVal .fp32 (lane a w j)))
      vecToScalar .vr (grpBad vs g) (grpNames vs g) o.m [(sd, BitVec.ofNat 32 r)] [] g
    else
      let r := satRes true 32 (js.foldl (fun (x : Int) j => x + elemInt o.fmt w (lane a w j)) 0)
      vecToScalar .vr (!intFmt o.fmt || grpBad vs g) (grpNames vs g) o.m [(sd, BitVec.ofNat 32 r.code)]
        (if r.ov then [.arith .vec true false 1 0] else []) g))

/-- VRMAXI and VRMINI: the extreme of the active elements and its lowest index continue a running extreme (R153). -/
def runningVec (h : Hd) (o : VOpt) (sd : SReg) (vs : VReg) (sb : SReg) (better : Int → Int → Bool) (s : State) : Res :=
  .next (s.issue h (fun s c t =>
    let k := s.task c t
    let regs := (s.core c).vec.v
    let g := grpCount o.g
    let w := laneBits o.fmt
    let a := grpVal regs vs g
    let pick : Option (Int × Nat) := (activeList o.m regs (grpElems o.fmt g)).foldl (fun best j =>
      let x := elemInt o.fmt w (lane a w j)
      match best with
      | none => some (x, j)
      | some (m, i) => if better x m then some (x, j) else some (m, i)) none
    let cur : Int := intVal (fmtSigned o.fmt) 32 (k.s.get sd).toNat
    let (x, y) : Word × Word := match pick with
      | some (m, j) => if better m cur then (BitVec.ofInt 32 m, k.s.get sb + BitVec.ofNat 32 j)
          else (k.s.get sd, k.s.get (nextReg sd))
      | none => (k.s.get sd, k.s.get (nextReg sd))
    vecToScalar .vr (!intFmt o.fmt || grpBad vs g || !isEven sd) (.s sd :: .s (nextReg sd) :: .s sb :: grpNames vs g) o.m
      [(sd, x), (nextReg sd, y)] [] g))

/-- VRMAXI (R153). -/
def execVrmaxi (h : Hd) (o : VOpt) (sd : SReg) (vs : VReg) (sb : SReg) (s : State) : Res :=
  runningVec h o sd vs sb (fun a b => decide (b < a)) s

/-- VRMINI (R153). -/
def execVrmini (h : Hd) (o : VOpt) (sd : SReg) (vs : VReg) (sb : SReg) (s : State) : Res :=
  runningVec h o sd vs sb (fun a b => decide (a < b)) s

/-- VARSUM: the exact sum of the accumulator lanes in use, as a 64-bit value in a pair (R130, R152). -/
def execVarsum (h : Hd) (o : VOpt) (sd : SReg) (ak : AReg) (s : State) : Res :=
  .next (s.issue h (fun s c _ =>
    let acc := ((s.core c).vec.a.get ak).toNat
    let js := activeList o.m (s.core c).vec.v (grpElems o.fmt 1)
    let t : Int := js.foldl (fun (x : Int) j => x + sgn 48 (lane acc 48 j)) 0
    vecToScalar .vr (!intFmt o.fmt || o.g != .g1 || !isEven sd) [.a ak] o.m
      [(sd, BitVec.ofInt 32 t), (nextReg sd, BitVec.ofInt 32 (t / 2 ^ 32))] []))

/-- VMCOUNT: set bits below N among the active ones (R152). -/
def execVmcount (h : Hd) (o : VOpt) (sd : SReg) (vm : VReg) (s : State) : Res :=
  .next (s.issue h (fun s c _ =>
    let vs := (s.core c).vec.v
    let hits := (activeList o.m vs (grpElems o.fmt (grpCount o.g))).filter (fun j => (vs.get vm).getLsbD j)
    vecToScalar .vr (!memFmt o.fmt) [.v vm] o.m [(sd, BitVec.ofNat 32 hits.length)] []))

/-- VMFIND: the lowest set bit below N, or all ones (R152). -/
def execVmfind (h : Hd) (o : VOpt) (sd : SReg) (vm : VReg) (s : State) : Res :=
  .next (s.issue h (fun s c _ =>
    let vs := (s.core c).vec.v
    let hit := (activeList o.m vs (grpElems o.fmt (grpCount o.g))).find? (fun j => (vs.get vm).getLsbD j)
    vecToScalar .vr (!memFmt o.fmt) [.v vm] o.m [(sd, BitVec.ofNat 32 (hit.getD 0xFFFFFFFF))] []))

/-- VSCAN: the saturated prefix sum of the active elements (R152). -/
def execVscan (h : Hd) (o : VOpt) (vd vs : VReg) (s : State) : Res :=
  .next (s.issue h (fun s c _ =>
    let regs := (s.core c).vec.v
    let g := grpCount o.g
    let w := laneBits o.fmt
    let a := grpVal regs vs g
    let act := active o.m (maskReg regs)
    vecOp .vr (!intFmt o.fmt || grpBad vs g) (grpNames vs g) o.m regs vd g w (grpElems o.fmt g)
      (fun j => VRes.int (satRes (fmtSigned o.fmt) w
        ((List.range (j + 1)).foldl (fun (x : Int) i => if act i then x + elemInt o.fmt w (lane a w i) else x) 0)))))

/-- VCRC16: the CRC of each 64 B line of a register, continued from lane k (R154). -/
def execVcrc16 (h : Hd) (vd vs : VReg) (sb : SReg) (ref : Bool) (s : State) : Res :=
  .next (s.issue h (fun s c t =>
    let regs := (s.core c).vec.v
    let x := (regs.get vs).toNat
    let old := (regs.get vd).toNat
    let poly := ((s.task c t).s.get sb).toNat % 2 ^ 16
    vecOp .vr false [.v vs, .s sb] false regs vd 1 16 256
      (fun k => VRes.plain (if k < 8 then
          crcBytes 16 ref poly (lane old 16 k) ((List.range 64).map (fun i => lane x 8 (64 * k + i)))
        else 0))))

end Sys2Proof.Machine
end

