-- ==== Sys2Proof/Machine/Dispatch.lean ====
section
/-! DEFINITION. The meaning of each command: one arm per constructor, in the order of spec/opcode_table.json. -/

namespace Sys2Proof.Machine

def exec (i : Instr) (s : State) : Host.Outcome State Fault Refusal :=
  match i with
  | .resetRelease rootEn smb1 smb0 => Sys2Proof.Machine.execResetRelease rootEn smb1 smb0 s
  | .romStart => Sys2Proof.Machine.execRomStart s
  | .fuse => Sys2Proof.Machine.execFuse s
  | .flash mib => Sys2Proof.Machine.execFlash mib s
  | .image => Sys2Proof.Machine.execImage s
  | .cfg => Sys2Proof.Machine.execCfg s
  | .clocks => Sys2Proof.Machine.execClocks s
  | .granaryInit c => Sys2Proof.Machine.execGranaryInit c s
  | .dram trainFail => Sys2Proof.Machine.execDram trainFail s
  | .links => Sys2Proof.Machine.execLinks s
  | .ready kc => Sys2Proof.Machine.execReady kc s
  | .bootPhaseTimeout => Sys2Proof.Machine.execBootPhaseTimeout s
  | .dramPgTimeout => Sys2Proof.Machine.execDramPgTimeout s
  | .watchdogExpiry => Sys2Proof.Machine.execWatchdogExpiry s
  | .mgmtResetGo => Sys2Proof.Machine.execMgmtResetGo s
  | .mgmtCfgSelGo copy => Sys2Proof.Machine.execMgmtCfgSelGo copy s
  | .cfgRepaired => Sys2Proof.Machine.execCfgRepaired s
  | .storeRequest area lines src => Sys2Proof.Machine.execStoreRequest area lines src s
  | .flashCommand senseMv => Sys2Proof.Machine.execFlashCommand senseMv s
  | .holdupRecheck senseMv => Sys2Proof.Machine.execHoldupRecheck senseMv s
  | .storeTimeout => Sys2Proof.Machine.execStoreTimeout s
  | .flashAccess op addr page => Sys2Proof.Machine.execFlashAccess op addr page s
  | .resetNFall => Sys2Proof.Machine.execResetNFall s
  | .supplyFail => Sys2Proof.Machine.execSupplyFail s
  | .railUndervoltage j => Sys2Proof.Machine.execRailUndervoltage j s
  | .railMonitorFlag j high mv => Sys2Proof.Machine.execRailMonitorFlag j high mv s
  | .thermtrip j temp => Sys2Proof.Machine.execThermtrip j temp s
  | .powerSample temps => Sys2Proof.Machine.execPowerSample temps s
  | .vcoreStep up => Sys2Proof.Machine.execVcoreStep up s
  | .regulatorRead r mv ma => Sys2Proof.Machine.execRegulatorRead r mv ma s
  | .smbReadPartId => Sys2Proof.Machine.execSmbReadPartId s
  | .smbReadUnits => Sys2Proof.Machine.execSmbReadUnits s
  | .smbReadTherm => Sys2Proof.Machine.execSmbReadTherm s
  | .smbReadDraw => Sys2Proof.Machine.execSmbReadDraw s
  | .smbReadBootStat => Sys2Proof.Machine.execSmbReadBootStat s
  | .smbReadLcState => Sys2Proof.Machine.execSmbReadLcState s
  | .smbReadMonitors => Sys2Proof.Machine.execSmbReadMonitors s
  | .smbAlertResponse => Sys2Proof.Machine.execSmbAlertResponse s
  | .registerWrite p off v => Sys2Proof.Machine.execRegisterWrite p off v s
  | .rcRead p off => Sys2Proof.Machine.execRcRead p off s
  | .seqCtrlRun c run => Sys2Proof.Machine.execSeqCtrlRun c run s
  | .seqCtrlCinv c => Sys2Proof.Machine.execSeqCtrlCinv c s
  | .haltReq c t => Sys2Proof.Machine.execHaltReq c t s
  | .releaseTask c t => Sys2Proof.Machine.execReleaseTask c t s
  | .irqSet c mask => Sys2Proof.Machine.execIrqSet c mask s
  | .timerCmpWrite c high v => Sys2Proof.Machine.execTimerCmpWrite c high v s
  | .timerMatch c => Sys2Proof.Machine.execTimerMatch c s
  | .vecCtrlWake c => Sys2Proof.Machine.execVecCtrlWake c s
  | .vecPowerDown c => Sys2Proof.Machine.execVecPowerDown c s
  | .vecWakeDone c => Sys2Proof.Machine.execVecWakeDone c s
  | .lineFetch c addr errs => Sys2Proof.Machine.execLineFetch c addr errs s
  | .storeBufferDrain c errs => Sys2Proof.Machine.execStoreBufferDrain c errs s
  | .scalarLoadReturn c errs => Sys2Proof.Machine.execScalarLoadReturn c errs s
  | .vectorLoadReturn c errs k => Sys2Proof.Machine.execVectorLoadReturn c errs k s
  | .interruptEntry c => Sys2Proof.Machine.execInterruptEntry c s
  | .taskSwitch c => Sys2Proof.Machine.execTaskSwitch c s
  | .jobTake c => Sys2Proof.Machine.execJobTake c s
  | .add h sd sa b => Sys2Proof.Machine.execAdd h sd sa b s
  | .sub h sd sa b => Sys2Proof.Machine.execSub h sd sa b s
  | .adds h sd sa b => Sys2Proof.Machine.execAdds h sd sa b s
  | .subs h sd sa b => Sys2Proof.Machine.execSubs h sd sa b s
  | .addus h sd sa b => Sys2Proof.Machine.execAddus h sd sa b s
  | .subus h sd sa b => Sys2Proof.Machine.execSubus h sd sa b s
  | .andd h sd sa b => Sys2Proof.Machine.execAndd h sd sa b s
  | .orr h sd sa b => Sys2Proof.Machine.execOrr h sd sa b s
  | .xorr h sd sa b => Sys2Proof.Machine.execXorr h sd sa b s
  | .andn h sd sa b => Sys2Proof.Machine.execAndn h sd sa b s
  | .sll h sd sa b => Sys2Proof.Machine.execSll h sd sa b s
  | .srl h sd sa b => Sys2Proof.Machine.execSrl h sd sa b s
  | .sra h sd sa b => Sys2Proof.Machine.execSra h sd sa b s
  | .ssl h sd sa b => Sys2Proof.Machine.execSsl h sd sa b s
  | .ssls h sd sa b => Sys2Proof.Machine.execSsls h sd sa b s
  | .ssr h sd sa b => Sys2Proof.Machine.execSsr h sd sa b s
  | .rshr h sd sa n rm => Sys2Proof.Machine.execRshr h sd sa n rm s
  | .minn h sd sa b => Sys2Proof.Machine.execMinn h sd sa b s
  | .maxx h sd sa b => Sys2Proof.Machine.execMaxx h sd sa b s
  | .minu h sd sa b => Sys2Proof.Machine.execMinu h sd sa b s
  | .maxu h sd sa b => Sys2Proof.Machine.execMaxu h sd sa b s
  | .absv h sd sa => Sys2Proof.Machine.execAbsv h sd sa s
  | .abss h sd sa => Sys2Proof.Machine.execAbss h sd sa s
  | .negv h sd sa => Sys2Proof.Machine.execNegv h sd sa s
  | .negs h sd sa => Sys2Proof.Machine.execNegs h sd sa s
  | .slt h sd sa b => Sys2Proof.Machine.execSlt h sd sa b s
  | .sltu h sd sa b => Sys2Proof.Machine.execSltu h sd sa b s
  | .seqq h sd sa b => Sys2Proof.Machine.execSeqq h sd sa b s
  | .sel h sd sa sb sc => Sys2Proof.Machine.execSel h sd sa sb sc s
  | .mov h d st => Sys2Proof.Machine.execMov h d st s
  | .movi h sd imm => Sys2Proof.Machine.execMovi h sd imm s
  | .movhi h sd imm => Sys2Proof.Machine.execMovhi h sd imm s
  | .padd h p b => Sys2Proof.Machine.execPadd h p b s
  | .mul h sd sa b => Sys2Proof.Machine.execMul h sd sa b s
  | .muls h sd sa b => Sys2Proof.Machine.execMuls h sd sa b s
  | .mulh h sd sa b => Sys2Proof.Machine.execMulh h sd sa b s
  | .mulhu h sd sa b => Sys2Proof.Machine.execMulhu h sd sa b s
  | .div h sd sa b => Sys2Proof.Machine.execDiv h sd sa b s
  | .divs h sd sa b => Sys2Proof.Machine.execDivs h sd sa b s
  | .divu h sd sa b => Sys2Proof.Machine.execDivu h sd sa b s
  | .rem h sd sa b => Sys2Proof.Machine.execRem h sd sa b s
  | .remu h sd sa b => Sys2Proof.Machine.execRemu h sd sa b s
  | .isqrt h sd sa => Sys2Proof.Machine.execIsqrt h sd sa s
  | .clz h sd sa => Sys2Proof.Machine.execClz h sd sa s
  | .cls h sd sa => Sys2Proof.Machine.execCls h sd sa s
  | .popc h sd sa => Sys2Proof.Machine.execPopc h sd sa s
  | .par h sd sa => Sys2Proof.Machine.execPar h sd sa s
  | .brev h sd sa lsb w => Sys2Proof.Machine.execBrev h sd sa lsb w s
  | .crcb h sd sa sb w ref => Sys2Proof.Machine.execCrcb h sd sa sb w ref s
  | .crcw h sd sa sb w ref => Sys2Proof.Machine.execCrcw h sd sa sb w ref s
  | .crcv h sd vn sb w ref => Sys2Proof.Machine.execCrcv h sd vn sb w ref s
  | .mini h sd sa sb => Sys2Proof.Machine.execMini h sd sa sb s
  | .maxi h sd sa sb => Sys2Proof.Machine.execMaxi h sd sa sb s
  | .miniu h sd sa sb => Sys2Proof.Machine.execMiniu h sd sa sb s
  | .maxiu h sd sa sb => Sys2Proof.Machine.execMaxiu h sd sa sb s
  | .ldb h sr a => Sys2Proof.Machine.execLdb h sr a s
  | .ldbu h sr a => Sys2Proof.Machine.execLdbu h sr a s
  | .ldh h sr a => Sys2Proof.Machine.execLdh h sr a s
  | .ldhu h sr a => Sys2Proof.Machine.execLdhu h sr a s
  | .ldw h sr a => Sys2Proof.Machine.execLdw h sr a s
  | .ldd h sr a => Sys2Proof.Machine.execLdd h sr a s
  | .stb h sr a => Sys2Proof.Machine.execStb h sr a s
  | .sth h sr a => Sys2Proof.Machine.execSth h sr a s
  | .stw h sr a => Sys2Proof.Machine.execStw h sr a s
  | .std h sr a => Sys2Proof.Machine.execStd h sr a s
  | .push h sr => Sys2Proof.Machine.execPush h sr s
  | .pop h sr => Sys2Proof.Machine.execPop h sr s
  | .pushd h sr => Sys2Proof.Machine.execPushd h sr s
  | .popd h sr => Sys2Proof.Machine.execPopd h sr s
  | .beq h sa sb lx off => Sys2Proof.Machine.execBeq h sa sb lx off s
  | .bne h sa sb lx off => Sys2Proof.Machine.execBne h sa sb lx off s
  | .blt h sa sb lx off => Sys2Proof.Machine.execBlt h sa sb lx off s
  | .bge h sa sb lx off => Sys2Proof.Machine.execBge h sa sb lx off s
  | .bltu h sa sb lx off => Sys2Proof.Machine.execBltu h sa sb lx off s
  | .bgeu h sa sb lx off => Sys2Proof.Machine.execBgeu h sa sb lx off s
  | .jmp h lx tgt => Sys2Proof.Machine.execJmp h lx tgt s
  | .jmpr h sa lx => Sys2Proof.Machine.execJmpr h sa lx s
  | .call h tgt => Sys2Proof.Machine.execCall h tgt s
  | .callr h sa => Sys2Proof.Machine.execCallr h sa s
  | .ret h => Sys2Proof.Machine.execRet h s
  | .reti h errs => Sys2Proof.Machine.execReti h errs s
  | .loop h sa n => Sys2Proof.Machine.execLoop h sa n s
  | .loopi h count n => Sys2Proof.Machine.execLoopi h count n s
  | .lexit h k => Sys2Proof.Machine.execLexit h k s
  | .fence h => Sys2Proof.Machine.execFence h s
  | .cinv h => Sys2Proof.Machine.execCinv h s
  | .ei h => Sys2Proof.Machine.execEi h s
  | .di h => Sys2Proof.Machine.execDi h s
  | .yield h => Sys2Proof.Machine.execYield h s
  | .tend h => Sys2Proof.Machine.execTend h s
  | .wfi h => Sys2Proof.Machine.execWfi h s
  | .lwait h job id => Sys2Proof.Machine.execLwait h job id s
  | .cwait h ch => Sys2Proof.Machine.execCwait h ch s
  | .rwait h sa ctr away => Sys2Proof.Machine.execRwait h sa ctr away s
  | .pipeWaitLong c t => Sys2Proof.Machine.execPipeWaitLong c t s
  | .csrr h sd off => Sys2Proof.Machine.execCsrr h sd off s
  | .csrw h sa off => Sys2Proof.Machine.execCsrw h sa off s
  | .vld h vd a o => Sys2Proof.Machine.execVld h vd a o s
  | .vst h vs a o => Sys2Proof.Machine.execVst h vs a o s
  | .vgather h vd p vi o => Sys2Proof.Machine.execVgather h vd p vi o s
  | .vscatter h vs p vi o => Sys2Proof.Machine.execVscatter h vs p vi o s
  | .vald h ak a => Sys2Proof.Machine.execVald h ak a s
  | .vast h ak a => Sys2Proof.Machine.execVast h ak a s
  | .vadd h o vd va b => Sys2Proof.Machine.execVadd h o vd va b s
  | .vsub h o vd va b => Sys2Proof.Machine.execVsub h o vd va b s
  | .vadds h o vd va b => Sys2Proof.Machine.execVadds h o vd va b s
  | .vsubs h o vd va b => Sys2Proof.Machine.execVsubs h o vd va b s
  | .vand h o vd va b => Sys2Proof.Machine.execVand h o vd va b s
  | .vor h o vd va b => Sys2Proof.Machine.execVor h o vd va b s
  | .vxor h o vd va b => Sys2Proof.Machine.execVxor h o vd va b s
  | .vandn h o vd va b => Sys2Proof.Machine.execVandn h o vd va b s
  | .vnot h o vd va => Sys2Proof.Machine.execVnot h o vd va s
  | .vsll h o vd va b => Sys2Proof.Machine.execVsll h o vd va b s
  | .vsrl h o vd va b => Sys2Proof.Machine.execVsrl h o vd va b s
  | .vsra h o vd va b => Sys2Proof.Machine.execVsra h o vd va b s
  | .vssl h o vd va b => Sys2Proof.Machine.execVssl h o vd va b s
  | .vssls h o vd va b => Sys2Proof.Machine.execVssls h o vd va b s
  | .vssr h o vd va b => Sys2Proof.Machine.execVssr h o vd va b s
  | .vrshr h o vd va n rm => Sys2Proof.Machine.execVrshr h o vd va n rm s
  | .vmin h o vd va b => Sys2Proof.Machine.execVmin h o vd va b s
  | .vmax h o vd va b => Sys2Proof.Machine.execVmax h o vd va b s
  | .vabs h o vd va => Sys2Proof.Machine.execVabs h o vd va s
  | .vabss h o vd va => Sys2Proof.Machine.execVabss h o vd va s
  | .vabsd h o vd va b => Sys2Proof.Machine.execVabsd h o vd va b s
  | .vavg h o vd va b rm => Sys2Proof.Machine.execVavg h o vd va b rm s
  | .vcmpeq h o vd va b => Sys2Proof.Machine.execVcmpeq h o vd va b s
  | .vcmpne h o vd va b => Sys2Proof.Machine.execVcmpne h o vd va b s
  | .vcmplt h o vd va b => Sys2Proof.Machine.execVcmplt h o vd va b s
  | .vcmple h o vd va b => Sys2Proof.Machine.execVcmple h o vd va b s
  | .vsel h o vd va b vm => Sys2Proof.Machine.execVsel h o vd va b vm s
  | .vspan h o vd sa => Sys2Proof.Machine.execVspan h o vd sa s
  | .vmul h o vd va b => Sys2Proof.Machine.execVmul h o vd va b s
  | .vmuls h o vd va b => Sys2Proof.Machine.execVmuls h o vd va b s
  | .vqmul h o vd va b rm => Sys2Proof.Machine.execVqmul h o vd va b rm s
  | .vaddw h o vd va b => Sys2Proof.Machine.execVaddw h o vd va b s
  | .vsubw h o vd va b => Sys2Proof.Machine.execVsubw h o vd va b s
  | .vmulw h o vd va b => Sys2Proof.Machine.execVmulw h o vd va b s
  | .vnrshr h o vd va n rm => Sys2Proof.Machine.execVnrshr h o vd va n rm s
  | .vcvt h o vd va srcFmt zp => Sys2Proof.Machine.execVcvt h o vd va srcFmt zp s
  | .vmac h o ak va vb fmtB => Sys2Proof.Machine.execVmac h o ak va vb fmtB s
  | .vmacs h o ak va sb fmtB => Sys2Proof.Machine.execVmacs h o ak va sb fmtB s
  | .vaclr h ak => Sys2Proof.Machine.execVaclr h ak s
  | .varshr h o vd ak n rm => Sys2Proof.Machine.execVarshr h o vd ak n rm s
  | .vrescale h o vd ak sm sn => Sys2Proof.Machine.execVrescale h o vd ak sm sn s
  | .vfadd h o vd va b => Sys2Proof.Machine.execVfadd h o vd va b s
  | .vfsub h o vd va b => Sys2Proof.Machine.execVfsub h o vd va b s
  | .vfmul h o vd va b => Sys2Proof.Machine.execVfmul h o vd va b s
  | .vfma h o vd va b vc => Sys2Proof.Machine.execVfma h o vd va b vc s
  | .vfmin h o vd va b => Sys2Proof.Machine.execVfmin h o vd va b s
  | .vfmax h o vd va b => Sys2Proof.Machine.execVfmax h o vd va b s
  | .vlerp h o vd va b sf rm => Sys2Proof.Machine.execVlerp h o vd va b sf rm s
  | .vcubic h o vd vs sf rm => Sys2Proof.Machine.execVcubic h o vd vs sf rm s
  | .vclass h o vd vs sa sb => Sys2Proof.Machine.execVclass h o vd vs sa sb s
  | .vlaneup h o vd vs k => Sys2Proof.Machine.execVlaneup h o vd vs k s
  | .vlanedn h o vd vs k => Sys2Proof.Machine.execVlanedn h o vd vs k s
  | .vjoin h o vd va k => Sys2Proof.Machine.execVjoin h o vd va k s
  | .vperm h o vd vs vi => Sys2Proof.Machine.execVperm h o vd vs vi s
  | .vweave h o vd va vb => Sys2Proof.Machine.execVweave h o vd va vb s
  | .vsplit h o vd va => Sys2Proof.Machine.execVsplit h o vd va s
  | .vbcast h o vd sa => Sys2Proof.Machine.execVbcast h o vd sa s
  | .vmvvs h o sd vs sb => Sys2Proof.Machine.execVmvvs h o sd vs sb s
  | .vmvsv h o vd sa sb => Sys2Proof.Machine.execVmvsv h o vd sa sb s
  | .vpack h o vd vs vm => Sys2Proof.Machine.execVpack h o vd vs vm s
  | .vhad h o vd vs block n rm sc => Sys2Proof.Machine.execVhad h o vd vs block n rm sc s
  | .vgrow h o vd vs vn => Sys2Proof.Machine.execVgrow h o vd vs vn s
  | .vmvsc h sd sel => Sys2Proof.Machine.execVmvsc h sd sel s
  | .vmvcs h fault sa => Sys2Proof.Machine.execVmvcs h fault sa s
  | .vrsum h o sd vs => Sys2Proof.Machine.execVrsum h o sd vs s
  | .vrmaxi h o sd vs sb => Sys2Proof.Machine.execVrmaxi h o sd vs sb s
  | .vrmini h o sd vs sb => Sys2Proof.Machine.execVrmini h o sd vs sb s
  | .varsum h o sd ak => Sys2Proof.Machine.execVarsum h o sd ak s
  | .vmcount h o sd vm => Sys2Proof.Machine.execVmcount h o sd vm s
  | .vmfind h o sd vm => Sys2Proof.Machine.execVmfind h o sd vm s
  | .vscan h o vd vs => Sys2Proof.Machine.execVscan h o vd vs s
  | .vcrc16 h vd vs sb ref => Sys2Proof.Machine.execVcrc16 h vd vs sb ref s
  | .ljob h p imm => Sys2Proof.Machine.execLjob h p imm s
  | .ltile h p imm => Sys2Proof.Machine.execLtile h p imm s
  | .loomSetup c => Sys2Proof.Machine.execLoomSetup c s
  | .weightLoad c wait => Sys2Proof.Machine.execWeightLoad c wait s
  | .planeSwap c stallLoad stallAcc => Sys2Proof.Machine.execPlaneSwap c stallLoad stallAcc s
  | .tileStream c streamCc feed thr wait => Sys2Proof.Machine.execTileStream c streamCc feed thr wait s
  | .loomDrain c => Sys2Proof.Machine.execLoomDrain c s
  | .outputStage c wait hold => Sys2Proof.Machine.execOutputStage c wait hold s
  | .loomJobComplete c => Sys2Proof.Machine.execLoomJobComplete c s
  | .loomEccUncorr c => Sys2Proof.Machine.execLoomEccUncorr c s
  | .loomAbort c => Sys2Proof.Machine.execLoomAbort c s
  | .agenZcOver c row => Sys2Proof.Machine.execAgenZcOver c row s
  | .tallyStepClose c slot => Sys2Proof.Machine.execTallyStepClose c slot s
  | .tallyClose c slot => Sys2Proof.Machine.execTallyClose c slot s
  | .tallyProposal c slot => Sys2Proof.Machine.execTallyProposal c slot s
  | .untimedGrant c bank write others lost => Sys2Proof.Machine.execUntimedGrant c bank write others lost s
  | .scrubLine c errs free => Sys2Proof.Machine.execScrubLine c errs free s
  | .rowRepair c bank row => Sys2Proof.Machine.execRowRepair c bank row s
  | .granRepairReq c bank row => Sys2Proof.Machine.execGranRepairReq c bank row s
  | .regionFill c => Sys2Proof.Machine.execRegionFill c s
  | .streamPacket cam pixels crcOk => Sys2Proof.Machine.execStreamPacket cam pixels crcOk s
  | .imageHeader cam xsize ysize src => Sys2Proof.Machine.execImageHeader cam xsize ysize src s
  | .lineMarker cam edges => Sys2Proof.Machine.execLineMarker cam edges s
  | .pieceWrite c ring => Sys2Proof.Machine.execPieceWrite c ring s
  | .headerWriteDone c ring => Sys2Proof.Machine.execHeaderWriteDone c ring s
  | .dramCopyWrite cam => Sys2Proof.Machine.execDramCopyWrite cam s
  | .lineFree cam => Sys2Proof.Machine.execLineFree cam s
  | .swathTurnover c ring held => Sys2Proof.Machine.execSwathTurnover c ring held s
  | .pipeRingRel c ring v => Sys2Proof.Machine.execPipeRingRel c ring v s
  | .pipePub c j v => Sys2Proof.Machine.execPipePub c j v s
  | .counterMessage dest owner kind j => Sys2Proof.Machine.execCounterMessage dest owner kind j s
  | .hopTrig cam falling => Sys2Proof.Machine.execHopTrig cam falling s
  | .triggerSend cam => Sys2Proof.Machine.execTriggerSend cam s
  | .controlAck cam data => Sys2Proof.Machine.execControlAck cam data s
  | .controlTimeout cam => Sys2Proof.Machine.execControlTimeout cam s
  | .deviceEventPacket cam data => Sys2Proof.Machine.execDeviceEventPacket cam data s
  | .discovery cam up master found => Sys2Proof.Machine.execDiscovery cam up master found s
  | .hopLinkDown conn => Sys2Proof.Machine.execHopLinkDown conn s
  | .connectionSparing conn resetOk => Sys2Proof.Machine.execConnectionSparing conn resetOk s
  | .sieveSubmit c desc => Sys2Proof.Machine.execSieveSubmit c desc s
  | .sieveCall c => Sys2Proof.Machine.execSieveCall c s
  | .sieveComplete c => Sys2Proof.Machine.execSieveComplete c s
  | .sieveAbort c => Sys2Proof.Machine.execSieveAbort c s
  | .ringTailWrite ring v => Sys2Proof.Machine.execRingTailWrite ring v s
  | .ringHeadWrite c k v => Sys2Proof.Machine.execRingHeadWrite c k v s
  | .cstart h ch p imm => Sys2Proof.Machine.execCstart h ch p imm s
  | .descRingTake c ch => Sys2Proof.Machine.execDescRingTake c ch s
  | .carterSetup c ch => Sys2Proof.Machine.execCarterSetup c ch s
  | .carterReadBeat c => Sys2Proof.Machine.execCarterReadBeat c s
  | .carterWriteBeat c => Sys2Proof.Machine.execCarterWriteBeat c s
  | .paceTest c ch => Sys2Proof.Machine.execPaceTest c ch s
  | .readResponse c tag => Sys2Proof.Machine.execReadResponse c tag s
  | .writeResponse c tag => Sys2Proof.Machine.execWriteResponse c tag s
  | .carterTimeout c tag => Sys2Proof.Machine.execCarterTimeout c tag s
  | .descriptorComplete c ch => Sys2Proof.Machine.execDescriptorComplete c ch s
  | .channelDisable c ch => Sys2Proof.Machine.execChannelDisable c ch s
  | .tollgateDecision g others => Sys2Proof.Machine.execTollgateDecision g others s
  | .dramReadDone ch tag errs => Sys2Proof.Machine.execDramReadDone ch tag errs s
  | .dramWriteAccept ch tag => Sys2Proof.Machine.execDramWriteAccept ch tag s
  | .dramWriteRetry ch tag parity => Sys2Proof.Machine.execDramWriteRetry ch tag parity s
  | .dramScrubLine ch errs => Sys2Proof.Machine.execDramScrubLine ch errs s
  | .dramTempSample ch temp => Sys2Proof.Machine.execDramTempSample ch temp s
  | .softPpr ch row => Sys2Proof.Machine.execSoftPpr ch row s
  | .dramRetire ch => Sys2Proof.Machine.execDramRetire ch s
  | .channelRetire => Sys2Proof.Machine.execChannelRetire s
  | .granuleMove readable => Sys2Proof.Machine.execGranuleMove readable s
  | .dramSpareDone => Sys2Proof.Machine.execDramSpareDone s
  | .retiredChannelRefuse ch tag => Sys2Proof.Machine.execRetiredChannelRefuse ch tag s
  | .tryLock p l => Sys2Proof.Machine.execTryLock p l s
  | .waitLock p l => Sys2Proof.Machine.execWaitLock p l s
  | .releaseLock p l => Sys2Proof.Machine.execReleaseLock p l s
  | .clearBroken p l => Sys2Proof.Machine.execClearBroken p l s
  | .ownerDeath => Sys2Proof.Machine.execOwnerDeath s
  | .lockOpForeignWrite p l v => Sys2Proof.Machine.execLockOpForeignWrite p l v s
  | .readPacket p k => Sys2Proof.Machine.execReadPacket p k s
  | .writePacket p k => Sys2Proof.Machine.execWritePacket p k s
  | .ringPut p k ring => Sys2Proof.Machine.execRingPut p k ring s
  | .lockPacket p k op l => Sys2Proof.Machine.execLockPacket p k op l s
  | .readResp p k => Sys2Proof.Machine.execReadResp p k s
  | .writeResp p k => Sys2Proof.Machine.execWriteResp p k s
  | .ringResp p k => Sys2Proof.Machine.execRingResp p k s
  | .lockResp p k n result broken => Sys2Proof.Machine.execLockResp p k n result broken s
  | .windowRequestDone w tag => Sys2Proof.Machine.execWindowRequestDone w tag s
  | .fabWinOpen w => Sys2Proof.Machine.execFabWinOpen w s
  | .fabWinClose w => Sys2Proof.Machine.execFabWinClose w s
  | .packetForward p k => Sys2Proof.Machine.execPacketForward p k s
  | .fabRingSend f => Sys2Proof.Machine.execFabRingSend f s
  | .fabRingRetry f => Sys2Proof.Machine.execFabRingRetry f s
  | .fabRingTimeout f => Sys2Proof.Machine.execFabRingTimeout f s
  | .fabLockReq n v => Sys2Proof.Machine.execFabLockReq n v s
  | .fabPeerLostSet addr => Sys2Proof.Machine.execFabPeerLostSet addr s
  | .fabPeerLostClear addr => Sys2Proof.Machine.execFabPeerLostClear addr s
  | .linkReplay p => Sys2Proof.Machine.execLinkReplay p s
  | .laneFail p lane => Sys2Proof.Machine.execLaneFail p lane s
  | .fabPortDown p cause => Sys2Proof.Machine.execFabPortDown p cause s
  | .creditReturn p buf n => Sys2Proof.Machine.execCreditReturn p buf n s
  | .enumStart => Sys2Proof.Machine.execEnumStart s
  | .fabEnumGo => Sys2Proof.Machine.execFabEnumGo s
  | .walk p k => Sys2Proof.Machine.execWalk p k s
  | .walkEnd p k => Sys2Proof.Machine.execWalkEnd p k s
  | .assign p k => Sys2Proof.Machine.execAssign p k s
  | .hello p k => Sys2Proof.Machine.execHello p k s
  | .enumDone p k => Sys2Proof.Machine.execEnumDone p k s
  | .enumFail p k => Sys2Proof.Machine.execEnumFail p k s
  | .goodbye p k => Sys2Proof.Machine.execGoodbye p k s
  | .fabVoteFail route => Sys2Proof.Machine.execFabVoteFail route s
  | .hostUnitReceive frame srcMac protOk => Sys2Proof.Machine.execHostUnitReceive frame srcMac protOk s
  | .ackTimer => Sys2Proof.Machine.execAckTimer s
  | .retransmit => Sys2Proof.Machine.execRetransmit s
  | .pauseFrame => Sys2Proof.Machine.execPauseFrame s
  | .arpRequest mac target protOk => Sys2Proof.Machine.execArpRequest mac target protOk s
  | .neighbourSolicitation mac target protOk => Sys2Proof.Machine.execNeighbourSolicitation mac target protOk s
  | .openSession => Sys2Proof.Machine.execOpenSession s
  | .closeSession => Sys2Proof.Machine.execCloseSession s
  | .sessionIdleTimeout => Sys2Proof.Machine.execSessionIdleTimeout s
  | .hostLinkDown => Sys2Proof.Machine.execHostLinkDown s
  | .hostKill => Sys2Proof.Machine.execHostKill s
  | .hostRead => Sys2Proof.Machine.execHostRead s
  | .hostWrite => Sys2Proof.Machine.execHostWrite s
  | .doorbell => Sys2Proof.Machine.execDoorbell s
  | .hostLock => Sys2Proof.Machine.execHostLock s
  | .camCmd => Sys2Proof.Machine.execCamCmd s
  | .attest => Sys2Proof.Machine.execAttest s
  | .key => Sys2Proof.Machine.execKey s
  | .ringData => Sys2Proof.Machine.execRingData s
  | .camEvent => Sys2Proof.Machine.execCamEvent s
  | .eventGrant => Sys2Proof.Machine.execEventGrant s
  | .ledgerCopy => Sys2Proof.Machine.execLedgerCopy s
  | .ledgerSpill => Sys2Proof.Machine.execLedgerSpill s
  | .ledgerDump first count => Sys2Proof.Machine.execLedgerDump first count s
  | .fuseProgram senseMv => Sys2Proof.Machine.execFuseProgram senseMv s
  | .secSvnRaise v => Sys2Proof.Machine.execSecSvnRaise v s
  | .secLcReq target p => Sys2Proof.Machine.execSecLcReq target p s
  | .endedTransition => Sys2Proof.Machine.execEndedTransition s
  | .secKeygen senseMv => Sys2Proof.Machine.execSecKeygen senseMv s
  | .subtreeRebuild => Sys2Proof.Machine.execSubtreeRebuild s
  | .signature => Sys2Proof.Machine.execSignature s
  | .leafReservation senseMv => Sys2Proof.Machine.execLeafReservation senseMv s
  | .secLeafResume => Sys2Proof.Machine.execSecLeafResume s
  | .assayNotice c kc => Sys2Proof.Machine.execAssayNotice c kc s
  | .assayStart => Sys2Proof.Machine.execAssayStart s
  | .assaySkipped => Sys2Proof.Machine.execAssaySkipped s
  | .assaySliceEnd f => Sys2Proof.Machine.execAssaySliceEnd f s
  | .assayReq p core => Sys2Proof.Machine.execAssayReq p core s
  | .assayRetire core => Sys2Proof.Machine.execAssayRetire core s
  | .assayFuseGo => Sys2Proof.Machine.execAssayFuseGo s
  | .fuseWindow senseMv => Sys2Proof.Machine.execFuseWindow senseMv s
  | .linkUp p peerFec => Sys2Proof.Machine.execLinkUp p peerFec s
  | .hostPhyLinkUp leader => Sys2Proof.Machine.execHostPhyLinkUp leader s
  | .wordAlignment conn => Sys2Proof.Machine.execWordAlignment conn s
  | .railBandReturn j => Sys2Proof.Machine.execRailBandReturn j s
  | .checkerVisit off => Sys2Proof.Machine.execCheckerVisit off s
  | .assayStartTime c => Sys2Proof.Machine.execAssayStartTime c s
  | .nop h => Sys2Proof.Machine.execNop h s
  | .reservedEncoding c bundle => Sys2Proof.Machine.execReservedEncoding c bundle s
  | .smbOtherCommand code => Sys2Proof.Machine.execSmbOtherCommand code s

end Sys2Proof.Machine
end

