-- ==== Sys2Proof/Safety.lean ====
section
/-! DEFINITION. The terms claims use: the canonical form of the byte memories, what a command leaves alone, and a core that is ready
to run a bundle. -/

namespace Sys2Proof.Machine

/-- Every byte memory of the part (log 6) and its table of locks are in canonical form. -/
def State.memOk (s : State) : Prop :=
  Memory.wf 0 s.dram.bytes = true ∧ Memory.wf 0xFF s.flash = true ∧ (∀ c : CoreId, Memory.wf 0 (s.core c).gran.bytes = true)
    ∧ cellsWf Lock.idle s.locks = true

/-- Every byte of the DRAM, the Granaries and the flash reads as before. -/
def SameMem (s s' : State) : Prop :=
  (∀ a, cellGet 0 s'.dram.bytes a = cellGet 0 s.dram.bytes a) ∧ (∀ a, cellGet 0xFF s'.flash a = cellGet 0xFF s.flash a)
    ∧ ∀ (c : CoreId) a, cellGet 0 (s'.core c).gran.bytes a = cellGet 0 (s.core c).gran.bytes a

/-- Every CSR field reads as before, but the fields of `F`, each with its unit and number. -/
def FieldsBut (s s' : State) (F : List (Fld × Nat × Nat)) : Prop :=
  ∀ (g : Fld) (u i : Nat),
    (∀ e ∈ F, g.reg.addr u i = e.1.reg.addr e.2.1 e.2.2 →
      g.reg = e.1.reg ∧ (g.lsb + g.width ≤ e.1.lsb ∨ e.1.lsb + e.1.width ≤ g.lsb)) →
    s'.rd g u i = s.rd g u i

/-- Nothing but the fields of `F` changes. -/
def OnlyFields (s s' : State) (F : List (Fld × Nat × Nat)) : Prop :=
  s' = { s with csr := s'.csr, mirror := s'.mirror } ∧ FieldsBut s s' F

/-- Nothing of any core but core `c` changes, and of core `c` nothing but what `C` shows. -/
def OnlyCore (s s' : State) (c : CoreId) (C : Core) : Prop :=
  s'.core c = C ∧ ∀ d, d ≠ c → s'.core d = s.core d

/-- The running task `t` of a core is at a bundle boundary and its next bundle may enter F: the sequencer runs, no line is
recognisable and no switch is due (R95, R106, R119), its PC is a bundle of its window that is fetched (R72, R91, R92, R538), nothing that
the bundle may need is in flight (R96), the units and beats of earlier vector operations are done with (R134, R137), it does not end a
loop body (R85), and no halt request, CINV write or ARITH exception is to be dealt with at its end. -/
structure Ready (s : State) (c : CoreId) (t : TaskId) : Prop where
  running : (s.core c).seq.running = some t
  double : (s.core c).seq.double = false
  bundle : (s.core c).seq.bundle = none
  inD : (s.core c).seq.inD = false
  run : s.on Reg.CORE_SEQ_CTRL_RUN c 0 = true
  line : s.recognisable c (s.task c t).sr = none
  turn : s.switchDue c t = false
  fetch : s.fetchFault c t = none
  fetched : s.fetchDone c t = true
  scb : s.busyRegs c t = []
  units : ∀ e ∈ (s.core c).vec.units, e.2 ≤ (s.core c).seq.cc + 2
  late : ∀ e ∈ (s.core c).vec.late, e.cc < (s.core c).seq.cc + 2
  beats : ∀ e ∈ (s.core c).vec.beats, e.1 < (s.core c).seq.cc + 2
  inner : srLDEPTH (s.task c t).sr ≠ 0 → (s.task c t).le.get (Fin.ofNat 4 (srLDEPTH (s.task c t).sr - 1)) ≠ (s.task c t).pc
  halt : (s.task c t).haltReq = false
  cinv : (s.core c).seq.cinvReq = false
  exc : s.csrGet Reg.CORE_EXC_EN c 0 = 0

/-- A whole register as a field. -/
def whole (r : RegFam) : Fld := ⟨r, 0, 64, .rw, .live⟩

/-- Where the sequencer's arithmetic edge cases show (R68, R69). -/
def seqFlags (c : Nat) : List (Fld × Nat × Nat) := [(whole Reg.CORE_ARITH_FLAGS, c, 0), (Reg.CORE_SAT_CNT_SEQ_COUNT, c, 0)]

/-- The counters that a bundle's stalls, its end and the cc it takes may move (R77, R122, R161). -/
def bundleCounters (c : Nat) : List (Fld × Nat × Nat) :=
  [(Reg.CORE_SEQ_BUNDLES_COUNT, c, 0), (Reg.CORE_STALL_SCB_COUNT, c, 0), (Reg.CORE_STALL_SB_COUNT, c, 0),
   (Reg.CORE_STALL_VWAKE_COUNT, c, 0), (Reg.CORE_STALL_WAIT_COUNT, c, 0), (Reg.CORE_STALL_LONG_COUNT, c, 0),
   (Reg.CORE_STALL_FETCH_COUNT, c, 0), (Reg.CORE_VEC_ON_CC_COUNT, c, 0)]

/-- Core `C` as a bundle's W edge leaves it with its task `t` as `k`: the core's clock, the prefetch buffer and the loop cache are those
of `q`, and what the vector unit keeps of its beats is that of `v`. -/
def edgeTo (C : Core) (t : TaskId) (k : Task) (q : Seq) (v : Vec) : Core :=
  { C with
    seq := { C.seq with tasks := C.seq.tasks.set t { k with wait := .none, longTold := false }, bundle := none, inD := false,
                        cc := q.cc, pre := q.pre, lcBase := q.lcBase, lcLen := q.lcLen, lcHeld := q.lcHeld }
    vec := { C.vec with units := v.units, late := v.late, beats := v.beats } }

/-- A bundle of core `c` has run to its W edge: its task is `k`, its core otherwise `C`, the bundle is counted, and nothing changes
but that, what `edgeTo` leaves open, GLOBAL_TICK_CC, the counters of `bundleCounters`, and the fields of `F`. -/
structure Retires (s s' : State) (c : CoreId) (t : TaskId) (k : Task) (C : Core) (F : List (Fld × Nat × Nat)) : Prop where
  task : s'.task c t = { k with wait := .none, longTold := false }
  tasks : ∀ u, u ≠ t → s'.task c u = s.task c u
  core : ∃ ts, s'.core c = edgeTo { C with seq := { C.seq with tasks := ts } } t k (s'.core c).seq (s'.core c).vec
  cores : ∀ d, d ≠ c → s'.core d = s.core d
  rest : s' = { s with csr := s'.csr, mirror := s'.mirror, cores := s'.cores, ticks := s.ticks.set 0 (s'.ticks.get 0) }
  count : s'.rd Reg.CORE_SEQ_BUNDLES_COUNT c 0
    = min (s.rd Reg.CORE_SEQ_BUNDLES_COUNT c 0 + 1) (2 ^ Reg.CORE_SEQ_BUNDLES_COUNT.width - 1)
  regs : FieldsBut s s' (bundleCounters c ++ F)

end Sys2Proof.Machine
end

