-- ==== Sys2Proof/Certificates/Slice0/Obligations.lean ====
section
/-! DEFINITION. The statements for the provers. Beside each statement stand the terms it uses that the rules define and the model's own
definitions do not. -/

open Sys2Proof Sys2Proof.Machine

/-- The command answers a next state, of which `P` holds. -/
def Claims.gives (i : Instr) (s : State) (P : State → Prop) : Prop := ∃ s', exec i s = .next s' ∧ P s'

/-! ## Steps and reset -/

/-- An error leaves the bytes of its cells and makes their unit flawed or unreadable, or changes bytes and tells nothing; a command that
reads cells meets the errors it names before it reads (R193, R370; that they arise then is the model's choice, log 8). -/
def Claims.ErrorsArise : Prop :=
  ∀ s : State,
    (∀ (c : CoreId) (w : Nat), w < 2 ^ 23 →
      (SameMem s (s.struck [.granCe c w]) ∧ cellGet false ((s.struck [.granCe c w]).core c).gran.flaws w = true)
      ∧ (SameMem s (s.struck [.granUe c w]) ∧ (s.struck [.granUe c w]).wordBad c w = true)
      ∧ ∀ x : BitVec 64, (s.struck [.granData c w x]).granBytes c (8 * w) 8 = leBytes 8 x.toNat
        ∧ ∀ v, (s.struck [.granData c w x]).wordBad c v = s.wordBad c v)
    ∧ (∀ l < 2 ^ 31, (SameMem s (s.struck [.dramCe l]) ∧ cellGet false (s.struck [.dramCe l]).dram.flaws l = true)
      ∧ (SameMem s (s.struck [.dramUe l]) ∧ cellGet false (s.struck [.dramUe l]).dram.poison l = true)
      ∧ ∀ x : BitVec 512, (s.struck [.dramData l x]).dramBytes (64 * l) 64 = leBytes 64 x.toNat
        ∧ (s.struck [.dramData l x]).dram.poison = s.dram.poison)
    ∧ ∀ errs : List Upset, let u := s.struck errs
      (∀ c : CoreId, (∀ a, exec (.lineFetch c a errs) s = exec (.lineFetch c a []) u)
        ∧ exec (.storeBufferDrain c errs) s = exec (.storeBufferDrain c []) u
        ∧ exec (.scalarLoadReturn c errs) s = exec (.scalarLoadReturn c []) u
        ∧ (∀ k, exec (.vectorLoadReturn c errs k) s = exec (.vectorLoadReturn c [] k) u)
        ∧ ∀ free, exec (.scrubLine c errs free) s = exec (.scrubLine c [] free) u)
      ∧ (∀ h : Hd, exec (.reti h errs) s = exec (.reti h []) u)
      ∧ ∀ ch : DramCh, (∀ tag, exec (.dramReadDone ch tag errs) s = exec (.dramReadDone ch tag []) u)
        ∧ exec (.dramScrubLine ch errs) s = exec (.dramScrubLine ch []) u

/-- A step runs the command at the front of the queue with the queue's rest; with an empty queue nothing passes but edges of the clocks
that run, which their counters and the cores' own clocks count, and errors that arise in the memory cells (the model's choice, log 1,
7, 8); what such an error does. -/
def Obligations.StepRunsFront : Prop :=
  Claims.ErrorsArise ∧
  (∀ (c : Instr) (rest : List Instr) (s : State),
    step { s with pending := c :: rest } = exec c { s with pending := rest })
  ∧ ∀ s : State, s.pending = [] →
    let n := fun d : Dom => if s.clockRuns d then Config.edges d s.idle else 0
    ∃ s', step s = .next s'
      ∧ s' = { s with csr := s'.csr, mirror := s'.mirror, cores := s'.cores, dram := s'.dram, ticks := s'.ticks, idle := s.idle + 1 }
      ∧ FieldsBut s s' ((List.finRange 6).map (fun c => (Reg.CORE_VEC_ON_CC_COUNT, c.val, 0)))
      ∧ (∀ c : CoreId, s'.core c
          = { s.core c with seq := { (s.core c).seq with cc := (s.core c).seq.cc + n .cc }, gran := (s'.core c).gran })
      ∧ (∀ d : Dom, d ≠ .cc → s'.tick (domCode d) = (s.tick (domCode d) + n d) % 2 ^ 64)
      ∧ ((∀ c : CoreId, (s.core c).seq.cc ≤ s.tick 0) → s.tick 0 + n .cc < 2 ^ 64 → s'.tick 0 = s.tick 0 + n .cc)
      ∧ (Config.upsets s.idle = [] → s'.dram = s.dram ∧ ∀ c : CoreId, (s'.core c).gran = (s.core c).gran)

/-- After power-on every register holds the reset value of its table, start-up has not begun, every task is FREE, the vector units are
down, nothing is held by a lock or queued, and the byte memories are in canonical form with every byte at the value an unlisted
one reads as (R20, R95, R139, R444; those values and those of registers with no reset value in the spec are the model's choice, log
4 and 6). -/
def Obligations.ResetState : Prop :=
  let s := State.reset
  (∀ (r : RegFam) (u i : Nat), s.csrGet r u i = r.rst) ∧ s.rd Reg.MGMT_BOOT_STAT_PHASE 0 0 = 0 ∧ s.mgmt.resetLow = true
  ∧ (∀ (c : CoreId) (t : TaskId), (s.task c t).st = .free ∧ (s.task c t).rstk = [] ∧ srTASK (s.task c t).sr = t.val)
  ∧ (∀ c : CoreId, (s.core c).vec.pwr = .down ∧ (s.core c).seq.running = none ∧ (s.core c).loom.jobs = [])
  ∧ (∀ l, s.lock l = Lock.idle) ∧ (∀ d, s.tick d = 0) ∧ s.pending = [] ∧ s.outbox = [] ∧ s.memOk
  ∧ ∀ a, cellGet 0 s.dram.bytes a = 0 ∧ cellGet 0xFF s.flash a = 0xFF ∧ ∀ c : CoreId, cellGet 0 (s.core c).gran.bytes a = 0

/-- Every step keeps the byte memories and the table of locks in canonical form, whatever the command. -/
def Obligations.StepKeepsCanonicalForm : Prop :=
  ∀ s s' : State, s.memOk → step s = .next s' → s'.memOk

/-! ## Scalar operations (03 R115..R118, 02 R60..R63) -/

/-- The scalar operations of two sources that meet no edge case, each with its result (R62, R115). -/
def Claims.scalarPlain : List ((Hd → SReg → SReg → Src → Instr) × (Word → Word → Word)) :=
  [(.andd, fun a b => a &&& b), (.orr, fun a b => a ||| b), (.xorr, fun a b => a ^^^ b), (.andn, fun a b => a &&& ~~~b),
   (.sll, fun a b => a <<< b.toNat), (.srl, fun a b => a >>> b.toNat), (.sra, fun a b => a.sshiftRight b.toNat),
   (.minn, fun a b => if b.slt a then b else a), (.maxx, fun a b => if a.slt b then b else a),
   (.minu, fun a b => if b.ult a then b else a), (.maxu, fun a b => if a.ult b then b else a),
   (.slt, fun a b => if a.slt b then 1 else 0), (.sltu, fun a b => if a.ult b then 1 else 0),
   (.seqq, fun a b => if a = b then 1 else 0),
   (.mulh, fun a b => (a.signExtend 64 * b.signExtend 64).extractLsb' 32 32),
   (.mulhu, fun a b => (a.zeroExtend 64 * b.zeroExtend 64).extractLsb' 32 32)]

/-- Logic, shift, minimum, maximum, comparison and high-product operations, for a register and for an immediate last source, and the
square root, cut to an integer: the destination takes the result, the PC moves on 32 B, and no flag, memory byte or other register
changes. -/
def Obligations.ScalarPlainResults : Prop :=
  (∀ (h : Hd) (sd sa : SReg) (s : State) (t : TaskId), Ready s h.core t → h.last = true →
    let k := s.task h.core t
    let a := (k.s.get sa).toNat
    ∃ s' x, exec (.isqrt h sd sa) s = .next s' ∧ x.toNat ^ 2 ≤ a ∧ a < (x.toNat + 1) ^ 2
      ∧ Retires s s' h.core t { k with s := k.s.set sd x, pc := k.pc + 32 } (s.core h.core) [] ∧ SameMem s s')
  ∧ ∀ e ∈ Claims.scalarPlain, ∀ (h : Hd) (sd sa : SReg) (b : Src) (s : State) (t : TaskId),
    Ready s h.core t → h.last = true →
    let k := s.task h.core t
    let k' := { k with s := k.s.set sd (e.2 (k.s.get sa) (srcVal k b)), pc := k.pc + 32 }
    ∃ s', exec (e.1 h sd sa b) s = .next s' ∧ Retires s s' h.core t k' (s.core h.core) [] ∧ SameMem s s'

/-- The scalar operations whose exact result may leave the operand range: whether the operands are signed, whether the form
saturates, and the exact result (R60). -/
def Claims.scalarRanged : List ((Hd → SReg → SReg → Src → Instr) × Bool × Bool × (Int → Int → Int)) :=
  [(.add, true, false, (· + ·)), (.sub, true, false, (· - ·)), (.mul, true, false, (· * ·)),
   (.adds, true, true, (· + ·)), (.subs, true, true, (· - ·)), (.muls, true, true, (· * ·)),
   (.addus, false, true, (· + ·)), (.subus, false, true, (· - ·))]

/-- What an exact result `x` comes to at 32 bits: the code, and whether it left the range (R60). -/
def Claims.ranged (signed saturating : Bool) (x : Int) : Word × Bool :=
  let lo : Int := if signed then -2 ^ 31 else 0
  let hi : Int := if signed then 2 ^ 31 - 1 else 2 ^ 32 - 1
  (BitVec.ofInt 32 (if saturating then max lo (min hi x) else x), decide (x < lo ∨ hi < x))

/-- The flags and the saturation count that an edge case leaves: OV, DZ, SAT (R65, R68, R69). -/
def Claims.flagged (s s' : State) (c : CoreId) (ov dz sat : Bool) : Prop :=
  s'.csrGet Reg.CORE_ARITH_FLAGS c 0
      = s.csrGet Reg.CORE_ARITH_FLAGS c 0 ||| BitVec.ofNat 64 (bit01 ov + 2 * bit01 dz + 4 * bit01 sat)
    ∧ s'.rd Reg.CORE_SAT_CNT_SEQ_COUNT c 0 = min (s.rd Reg.CORE_SAT_CNT_SEQ_COUNT c 0 + bit01 sat) (2 ^ 32 - 1)

/-- Sums, differences and products: a wrapping form keeps the low 32 bits and sets OV outside the range; a saturating form gives the
nearer bound, sets OV and SAT and counts; nothing else changes. -/
def Claims.ScalarRangedResults : Prop :=
  ∀ e ∈ Claims.scalarRanged, ∀ (h : Hd) (sd sa : SReg) (b : Src) (s : State) (t : TaskId),
    Ready s h.core t → h.last = true →
    let k := s.task h.core t
    let val := fun w : Word => if e.2.1 then w.toInt else (w.toNat : Int)
    let x := Claims.ranged e.2.1 e.2.2.1 (e.2.2.2 (val (k.s.get sa)) (val (srcVal k b)))
    let k' := { k with s := k.s.set sd x.1, pc := k.pc + 32 }
    ∃ s', exec (e.1 h sd sa b) s = .next s'
      ∧ Retires s s' h.core t k' (s.core h.core) (if x.2 then seqFlags h.core else [])
      ∧ Claims.flagged s s' h.core x.2 false (x.2 && e.2.2.1) ∧ SameMem s s'

/-- The quotient and remainder forms: whether signed, whether DIVS, whether the remainder (R60, R61). -/
def Claims.scalarDivide : List ((Hd → SReg → SReg → Src → Instr) × Bool × Bool × Bool) :=
  [(.div, true, false, false), (.divs, true, true, false), (.divu, false, false, false), (.rem, true, false, true),
   (.remu, false, false, true)]

/-- Divisions: a divisor of 0 sets DZ and gives the bound that has the dividend's sign (all ones unsigned), or the dividend as the
remainder; else the quotient is cut toward 0 and the remainder takes the dividend's sign; −2^31 / −1 wraps with OV or, in DIVS,
saturates. -/
def Obligations.ScalarDivisionResults : Prop :=
  ∀ e ∈ Claims.scalarDivide, ∀ (h : Hd) (sd sa : SReg) (b : Src) (s : State) (t : TaskId),
    Ready s h.core t → h.last = true →
    let k := s.task h.core t
    let a := k.s.get sa
    let d := srcVal k b
    let val := fun w : Word => if e.2.1 then w.toInt else (w.toNat : Int)
    let x : Word × Bool :=
      if d = 0 then
        (if e.2.2.2 then a else if e.2.1 then (if a.toInt < 0 then 0x80000000 else 0x7FFFFFFF) else 0xFFFFFFFF, false)
      else if e.2.2.2 then (BitVec.ofInt 32 (Int.tmod (val a) (val d)), false)
      else Claims.ranged e.2.1 e.2.2.1 (Int.tdiv (val a) (val d))
    let k' := { k with s := k.s.set sd x.1, pc := k.pc + 32 }
    ∃ s', exec (e.1 h sd sa b) s = .next s'
      ∧ Retires s s' h.core t k' (s.core h.core) (if x.2 ∨ d = 0 then seqFlags h.core else [])
      ∧ Claims.flagged s s' h.core x.2 (decide (d = 0)) (x.2 && e.2.2.1) ∧ SameMem s s'

/-- What a signed-count shift gives: left by a positive count, right by a negative one for SSL and SSLS, the other way round for SSR;
right is arithmetic, left is exact and then wraps or saturates (R62). -/
def Claims.signedShift (left saturating : Bool) (a c : Word) : Word × Bool :=
  let n : Int := if left then c.toInt else -c.toInt
  if n < 0 then (a.sshiftRight n.natAbs, false) else Claims.ranged true saturating (a.toInt * 2 ^ n.natAbs)

/-- SSL, SSLS and SSR for every count. -/
def Claims.ScalarSignedShifts : Prop :=
  ∀ e ∈ [(Instr.ssl, true, false), (Instr.ssls, true, true), (Instr.ssr, false, false)],
  ∀ (h : Hd) (sd sa : SReg) (b : Src) (s : State) (t : TaskId),
    Ready s h.core t → h.last = true →
    let k := s.task h.core t
    let x := Claims.signedShift e.2.1 e.2.2 (k.s.get sa) (srcVal k b)
    let k' := { k with s := k.s.set sd x.1, pc := k.pc + 32 }
    ∃ s', exec (e.1 h sd sa b) s = .next s'
      ∧ Retires s s' h.core t k' (s.core h.core) (if x.2 then seqFlags h.core else [])
      ∧ Claims.flagged s s' h.core x.2 false (x.2 && e.2.2) ∧ SameMem s s'

/-- The bits of a word that are set. -/
def Claims.ones (a : Word) : Nat := (List.range 32).countP (fun i => a.getLsbD i)

/-- Absolute value and negation, wrapping and saturating (R60). -/
def Claims.ScalarAbsAndNegate : Prop :=
  ∀ e ∈ [(Instr.absv, false, fun a : Int => (a.natAbs : Int)), (Instr.abss, true, fun a => (a.natAbs : Int)),
         (Instr.negv, false, fun a => -a), (Instr.negs, true, fun a => -a)],
  ∀ (h : Hd) (sd sa : SReg) (s : State) (t : TaskId), Ready s h.core t → h.last = true →
    let k := s.task h.core t
    let x := Claims.ranged true e.2.1 (e.2.2 (k.s.get sa).toInt)
    let k' := { k with s := k.s.set sd x.1, pc := k.pc + 32 }
    ∃ s', exec (e.1 h sd sa) s = .next s'
      ∧ Retires s s' h.core t k' (s.core h.core) (if x.2 then seqFlags h.core else [])
      ∧ Claims.flagged s s' h.core x.2 false (x.2 && e.2.1) ∧ SameMem s s'

/-- Sums, differences, products, signed-count shifts, absolute values and negations, wrapping and saturating, with their flags. -/
def Obligations.ScalarRangedResults : Prop :=
  Claims.ScalarRangedResults ∧ Claims.ScalarSignedShifts ∧ Claims.ScalarAbsAndNegate

/-- A task's bundle meets a fault and the handler of line 0 does not run: nothing of the bundle takes effect but the counts of its stalls,
the record of the fault is kept for its entry, and line 0 becomes pending (R110, R111, R121). -/
structure Claims.faults (s s' : State) (c : CoreId) (t : TaskId) (cause : BitVec 5) (addr : Option Word) (half : Bool) : Prop where
  record : (s'.core c).seq.fault
    = some { cause := cause, task := t, deferred := false, half := half, addr := addr, pc := (s.task c t).pc }
  bundle : (s'.core c).seq.bundle = none
  line : (s'.rd Reg.CORE_IRQ_PEND_PEND c 0).testBit 0 = true
  task : s'.task c t = s.task c t
  fields : FieldsBut s s' ((Reg.CORE_IRQ_PEND_PEND, c.val, 0) :: bundleCounters c)
  mem : SameMem s s'
  events : s'.events = s.events
  cores : ∀ d, d ≠ c → s'.core d = s.core d

/-- What a bit instruction of one register computes: a test of the result `x` for the source `a` (R117). -/
def Claims.bitOps : List ((Hd → SReg → SReg → Instr) × (Word → Word → Prop)) :=
  [(.clz, fun a x => x.toNat ≤ 32 ∧ (∀ i < x.toNat, a.getLsbD (31 - i) = false)
      ∧ (x.toNat < 32 → a.getLsbD (31 - x.toNat) = true)),
   (.cls, fun a x => x.toNat ≤ 31 ∧ (∀ i < x.toNat, a.getLsbD (30 - i) = a.getLsbD 31)
      ∧ (x.toNat < 31 → a.getLsbD (30 - x.toNat) ≠ a.getLsbD 31)),
   (.popc, fun a x => x.toNat = Claims.ones a), (.par, fun a x => x.toNat = Claims.ones a % 2)]

/-- R117: CLZ, CLS, POPC, PAR and BREV write what the rule computes and change nothing else but the PC; a BREV whose field ends past bit
31 raises ILLEGAL. -/
def Obligations.BitInstructions : Prop :=
  ∀ (h : Hd) (sd sa : SReg) (s : State) (t : TaskId), Ready s h.core t → h.last = true →
    let k := s.task h.core t
    let done := fun (i : Instr) (s' : State) (x : Word) => exec i s = .next s'
      ∧ Retires s s' h.core t { k with s := k.s.set sd x, pc := k.pc + 32 } (s.core h.core) [] ∧ SameMem s s'
    (∀ e ∈ Claims.bitOps, ∃ s' x, done (e.1 h sd sa) s' x ∧ e.2 (k.s.get sa) x)
    ∧ (∀ (lsb : Fin 32) (w : Nat), 0 < w → lsb.val + w ≤ 32 → ∃ s' x, done (.brev h sd sa lsb w) s' x
        ∧ ∀ i < 32, x.getLsbD i = (k.s.get sa).getLsbD (if lsb.val ≤ i ∧ i < lsb.val + w then 2 * lsb.val + w - 1 - i else i))
    ∧ ∀ (lsb : Fin 32) (w : Nat), w ≤ 32 → 32 < lsb.val + w → k.st = .running → ¬(srINH k.sr = true ∧ srILVL k.sr = 0) →
        ∃ s', exec (.brev h sd sa lsb w) s = .next s' ∧ Claims.faults s s' h.core t 0x01 none false

/-- The rounding right shift of R58. -/
def Claims.rshr (x : Int) (n : Nat) (rm : RMode) : Int :=
  let f := x / 2 ^ n
  let r := x % 2 ^ n
  if r = 0 then f
  else match rm with
    | .rtz => if 0 < x then f else f + 1
    | .floor => f
    | .rna => if 2 * r < 2 ^ n then f else if 2 ^ n < 2 * r then f + 1 else if 0 < x then f + 1 else f
    | .rne => if 2 * r < 2 ^ n then f else if 2 ^ n < 2 * r then f + 1 else if f % 2 = 0 then f else f + 1

/-- RSHR, SEL, MOVI and MOVHI write one register and advance the PC, and change nothing else. -/
def Claims.ScalarMoveResults : Prop :=
  ∀ (h : Hd) (sd : SReg) (s : State) (t : TaskId), Ready s h.core t → h.last = true →
    let k := s.task h.core t
    let done := fun (i : Instr) (x : Word) => ∃ s', exec i s = .next s'
      ∧ Retires s s' h.core t { k with s := k.s.set sd x, pc := k.pc + 32 } (s.core h.core) [] ∧ SameMem s s'
    (∀ (sa : SReg) (n : Fin 64) (rm : RMode), done (.rshr h sd sa n rm) (BitVec.ofInt 32 (Claims.rshr (k.s.get sa).toInt n rm)))
    ∧ (∀ sa sb sc : SReg, done (.sel h sd sa sb sc) (if k.s.get sc = 0 then k.s.get sb else k.s.get sa))
    ∧ (∀ imm : BitVec 16, done (.movi h sd imm) (imm.signExtend 32))
    ∧ ∀ imm : BitVec 16, done (.movhi h sd imm) (imm ++ (k.s.get sd).setWidth 16)

/-- A task with a banked register replaced, as MOV writes it: of SR, TASK and LDEPTH keep their values (R79, R170). -/
def Claims.setBanked (k : Task) (r : RName) (x : Word) : Task :=
  match r with
  | .s i => { k with s := k.s.set i x }
  | .p i => { k with p := k.p.set i x }
  | .pb i => { k with pb := k.pb.set i x }
  | .pl i => { k with pl := k.pl.set i x }
  | .lc i => { k with lc := k.lc.set i x }
  | .le i => { k with le := k.le.set i x }
  | .dsp => { k with dsp := x }
  | .sr => { k with sr := (k.sr &&& 0x1F80) ||| (x.setWidth 16 &&& 0x007F) }
  | _ => k

/-- A pointer moved by an increment, circularly while its PL is not 0 (R81). -/
def Claims.ptrStep (k : Task) (p : PReg) (inc : Word) : Word :=
  if k.pl.get p = 0 then k.p.get p + inc
  else k.pb.get p + BitVec.ofInt 32 ((((k.p.get p).toNat : Int) - (k.pb.get p).toNat + inc.toInt) % ((k.pl.get p).toNat : Int))

/-- MOV copies any banked register to any other; PADD moves a pointer, circularly while its PL is not 0 (R81). -/
def Claims.BankedMovesAndPointerAdd : Prop :=
  ∀ (h : Hd) (s : State) (t : TaskId), Ready s h.core t → h.last = true →
    let k := s.task h.core t
    (∀ (d src : BitVec 7) (rd rs : RName), movReg d = some rd → movReg src = some rs →
      let k' := { Claims.setBanked k rd (bankedVal k rs) with pc := k.pc + 32 }
      ∃ s', exec (.mov h d src) s = .next s' ∧ Retires s s' h.core t k' (s.core h.core) [] ∧ SameMem s s')
    ∧ ∀ (p : PReg) (b : Src),
      let x := Claims.ptrStep k p (srcVal k b)
      let k' := { k with p := k.p.set p x, pc := k.pc + 32 }
      ∃ s', exec (.padd h p b) s = .next s' ∧ Retires s s' h.core t k' (s.core h.core) [] ∧ SameMem s s'

/-- The rounding shift, SEL, the moves and PADD. -/
def Obligations.ScalarMoves : Prop :=
  Claims.ScalarMoveResults ∧ Claims.BankedMovesAndPointerAdd

/-- One byte into a running CRC of `w` bits (R116). -/
def Claims.crcByte (w : Nat) (ref : Bool) (poly c b : Nat) : Nat :=
  let m := 2 ^ w - 1
  let once := fun c => if ref then (if c % 2 = 1 then (c / 2) ^^^ (poly &&& m) else c / 2)
    else if (c / 2 ^ (w - 1)) % 2 = 1 then ((c * 2) ^^^ (poly &&& m)) &&& m else (c * 2) &&& m
  (Nat.repeat once 8 ((c &&& m) ^^^ (if ref then b else b * 2 ^ (w - 8)))) &&& m

/-- CRCB takes byte 0 of its data, CRCW its four bytes and CRCV the 512 of a vector register, byte 0 first, into the CRC in the
destination; nothing else changes. -/
def Obligations.CrcOperations : Prop :=
  ∀ (h : Hd) (sd sb : SReg) (w : CrcW) (ref : Bool) (s : State) (t : TaskId), Ready s h.core t → h.last = true →
    let k := s.task h.core t
    let crc := fun bytes : List Nat => bytes.foldl (Claims.crcByte (crcWidth w) ref (k.s.get sb).toNat) (k.s.get sd).toNat
    let done := fun (i : Instr) (x : Nat) => ∃ s', exec i s = .next s'
      ∧ Retires s s' h.core t { k with s := k.s.set sd (BitVec.ofNat 32 x), pc := k.pc + 32 } (s.core h.core) [] ∧ SameMem s s'
    (∀ sa : SReg, done (.crcb h sd sa sb w ref) (crc [((k.s.get sa).extractLsb' 0 8).toNat]))
    ∧ (∀ sa : SReg, done (.crcw h sd sa sb w ref)
        (crc ((List.range 4).map (fun i => ((k.s.get sa).extractLsb' (8 * i) 8).toNat))))
    ∧ ∀ vn : VReg, done (.crcv h sd vn sb w ref)
        (crc ((List.range 512).map (fun i => (((s.core h.core).vec.v.get vn).extractLsb' (8 * i) 8).toNat)))

/-- R118: MINI, MAXI, MINIU and MAXIU: a candidate strictly better than the extreme in the even register replaces it and its index in the
next one, under the signed or the unsigned order; any other candidate leaves both; nothing else changes but the PC. An odd destination
raises ILLEGAL. -/
def Obligations.RunningExtremes : Prop :=
  ∀ e ∈ [(Instr.mini, fun a d : Word => a.slt d), (Instr.maxi, fun a d => d.slt a), (Instr.miniu, fun a d => a.ult d),
         (Instr.maxiu, fun a d => d.ult a)],
  ∀ (h : Hd) (sd sa sb : SReg) (s : State) (t : TaskId), Ready s h.core t → h.last = true →
    let k := s.task h.core t
    (sd.val % 2 = 0 →
      let k' := if e.2 (k.s.get sa) (k.s.get sd) then { k with s := (k.s.set sd (k.s.get sa)).set (nextReg sd) (k.s.get sb), pc := k.pc + 32 }
        else { k with pc := k.pc + 32 }
      ∃ s', exec (e.1 h sd sa sb) s = .next s' ∧ Retires s s' h.core t k' (s.core h.core) [] ∧ SameMem s s')
    ∧ (sd.val % 2 = 1 → k.st = .running → ¬(srINH k.sr = true ∧ srILVL k.sr = 0) →
        ∃ s', exec (e.1 h sd sa sb) s = .next s' ∧ Claims.faults s s' h.core t 0x01 none false)

/-- Two operations of one bundle read the registers that the bundle before them left: two ADDs that cross over swap their
sources (R73); until the last one issues, nothing but the bundle in flight has changed. -/
def Claims.BundleReadsOldValues : Prop :=
  ∀ (h h' : Hd) (a b : SReg) (s : State) (t : TaskId), Ready s h.core t → h.last = false → h'.core = h.core → h'.last = true → a ≠ b →
    ∃ s1 s2, exec (.add h a b (.imm 0)) s = .next s1 ∧ exec (.add h' b a (.imm 0)) s1 = .next s2
      ∧ (∃ f, s1 = s.modSeq h.core (fun q => { q with bundle := some f }))
      ∧ let k := s.task h.core t
        let k' := { k with s := (k.s.set a (k.s.get b)).set b (k.s.get a), pc := k.pc + 32 }
        Retires s s2 h.core t k' (s.core h.core) [] ∧ SameMem s s2

/-- An arithmetic edge case whose class is enabled raises the ARITH exception: line 1 becomes pending and CORE_EXC_CAUSE tells the
class and the unit; the result is written as without it (R67, R69). -/
def Claims.ArithmeticException : Prop :=
  ∀ (h : Hd) (sd sa : SReg) (b : Src) (s : State) (t : TaskId),
    Ready (s.csrPut Reg.CORE_EXC_EN h.core 0 0) h.core t → h.last = true →
    s.rd Reg.CORE_EXC_EN_OV h.core 0 = 1 →
    let k := s.task h.core t
    BitVec.saddOverflow (k.s.get sa) (srcVal k b) = true →
    ∃ s', exec (.add h sd sa b) s = .next s'
      ∧ (s'.task h.core t).s = k.s.set sd (k.s.get sa + srcVal k b) ∧ (s'.task h.core t).pc = k.pc + 32
      ∧ s'.rd Reg.CORE_IRQ_PEND_PEND h.core 0 = s.rd Reg.CORE_IRQ_PEND_PEND h.core 0 ||| 2
      ∧ s'.rd Reg.CORE_EXC_CAUSE_VALID h.core 0 = 1 ∧ s'.rd Reg.CORE_EXC_CAUSE_UNIT h.core 0 = 0
      ∧ s'.rd Reg.CORE_EXC_CAUSE_CLASS h.core 0 = 1 ∧ SameMem s s'

/-- The bundle of chapter 05's worked example spells its three operations, and no more (R162, R164, R171, R172, R179). -/
def Claims.BundleSpells : Prop :=
  ∀ h : Hd, let head := fun b : Bool => { h with last := b }
    bundleCommands h 0x0000000000000000000000000000007087100200100A51800022112000100005
      = [.ldw (head false) 4 ⟨2, .off 0x10⟩, .add (head false) 5 5 (.reg 6),
         .vld (head true) 8 ⟨3, .postI 0x200⟩ { fmt := .u8, g := .g1, m := false }]

/-- What holds of a whole bundle: the operations its bits spell, old values read together, and an enabled edge case raised at its end. -/
def Obligations.BundlesAndExceptions : Prop :=
  Claims.BundleSpells ∧ Claims.BundleReadsOldValues ∧ Claims.ArithmeticException

/-! ## Control (03 R77, R83..R101, R106, R109..R113; 05 R173..R175) -/

/-- The condition of each branch (R173). -/
def Claims.branches : List ((Hd → SReg → SReg → BitVec 3 → BitVec 18 → Instr) × (Word → Word → Bool)) :=
  [(.beq, fun a b => a == b), (.bne, fun a b => a != b), (.blt, fun a b => a.slt b), (.bge, fun a b => b.sle a),
   (.bltu, fun a b => a.ult b), (.bgeu, fun a b => b.ule a)]

/-- SR with `n` loop levels fewer (R87). -/
def Claims.fewer (sr : BitVec 16) (n : Nat) : BitVec 16 :=
  (sr &&& 0xE3FF) ||| (BitVec.ofNat 16 ((sr.extractLsb' 10 3).toNat - n)) <<< 10

/-- Branches, jumps and LEXIT: the PC is the target where the transfer is taken and else the next bundle, and the LX field retires
that many loop levels; nothing else changes. -/
def Claims.BranchesAndJumps : Prop :=
  ∀ (h : Hd) (s : State) (t : TaskId), Ready s h.core t → h.last = true →
    let k := s.task h.core t
    let goes := fun (i : Instr) (lx : BitVec 3) (pc : Word) => lx.toNat ≤ min 4 (srLDEPTH k.sr) →
      ∃ s', exec i s = .next s'
        ∧ Retires s s' h.core t { k with pc := pc, sr := Claims.fewer k.sr lx.toNat } (s.core h.core) [] ∧ SameMem s s'
    (∀ e ∈ Claims.branches, ∀ (sa sb : SReg) (lx : BitVec 3) (off : BitVec 18),
      goes (e.1 h sa sb lx off) lx
        (if e.2 (k.s.get sa) (k.s.get sb) then k.pc + (off.signExtend 32 <<< 5) else k.pc + 32))
    ∧ (∀ (lx : BitVec 3) (tgt : BitVec 21), goes (.jmp h lx tgt) lx (tgt.setWidth 32 <<< 5))
    ∧ (∀ (sa : SReg) (lx : BitVec 3), (k.s.get sa).toNat % 32 = 0 → goes (.jmpr h sa lx) lx (k.s.get sa))
    ∧ ∀ n : BitVec 3, n ≠ 0 → goes (.lexit h n) n (k.pc + 32)

/-- CALL and CALLR push the address of the next bundle, the SR and KIND 0, and go to the target, but with 56 or more entries they raise
RSTK_OVF and push nothing; RET pops an entry of KIND 0 and goes to its address; a pop from the empty stack raises RSTK_UNF, and one that
finds the wrong KIND raises RSTK_KIND and leaves the entry (R91). -/
def Claims.CallsAndReturns : Prop :=
  ∀ (h : Hd) (s : State) (t : TaskId), Ready s h.core t → h.last = true →
    let k := s.task h.core t
    let goes := fun (i : Instr) (k' : Task) => ∃ s', exec i s = .next s' ∧ Retires s s' h.core t k' (s.core h.core) [] ∧ SameMem s s'
    let bad := fun (i : Instr) (cause : BitVec 5) => k.st = .running → ¬(srINH k.sr = true ∧ srILVL k.sr = 0) →
      ∃ s', exec i s = .next s' ∧ Claims.faults s s' h.core t cause none false
    let entry : RetEntry := { addr := k.pc + 32, sr := k.sr, intr := false }
    (∀ tgt : BitVec 21, (k.rstk.length < 56 → goes (.call h tgt) { k with pc := tgt.setWidth 32 <<< 5, rstk := entry :: k.rstk })
      ∧ (56 ≤ k.rstk.length → bad (.call h tgt) 0x06))
    ∧ (∀ sa : SReg, (k.s.get sa).toNat % 32 = 0 →
        (k.rstk.length < 56 → goes (.callr h sa) { k with pc := k.s.get sa, rstk := entry :: k.rstk })
        ∧ (56 ≤ k.rstk.length → bad (.callr h sa) 0x06))
    ∧ (k.rstk = [] → bad (.ret h) 0x07 ∧ bad (.reti h []) 0x07)
    ∧ ∀ (e : RetEntry) (rest : List RetEntry), k.rstk = e :: rest →
        (e.intr = false → goes (.ret h) { k with pc := e.addr, rstk := rest }) ∧ (e.intr = true → bad (.ret h) 0x08)
        ∧ (e.intr = false → bad (.reti h []) 0x08)

/-- The protection units that `n` bytes at a Granary offset touch hold no error (R191, R193). -/
def Claims.sound (C : Core) (off n : Nat) : Prop :=
  ∀ u, off / 16 * 2 ≤ u → u * 8 < off + n + 16 → cellGet false C.gran.poison u = false ∧ cellGet false C.gran.flaws u = false

/-- RETI into its own task restores from the frame at DSP the registers s0..s7, LC, LE, LS, the depth of the loops and DSP, and from the
popped entry SR and the PC (R108, R109). -/
def Claims.RetiRestores : Prop :=
  ∀ (h : Hd) (s : State) (t : TaskId) (e : RetEntry) (rest : List RetEntry), Ready s h.core t → h.last = true →
    let c := h.core
    let k := s.task c t
    let off := s.winBase c t + k.dsp.toNat
    let w := fun i : Nat => (BitVec.ofNat 32 (leNat (s.granBytes c (off + 4 * i) 4)) : Word)
    k.rstk = e :: rest → e.intr = true → srTASK e.sr = t.val → k.dsp.toNat + 128 ≤ s.winLen c t →
    Claims.sound (s.core c) off 128 →
    ∃ s', exec (.reti h []) s = .next s'
      ∧ Retires s s' c t
          { k with s := Vector.ofFn (fun i : Fin 32 => if i.val < 8 then w i.val else k.s.get i)
                   lc := Vector.ofFn (fun i : Fin 4 => w (8 + i.val)), le := Vector.ofFn (fun i : Fin 4 => w (12 + i.val))
                   ls := Vector.ofFn (fun i : Fin 4 => w (16 + i.val)), dsp := w 21, rstk := rest, pc := e.addr
                   sr := srSetDepth e.sr ((w 20).extractLsb' 0 3).toNat } (s.core c) [] ∧ SameMem s s'

/-- R91, the return stack: what CALL, CALLR, RET and RETI push and pop, and the faults of the stack. -/
def Obligations.ReturnStack : Prop :=
  Claims.CallsAndReturns ∧ Claims.RetiRestores

/-- LOOP and LOOPI open a level: LC the count, LE the address of the last bundle of the body, LS its first; a count of 0 skips the
body and opens none (R83). -/
def Claims.LoopsOpen : Prop :=
  ∀ (h : Hd) (n : BitVec 12) (s : State) (t : TaskId), Ready s h.core t → h.last = true → n ≠ 0 →
    let k := s.task h.core t
    let d : Fin 4 := Fin.ofNat 4 (srLDEPTH k.sr)
    let last := k.pc + BitVec.ofNat 32 (32 * n.toNat)
    let k' := fun count : Word => if count = 0 then { k with pc := last + 32 }
      else { k with pc := k.pc + 32, lc := k.lc.set d count, le := k.le.set d last, ls := k.ls.set d (k.pc + 32),
                    sr := k.sr + 0x0400 }
    srLDEPTH k.sr < 4 →
    (∀ sa : SReg, ∃ s', exec (.loop h sa n) s = .next s'
      ∧ Retires s s' h.core t (k' (k.s.get sa)) (s.core h.core) [] ∧ SameMem s s')
    ∧ ∀ count : BitVec 16, ∃ s', exec (.loopi h count n) s = .next s'
      ∧ Retires s s' h.core t (k' (count.setWidth 32)) (s.core h.core) [] ∧ SameMem s s'

/-- The loop-end test at the last bundle of the innermost body: with a count above 1 the count falls by 1 and the PC goes back to the
first bundle; else the level ends, and with no outer level ending there the PC goes on (R85). -/
def Claims.LoopEnds : Prop :=
  ∀ (h : Hd) (s s1 : State) (t : TaskId) (lvl : Nat), Ready s1 h.core t → h.last = true → lvl < 4 →
    let k := s.task h.core t
    let d : Fin 4 := Fin.ofNat 4 lvl
    s1 = s.modTask h.core t (fun x => { x with sr := srSetDepth x.sr lvl }) → srLDEPTH k.sr = lvl + 1 → k.le.get d = k.pc →
    let k' := if 1 < (k.lc.get d).toNat then { k with lc := k.lc.set d (k.lc.get d - 1), pc := k.ls.get d }
      else { k with sr := srSetDepth k.sr lvl, pc := k.pc + 32 }
    ∃ s', exec (.nop h) s = .next s' ∧ Retires s s' h.core t k' (s.core h.core) [] ∧ SameMem s s'

/-- Branches, jumps, LEXIT, the opening of a loop level and the test at its end. -/
def Obligations.TransfersAndLoops : Prop :=
  Claims.BranchesAndJumps ∧ Claims.LoopsOpen ∧ Claims.LoopEnds

/-- FENCE with an empty store buffer, EI, DI, CINV and NOP complete: only what the rule names changes (R89, R101, R115, R164). -/
def Claims.PlainControl : Prop :=
  ∀ (h : Hd) (s : State) (t : TaskId), Ready s h.core t → h.last = true →
    let c := h.core
    let k := s.task c t
    let C := s.core c
    (∃ s', exec (.nop h) s = .next s' ∧ Retires s s' c t { k with pc := k.pc + 32 } C [] ∧ SameMem s s')
    ∧ (C.seq.sbuf = [] →
        ∃ s', exec (.fence h) s = .next s' ∧ Retires s s' c t { k with pc := k.pc + 32 } C [] ∧ SameMem s s')
    ∧ (∃ s', exec (.ei h) s = .next s' ∧ Retires s s' c t { k with pc := k.pc + 32, sr := k.sr ||| 1 } C [] ∧ SameMem s s')
    ∧ (∃ s', exec (.di h) s = .next s' ∧ Retires s s' c t { k with pc := k.pc + 32, sr := k.sr &&& 0xFFFE } C [] ∧ SameMem s s')
    ∧ ∃ s', exec (.cinv h) s = .next s' ∧ (s'.core c).seq.lcHeld = [] ∧ (s'.core c).seq.lcLen = 0
      ∧ Retires s s' c t { k with pc := k.pc + 32 } C [] ∧ SameMem s s'

/-- A FENCE whose store buffer holds an entry stays in D (R101). -/
def Claims.FenceHolds : Prop :=
  ∀ (h : Hd) (s : State) (t : TaskId), Ready s h.core t → h.last = true → (s.core h.core).seq.sbuf ≠ [] →
    ∃ s', exec (.fence h) s = .next s' ∧ s'.task h.core t = s.task h.core t ∧ (s'.core h.core).seq.inD = true
      ∧ (s'.core h.core).seq.running = some t ∧ FieldsBut s s' (bundleCounters h.core) ∧ SameMem s s'

/-- A bundle that waits does not issue: its task becomes `k`, the core's running task `run`, and beside the counts of the wait nothing
changes (R95, R98). -/
structure Claims.parks (s s' : State) (c : CoreId) (t : TaskId) (k : Task) (run : Option TaskId) (F : List (Fld × Nat × Nat)) : Prop where
  task : s'.task c t = k
  tasks : ∀ u, u ≠ t → s'.task c u = s.task c u
  running : (s'.core c).seq.running = run
  bundle : (s'.core c).seq.bundle = none
  inD : (s'.core c).seq.inD = run.isSome
  cores : ∀ d, d ≠ c → s'.core d = s.core d
  fields : FieldsBut s s' (bundleCounters c ++ F)
  mem : SameMem s s'

/-- What a wait does beside completing: with its condition unmet it sends the task to WAITING when another is READY, and else keeps its
bundle in D (R95, R98). -/
def Claims.holds (i : Instr) (w : WaitFor) (F : List (Fld × Nat × Nat)) (s : State) (c : CoreId) (t : TaskId) : Prop :=
  let k := s.task c t
  s.waitMet c w = false →
    (s.otherReady c = true →
      ∃ s', exec i s = .next s' ∧ Claims.parks s s' c t { k with st := .waiting, wait := w } none F)
    ∧ (s.otherReady c = false → ∃ s', exec i s = .next s' ∧ Claims.parks s s' c t { k with wait := w } (some t) F)

/-- WFI, LWAIT, CWAIT and RWAIT complete where their condition holds, and else wait. RWAIT adds the cc waited to the counter of its kind
of row counter (R95, R98, R122, R323). -/
def Claims.Waits : Prop :=
  ∀ (h : Hd) (s : State) (t : TaskId), Ready s h.core t → h.last = true →
    let c := h.core
    let k := s.task c t
    let C := s.core c
    ((s.irqPending c &&& s.irqEnabled c ≠ 0 →
        ∃ s', exec (.wfi h) s = .next s' ∧ Retires s s' c t { k with pc := k.pc + 32 } C [] ∧ SameMem s s')
      ∧ Claims.holds (.wfi h) .irq [] s c t)
    ∧ (∀ ch : ChanId, (s.carterBusy c ch = false →
        ∃ s', exec (.cwait h ch) s = .next s' ∧ Retires s s' c t { k with pc := k.pc + 32 } C [] ∧ SameMem s s')
      ∧ Claims.holds (.cwait h ch) (.carter ch) [] s c t)
    ∧ (∀ (job : Bool) (tag : BitVec 16), (s.loomBusy c job tag = false →
        ∃ s', exec (.lwait h job tag) s = .next s' ∧ Retires s s' c t { k with pc := k.pc + 32 } C [] ∧ SameMem s s')
      ∧ Claims.holds (.lwait h job tag) (.loom job tag) [] s c t)
    ∧ ∀ (sa : SReg) (ctr : BitVec 8) (away : Nat), ctr.toNat < 192 →
      let f := if ctr.toNat / 16 % 2 = 0 then Reg.PIPE_WAIT_RING_COUNT else Reg.PIPE_WAIT_PEER_COUNT
      (s.rowMet c (k.s.get sa) ctr = true →
        ∃ s', exec (.rwait h sa ctr away) s = .next s'
          ∧ Retires s s' c t { k with pc := k.pc + 32 } C [(f, c.val, 0)]
          ∧ s'.rd f c 0 = min (s.rd f c 0 + (h.wait + away)) (2 ^ f.width - 1) ∧ SameMem s s')
      ∧ Claims.holds (.rwait h sa ctr away) (.row (k.s.get sa) ctr) [(f, c.val, 0)] s c t

/-- A WAITING task whose condition holds is READY (R95). -/
def Claims.woken (s : State) (c : CoreId) (k : Task) : Task :=
  if k.st = .waiting ∧ s.waitMet c k.wait = true then { k with st := .ready, wait := .none } else k

/-- YIELD makes the running task READY and leaves the core to a switch; TEND ends its job: the task is FREE, a death notice leaves for
the lock unit, nothing runs, and the ring entry that the job came from, here of a ring in a Granary, takes its completion OK (R95, R347,
R348, R388). -/
def Claims.YieldAndTend : Prop :=
  ∀ (h : Hd) (s : State) (t : TaskId), Ready s h.core t → h.last = true →
    let c := h.core
    let k := s.task c t
    let C := s.core c
    let C' : Core := { C with seq := { C.seq with running := none, last := t } }
    (∃ s', exec (.yield h) s = .next s' ∧ Retires s s' c t { k with pc := k.pc + 32, st := .ready } C' [] ∧ SameMem s s')
    ∧ (k.job = none → ∃ s', exec (.tend h) s = .next s'
        ∧ s'.task c t = { k with pc := k.pc + 32, st := .free, wait := .none, longTold := false, lockOut := none }
        ∧ (∀ u, u ≠ t → s'.task c u = Claims.woken s c (s.task c u)) ∧ (s'.core c).seq.running = none ∧ (s'.core c).seq.last = t
        ∧ s'.deaths = s.deaths ++ [.task c t] ∧ s'.events = s.events ∧ FieldsBut s s' (bundleCounters c)
        ∧ (∀ d, d ≠ c → s'.core d = s.core d) ∧ SameMem s s')
    ∧ ∀ (ring i : Nat) (d : CoreId) (off : Nat), k.job = some (ring, i) → placeOf (s.ringSlot c ring i) = .gran d off →
        ∃ s', exec (.tend h) s = .next s' ∧ (s'.task c t).st = .free ∧ (s'.task c t).job = none ∧ (s'.core c).seq.running = none
          ∧ s'.deaths = s.deaths ++ [.task c t]
          ∧ s'.granBytes d (off + 56) 8 = [0x00, 0x80, 0, 0, 0, 0, 0, 0]
          ∧ (∀ e a, e ≠ d ∨ a < off + 56 ∨ off + 64 ≤ a → cellGet 0 (s'.core e).gran.bytes a = cellGet 0 (s.core e).gran.bytes a)
          ∧ s'.dram = s.dram ∧ s'.flash = s.flash

/-- The control instructions that transfer nothing: plain ones, waits, YIELD and TEND. -/
def Obligations.ControlAndWaits : Prop :=
  Claims.PlainControl ∧ Claims.FenceHolds ∧ Claims.Waits ∧ Claims.YieldAndTend

/-- Interrupt entry into the running task: the line's pending bit falls, RSTK takes the PC and SR with KIND 1, the frame lies below DSP
at a multiple of 64 B, SR names the line with INH set and IE clear, DSP is the frame's base, and the handler runs; no byte outside
the frame changes (R106..R108). -/
def Claims.LineEntry : Prop :=
  ∀ (c : CoreId) (s : State) (t : TaskId) (line : Nat),
    let q := (s.core c).seq
    let k := s.task c t
    let base := k.dsp.toNat / 64 * 64 - 128
    let off := s.winBase c t + base
    q.running = some t → q.double = false → s.on Reg.CORE_SEQ_CTRL_RUN c 0 = true → s.recognisable c k.sr = some line →
    k.haltReq = false → line ≠ 0 → s.rd Reg.CORE_IRQ_VEC_TASK c line = t.val → k.rstk.length < 64 → q.sbuf = [] →
    128 + s.rd Reg.CORE_TASK_DSL_LIMIT c t * 4 ≤ k.dsp.toNat / 64 * 64 → base + 128 ≤ s.winLen c t →
    ∃ s', exec (.interruptEntry c) s = .next s'
      ∧ s'.task c t = { k with
          rstk := { addr := k.pc, sr := k.sr, intr := true } :: k.rstk
          sr := BitVec.ofNat 16 (2 + line * 4 + t.val * 128)
          dsp := BitVec.ofNat 32 base
          pc := BitVec.ofNat 32 (s.rd Reg.CORE_IRQ_VEC_HANDLER c line * 32), st := .running, wait := .none }
      ∧ s'.rd Reg.CORE_IRQ_PEND_PEND c 0 = s.rd Reg.CORE_IRQ_PEND_PEND c 0 - 2 ^ line
      ∧ s'.granBytes c off 128 = frameBytes k
      ∧ (∀ a, a < off ∨ off + 128 ≤ a → cellGet 0 (s'.core c).gran.bytes a = cellGet 0 (s.core c).gran.bytes a)
      ∧ (∀ u, u ≠ t → s'.task c u = s.task c u) ∧ (s'.core c).seq.running = some t
      ∧ (∀ d, d ≠ c → s'.core d = s.core d)
      ∧ FieldsBut s s' [(Reg.CORE_IRQ_PEND_PEND, c.val, 0), (Reg.CORE_VEC_ON_CC_COUNT, c.val, 0)]

/-- The entry of a fault into the running task that raised it: the fault registers take its record, its line's pending bit falls, loads
that an uncorrectable error lost leave their scoreboard bits clear, every other scalar register stays, and the handler of line 0 runs
over a frame below DSP (R107, R108, R111, R121, R146; what the registers of lost loads then hold is free, R501). -/
def Claims.FaultEntry : Prop :=
  ∀ (c : CoreId) (s : State) (t : TaskId) (f : FaultRec),
    let q := (s.core c).seq
    let k := s.task c t
    let base := k.dsp.toNat / 64 * 64 - 128
    let off := s.winBase c t + base
    q.running = some t → q.double = false → s.on Reg.CORE_SEQ_CTRL_RUN c 0 = true → s.recognisable c k.sr = some 0 →
    k.haltReq = false → q.fault = some f → f.task = t → k.rstk.length < 64 → q.sbuf = [] →
    128 + s.rd Reg.CORE_TASK_DSL_LIMIT c t * 4 ≤ k.dsp.toNat / 64 * 64 → base + 128 ≤ s.winLen c t →
    ∃ s', exec (.interruptEntry c) s = .next s'
      ∧ s'.csrGet Reg.CORE_SEQ_FAULT c 0
          = BitVec.ofNat 64 (f.cause.toNat + t.val * 32 + (if f.deferred then 256 else 0) + (if f.half then 512 else 0) + 2 ^ 31)
      ∧ (∀ a : Word, f.addr = some a → s'.csrGet Reg.CORE_SEQ_FADDR c 0 = a.zeroExtend 64)
      ∧ s'.csrGet Reg.CORE_SEQ_FPC c 0 = f.pc.zeroExtend 64
      ∧ s'.rd Reg.CORE_IRQ_PEND_PEND c 0 = s.rd Reg.CORE_IRQ_PEND_PEND c 0 - 1
      ∧ (s'.core c).seq.fault = none ∧ (s'.core c).seq.running = some t
      ∧ (s'.core c).seq.loads = q.loads.filter (fun l => !l.failed)
      ∧ (s'.core c).vec.loads = (s.core c).vec.loads.filter (fun l => !l.failed)
      ∧ (s'.task c t).rstk = { addr := k.pc, sr := k.sr, intr := true } :: k.rstk
      ∧ (s'.task c t).sr = BitVec.ofNat 16 (2 + t.val * 128) ∧ (s'.task c t).dsp = BitVec.ofNat 32 base
      ∧ (s'.task c t).pc = BitVec.ofNat 32 (s.rd Reg.CORE_IRQ_VEC_HANDLER c 0 * 32)
      ∧ (∀ r : SReg, (∀ l ∈ q.loads, l.failed = true → l.task = t → ∀ d ∈ l.dst, d.1 ≠ r) → (s'.task c t).s.get r = k.s.get r)
      ∧ (∀ a, a < off ∨ off + 128 ≤ a → cellGet 0 (s'.core c).gran.bytes a = cellGet 0 (s.core c).gran.bytes a)
      ∧ ∀ d, d ≠ c → s'.core d = s.core d

/-- Interrupt entry into the running task: the line's pending bit falls, RSTK takes the PC and SR with KIND 1, the frame lies below DSP
at a multiple of 64 B, SR names the line with INH set and IE clear, DSP is the frame's base, and the handler runs; no byte outside
the frame changes. A fault's entry also fills the fault registers and gives up the loads that the fault lost (R106..R108, R111, R121). -/
def Obligations.InterruptEntry : Prop :=
  Claims.LineEntry ∧ Claims.FaultEntry

/-- A handler that does nothing before its RETI but to be fetched gives the interrupted task back as it was: every register, the loop
registers, DSP, SR, PC and RSTK (R107..R109). -/
def Obligations.InterruptRoundTrip : Prop :=
  ∀ (h : Hd) (s s1 s2 : State) (t : TaskId) (line : Nat) (a : Word), h.last = true →
    let c := h.core
    let q := (s.core c).seq
    let k := s.task c t
    let base := k.dsp.toNat / 64 * 64 - 128
    q.running = some t → q.double = false → s.on Reg.CORE_SEQ_CTRL_RUN c 0 = true → s.recognisable c k.sr = some line →
    k.haltReq = false → line ≠ 0 → s.rd Reg.CORE_IRQ_VEC_TASK c line = t.val → k.rstk.length < 64 → q.sbuf = [] →
    128 + s.rd Reg.CORE_TASK_DSL_LIMIT c t * 4 ≤ k.dsp.toNat / 64 * 64 → base + 128 ≤ s.winLen c t →
    srTASK k.sr = t.val → k.st = .running →
    exec (.interruptEntry c) s = .next s1 → exec (.lineFetch c a []) s1 = .next s2 → Ready s2 c t →
    ∃ s3, exec (.reti h []) s2 = .next s3 ∧ s3.task c t = { k with wait := .none, longTold := false }
      ∧ ∀ u, u ≠ t → s3.task c u = s.task c u

/-- CSRR writes its register with what the own core's register reads as when the bundle's operations have issued, and with 0 where the offset
holds none; a read that clears nothing changes nothing else. A bundle that holds it counts 7 cc more in CORE_STALL_LONG (R97, R115,
R175). Until then the counts of its stalls alone have moved: a register that counts nothing reads as it stood. -/
def Claims.CsrReads : Prop :=
  ∀ (h : Hd) (sd : SReg) (off : BitVec 20) (s : State) (t : TaskId), Ready s h.core t → h.last = true → off.toNat % 4 = 0 →
    let c := h.core
    let k := s.task c t
    let C := s.core c
    let a := Blk.base .core c + off.toNat
    (∀ s2 : State, s2.latch = s.latch → FieldsBut s s2 (bundleCounters c) → (s2.csrRead (.core c) a).2 = s2) →
    (∃ s' s1, exec (.csrr h sd off) s = .next s'
      ∧ s1 = { s with csr := s1.csr, mirror := s1.mirror, cores := s1.cores, ticks := s1.ticks }
      ∧ s1.core c = { C with seq := { C.seq with tasks := (s1.core c).seq.tasks, cc := (s1.core c).seq.cc }
                             vec := { C.vec with units := (s1.core c).vec.units, beats := (s1.core c).vec.beats } }
      ∧ s1.task c t = { k with wait := .none, longTold := false } ∧ (∀ u, u ≠ t → s1.task c u = s.task c u)
      ∧ (∀ d, d ≠ c → s1.core d = s.core d) ∧ FieldsBut s s1 (bundleCounters c)
      ∧ Retires s s' c t { k with s := k.s.set sd (s1.csrRead (.core c) a).1, pc := k.pc + 32 } C []
      ∧ s'.rd Reg.CORE_STALL_LONG_COUNT c 0 = min (s.rd Reg.CORE_STALL_LONG_COUNT c 0 + 7) (2 ^ 64 - 1) ∧ SameMem s s'
      ∧ (off.toNat = Reg.CORE_IRQ_EN.off → s.held = false →
          (s'.task c t).s.get sd = (s.csrGet Reg.CORE_IRQ_EN c 0).setWidth 32))
    ∧ (csrFind a = none → ∀ x : State, (x.csrRead (.core c) a).1 = 0)

/-- A read of the saturation count returns it and clears it (R6, R21, R70). -/
def Claims.RcReadClears : Prop :=
  ∀ (c : CoreId) (s : State), s.held = false →
    let a : BitVec 28 := BitVec.ofNat 28 (Reg.CORE_SAT_CNT_SEQ.addr c 0)
    (s.csrRead (.core c) a.toNat).1 = BitVec.ofNat 32 (s.rd Reg.CORE_SAT_CNT_SEQ_COUNT c 0)
    ∧ ∃ s', exec (.rcRead (.core c) a) s = .next s' ∧ s'.rd Reg.CORE_SAT_CNT_SEQ_COUNT c 0 = 0
      ∧ OnlyFields s s' [(Reg.CORE_SAT_CNT_SEQ_COUNT, c.val, 0)]

/-- CSRW of the own core's CORE_EXC_EN: the field takes the low four bits of the source when the bundle ends, and nothing else changes
but what a bundle counts (R8, R66, R115). -/
def Claims.CsrWrites : Prop :=
  ∀ (h : Hd) (sa : SReg) (s : State) (t : TaskId), Ready s h.core t → h.last = true → s.held = false →
    let k := s.task h.core t
    ∃ s', exec (.csrw h sa (BitVec.ofNat 20 Reg.CORE_EXC_EN.off)) s = .next s'
      ∧ s'.csrGet Reg.CORE_EXC_EN h.core 0 = BitVec.ofNat 64 ((k.s.get sa).toNat % 16)
      ∧ Retires s s' h.core t { k with pc := k.pc + 32 } (s.core h.core) [(whole Reg.CORE_EXC_EN, h.core, 0)] ∧ SameMem s s'

/-- Reads and writes of control registers: CSRR, a read that clears, and CSRW. -/
def Obligations.CsrAccess : Prop :=
  Claims.CsrReads ∧ Claims.RcReadClears ∧ Claims.CsrWrites

/-- A write to a register without effects of its own, by type and class (R6, R8): of the half written, the live and locked fields of
type RW take the word's bits, the 1 bits clear a field of type W1C, the staged fields wait in the shadow, and every other bit and
register stays. TG_CTRL.SLOTS is no field of a Tollgate without slots (R393). -/
def Claims.RegisterWritesByType : Prop :=
  ∀ (p : Path) (off : BitVec 28) (v : Word) (s : State) (r : RegRef),
    s.csrOpen p off.toNat = true → csrFind off.toNat = some r → r.fam.blk ∈ [Blk.global, .dramCh, .tg] →
    let absent := fun f : Fld => r.is Reg.TG_CTRL && f == Reg.TG_CTRL_SLOTS && decide (8 ≤ r.u)
    let has := fun (k : Nat) (q : Fld → Bool) => r.flds.any (fun f => q f && !absent f && decide (f.lsb ≤ k) && decide (k < f.lsb + f.width))
    let half := fun k : Nat => decide (k / 32 = bit01 r.high)
    ∃ s', exec (.registerWrite p off v) s = .next s'
      ∧ (∀ k < 64, (s'.csrGet r.fam r.u r.i).getLsbD k =
          ((if half k && has k (fun f => (f.ty == .rw && f.cls != .staged) || (f.ty == .wo && r.fam.wide)) then v.getLsbD (k % 32)
            else (s.csrGet r.fam r.u r.i).getLsbD k) && !(half k && has k (fun f => f.ty == .w1c) && v.getLsbD (k % 32))))
      ∧ (∀ k < 64, half k = true → has k (fun f => f.ty == .rw && f.cls == .staged) = true →
          (cellGet ((0 : BitVec 64), (0 : BitVec 64)) s'.shadow r.addr).1.getLsbD k = true
          ∧ (cellGet ((0 : BitVec 64), (0 : BitVec 64)) s'.shadow r.addr).2.getLsbD k = v.getLsbD (k % 32))
      ∧ s' = { s with csr := s'.csr, mirror := s'.mirror, shadow := s'.shadow }
      ∧ ∀ (g : RegFam) (u i : Nat), g.addr u i ≠ r.addr → s'.csrGet g u i = s.csrGet g u i

/-- A write to a locked field of a busy block is ignored and raises CFG_BUSY: its count rises, and its offset is kept if none was
(R8, R9, R536): here DSL of a task that holds a job. -/
def Claims.BusyWriteIgnored : Prop :=
  ∀ (p : Path) (c : CoreId) (t : TaskId) (v : Word) (s : State),
    let a := Reg.CORE_TASK_DSL.addr c t
    s.csrOpen p a = true → (s.task c t).st ∈ [TaskSt.ready, .running, .waiting] →
    ∃ s', exec (.registerWrite p (BitVec.ofNat 28 a) v) s = .next s'
      ∧ s'.rd Reg.GLOBAL_CFG_BUSY_COUNT 0 0 = min (s.rd Reg.GLOBAL_CFG_BUSY_COUNT 0 0 + 1) (2 ^ 16 - 1)
      ∧ s'.rd Reg.GLOBAL_CFG_BUSY_VALID 0 0 = 1
      ∧ (s.rd Reg.GLOBAL_CFG_BUSY_VALID 0 0 = 0 → s'.rd Reg.GLOBAL_CFG_BUSY_OFFSET 0 0 = a / 4)
      ∧ OnlyFields s s' [(Reg.GLOBAL_CFG_BUSY_COUNT, 0, 0), (Reg.GLOBAL_CFG_BUSY_VALID, 0, 0), (Reg.GLOBAL_CFG_BUSY_OFFSET, 0, 0)]

/-- The checker visits a mirrored register: where two copies agree, the third is rewritten and a fix is counted; where all three
differ in the fabric's address, the function they control stops (R414, R460, R461). -/
def Claims.CheckerVotes : Prop :=
  ∀ (s : State), s.held = false →
    let a := Reg.FAB_ADDR.addr 0 0
    let m := cellGet ((0 : Word), (0 : Word)) s.mirror a
    (m ≠ (0, 0) → m.1 = m.2 ∨ m.1 = 0 ∨ m.2 = 0 → ∃ s', exec (.checkerVisit (BitVec.ofNat 28 a)) s = .next s'
      ∧ cellGet ((0 : Word), (0 : Word)) s'.mirror a = (0, 0) ∧ s'.csrGet Reg.FAB_ADDR 0 0 = s.csrGet Reg.FAB_ADDR 0 0
      ∧ s'.rd Reg.FAB_VOTE_FIX_CNT_COUNT 0 0 = min (s.rd Reg.FAB_VOTE_FIX_CNT_COUNT 0 0 + 1) (2 ^ Reg.FAB_VOTE_FIX_CNT_COUNT.width - 1)
      ∧ OnlyFields s s' [(Reg.FAB_VOTE_FIX_CNT_COUNT, 0, 0)])
    ∧ (m.1 ≠ 0 → m.2 ≠ 0 → m.1 ≠ m.2 → ∃ s', exec (.checkerVisit (BitVec.ofNat 28 a)) s = .next s' ∧ s'.fab.stopped = true)
    ∧ (m = (0, 0) → exec (.checkerVisit (BitVec.ofNat 28 a)) s = .next s)

/-- Writes by type and class, writes to a busy block, and the mirrored registers. -/
def Obligations.RegisterWrites : Prop :=
  Claims.RegisterWritesByType ∧ Claims.BusyWriteIgnored ∧ Claims.CheckerVotes

/-- The faults of one operation that is alone in its bundle: ILLEGAL for a reserved MOV number or an LX field above the loops active;
PC_ALIGN, LOOP_DEPTH, STACK and BOUND as R112 names them. -/
def Claims.FaultsOfOperations : Prop :=
  ∀ (h : Hd) (s : State) (t : TaskId), Ready s h.core t → h.last = true → (s.task h.core t).st = .running →
    let c := h.core
    let k := s.task c t
    ¬(srINH k.sr = true ∧ srILVL k.sr = 0) →
    let ill := fun i : Instr => ∃ s', exec i s = .next s' ∧ Claims.faults s s' c t 0x01 none false
    let bad := fun (i : Instr) (cause : BitVec 5) => ∃ s', exec i s = .next s' ∧ Claims.faults s s' c t cause none false
    (∀ d src : BitVec 7, movReg d = none ∨ movReg src = none → ill (.mov h d src))
    ∧ (∀ (lx : BitVec 3) (tgt : BitVec 21), 4 < lx.toNat ∨ srLDEPTH k.sr < lx.toNat → ill (.jmp h lx tgt))
    ∧ (∀ (sa : SReg), (k.s.get sa).toNat % 32 ≠ 0 → bad (.jmpr h sa 0) 0x04)
    ∧ (∀ (sa : SReg) (n : BitVec 12), srLDEPTH k.sr = 4 → n ≠ 0 → bad (.loop h sa n) 0x09)
    ∧ (∀ sr : SReg, k.dsp.toNat < s.rd Reg.CORE_TASK_DSL_LIMIT c t * 4 + 4 →
        (s.core c).seq.sbuf = [] → bad (.push h sr) 0x05)
    ∧ ∀ (sr : SReg) (m : MAddr), s.winLen c t ≤ (addrOf k m).toNat →
        ∃ s', exec (.ldb h sr m) s = .next s' ∧ Claims.faults s s' c t 0x02 (some (addrOf k m)) false

/-- A bundle with a reserved code raises ILLEGAL at its first D edge (R168). -/
def Claims.ReservedEncodingIsIllegal : Prop :=
  ∀ (c : CoreId) (b : BitVec 256) (s : State) (t : TaskId), Ready s c t → (s.task c t).st = .running →
    ¬(srINH (s.task c t).sr = true ∧ srILVL (s.task c t).sr = 0) → bundleReserved b = true →
    ∃ s', exec (.reservedEncoding c b) s = .next s' ∧ Claims.faults s s' c t 0x01 none false

/-- Precise faults: of one operation, and of a bundle with a reserved code. -/
def Obligations.BundleFaults : Prop :=
  Claims.FaultsOfOperations ∧ Claims.ReservedEncodingIsIllegal

/-- The rows of the sequencer's and the vector unit's control registers (R119, R122..R124, R139, R140). -/
def Claims.CoreControlRows : Prop :=
  ∀ (c : CoreId) (s : State),
    let C := s.core c
    -- nothing waits for a recognition point, if one comes
    let quiet := ∀ t, C.seq.running = some t → C.seq.bundle = none ∧ C.seq.cinvReq = false ∧ (s.task c t).haltReq = false
    (∀ run : Bool, C.seq.double = false → s.rd Reg.MGMT_THERM_STAT_CRIT 0 0 = 0 → quiet →
      ∃ s', exec (.seqCtrlRun c run) s = .next s' ∧ s'.rd Reg.CORE_SEQ_CTRL_RUN c 0 = bit01 run
        ∧ s' = { s.setCore c { C with seq := { C.seq with inD := C.seq.inD && run } } with csr := s'.csr, mirror := s'.mirror }
        ∧ FieldsBut s s' [(Reg.CORE_SEQ_CTRL_RUN, c.val, 0)])
    ∧ (C.seq.cinvReq = false → quiet → (C.seq.running = none ∨ s.on Reg.CORE_SEQ_CTRL_RUN c 0 = true) →
        ∃ s', exec (.seqCtrlCinv c) s = .next s'
          ∧ s' = s.setCore c { C with seq := { C.seq with lcBase := 0, lcLen := 0, lcHeld := [] } })
    ∧ (C.seq.bundle.isSome = true → C.seq.running.isSome = true →
        exec (.seqCtrlCinv c) s = .next (s.modSeq c (fun q => { q with cinvReq := true })))
    ∧ (∀ t : TaskId, (s.task c t).st ∈ [TaskSt.ready, .waiting] → (s.task c t).job = none → C.seq.running ≠ some t →
        ∃ s', exec (.haltReq c t) s = .next s' ∧ (s'.task c t).st = .halted ∧ s'.deaths = s.deaths ++ [.task c t]
          ∧ (∀ u, u ≠ t → s'.task c u = s.task c u) ∧ (s'.core c).seq.running = C.seq.running ∧ SameMem s s'
          ∧ s' = { s with csr := s'.csr, mirror := s'.mirror, cores := s'.cores, deaths := s'.deaths, draws := s'.draws }
          ∧ FieldsBut s s' [(Reg.PIPE_WAIT_RING_COUNT, c.val, 0), (Reg.PIPE_WAIT_PEER_COUNT, c.val, 0)]
          ∧ ((∀ v ctr, (s.task c t).wait ≠ .row v ctr) → s' = { s with cores := s'.cores, deaths := s'.deaths }))
    ∧ (∀ t : TaskId, (s.task c t).st = .running → (s.task c t).job = none → C.seq.running = some t → C.seq.bundle = none →
        C.seq.cinvReq = false → s.on Reg.CORE_SEQ_CTRL_RUN c 0 = true →
        ∃ s', exec (.haltReq c t) s = .next s' ∧ (s'.task c t).st = .halted ∧ (s'.core c).seq.running = none
          ∧ s' = { s with cores := s'.cores, deaths := s.deaths ++ [.task c t] } ∧ ∀ u, u ≠ t → s'.task c u = s.task c u)
    ∧ (∀ t : TaskId, (s.task c t).st = .running → C.seq.bundle.isSome = true →
        exec (.haltReq c t) s = .next (s.modTask c t (fun k => { k with haltReq := true })))
    ∧ (∀ t : TaskId, (s.task c t).st = .halted →
        exec (.releaseTask c t) s = .next (s.modTask c t (fun k => { k with st := .free })))
    ∧ (∀ t : TaskId, (s.task c t).st ≠ .halted → exec (.releaseTask c t) s = .next s)
    ∧ (∀ mask : BitVec 16, (∀ u, (s.task c u).st ≠ .waiting) →
        ∃ s', exec (.irqSet c mask) s = .next s'
          ∧ s'.rd Reg.CORE_IRQ_PEND_PEND c 0 = (s.rd Reg.CORE_IRQ_PEND_PEND c 0 ||| (mask.toNat / 16 * 16))
          ∧ FieldsBut s s' [(Reg.CORE_IRQ_PEND_PEND, c.val, 0)] ∧ s'.cores = s.cores)
    ∧ (∀ (high : Bool) (v : Word),
        let x := if high then s.rd Reg.CORE_TIMER_CMP_CMP c 0 % 2 ^ 32 + v.toNat * 2 ^ 32
          else s.rd Reg.CORE_TIMER_CMP_CMP c 0 / 2 ^ 32 * 2 ^ 32 + v.toNat
        ∃ s', exec (.timerCmpWrite c high v) s = .next s' ∧ s'.rd Reg.CORE_TIMER_CMP_CMP c 0 = x
          ∧ (s'.core c).seq.timerArmed = decide (s.tick 0 < x)
          ∧ (x ≤ s.tick 0 → (s'.rd Reg.CORE_IRQ_PEND_PEND c 0).testBit 4 = true)
          ∧ (s.tick 0 < x → s'.rd Reg.CORE_IRQ_PEND_PEND c 0 = s.rd Reg.CORE_IRQ_PEND_PEND c 0) ∧ SameMem s s')
    ∧ (C.seq.timerArmed = true → s.rd Reg.CORE_TIMER_CMP_CMP c 0 ≤ s.tick 0 →
        ∃ s', exec (.timerMatch c) s = .next s' ∧ (s'.rd Reg.CORE_IRQ_PEND_PEND c 0).testBit 4 = true
          ∧ (s'.core c).seq.timerArmed = false ∧ SameMem s s' ∧ FieldsBut s s' [(Reg.CORE_IRQ_PEND_PEND, c.val, 0)])

/-- The vector unit's power: it goes down when idle and allowed to, a wake begins and is counted, and its end brings the unit up; a vector
bundle that reaches D with the unit down begins a wake and stays there (R139, R140). -/
def Claims.VectorPower : Prop :=
  ∀ (c : CoreId) (s : State),
    let C := s.core c
    (C.vec.pwr = .on → s.rd Reg.CORE_VEC_CTRL_PD_EN c 0 = 1 → (∀ e ∈ C.vec.units, e.2 ≤ C.seq.cc) → C.seq.bundle = none →
      exec (.vecPowerDown c) s = .next (s.setCore c { C with vec := { C.vec with pwr := .down } }))
    ∧ ((∃ e ∈ C.vec.units, C.seq.cc < e.2) → exec (.vecPowerDown c) s = .next s)
    ∧ (C.vec.pwr = .down → ∃ s', exec (.vecCtrlWake c) s = .next s' ∧ s'.core c = { C with vec := { C.vec with pwr := .waking } }
        ∧ s'.rd Reg.CORE_VEC_WAKES_COUNT c 0
            = min (s.rd Reg.CORE_VEC_WAKES_COUNT c 0 + 1) (2 ^ Reg.CORE_VEC_WAKES_COUNT.width - 1)
        ∧ FieldsBut s s' [(Reg.CORE_VEC_WAKES_COUNT, c.val, 0)] ∧ ∀ d, d ≠ c → s'.core d = s.core d)
    ∧ (C.vec.pwr ≠ .down → exec (.vecCtrlWake c) s = .next s)
    ∧ (C.vec.pwr = .waking → exec (.vecWakeDone c) s = .next (s.setCore c { C with vec := { C.vec with pwr := .on } }))
    ∧ ∀ (h : Hd) (o : VOpt) (vd va : VReg) (t : TaskId), h.core = c → Ready s c t → h.last = true → C.vec.pwr = .down →
        o.fmt = .u8 → o.g = .g1 → (o.m = true → vd.val ≠ 31) → ∃ s', exec (.vnot h o vd va) s = .next s'
          ∧ (s'.core c).vec.pwr = .waking ∧ (s'.core c).seq.inD = true ∧ s'.task c t = s.task c t ∧ (s'.core c).vec.v = C.vec.v

/-- The rows of the core's control registers and of the vector unit's power. -/
def Obligations.CoreControl : Prop :=
  Claims.CoreControlRows ∧ Claims.VectorPower

/-- A fetch of the line of the PC fills the prefetch buffer with its 64 B; the oldest store-buffer entry drains to its bytes and to no
others; the oldest scalar load writes its registers and leaves; a load that met an uncorrectable word raises the deferred fault ECC and
writes nothing (R96, R99, R111, R538). -/
def Claims.FetchDrainAndLoadReturn : Prop :=
  ∀ (c : CoreId) (s : State),
    let C := s.core c
    (∀ t : TaskId, C.seq.running = some t → s.on Reg.CORE_SEQ_CTRL_RUN c 0 = true →
      let a := (s.task c t).pc.toNat / 64 * 64
      let off := s.winBase c t + a
      a + 64 ≤ s.winLen c t → C.seq.pre.any (fun e => e.1 == off / 64) = false → s.on Reg.CORE_SEQ_CTRL_LCACHE_EN c 0 = false →
      C.seq.lcLen = 0 → Claims.sound C off 64 → (∀ e ∈ C.vec.late, e.cc < C.seq.cc) →
      exec (.lineFetch c (BitVec.ofNat 32 a) []) s = .next (s.setCore c { C with seq := { C.seq with
        pre := C.seq.pre ++ [(off / 64, BitVec.ofNat 512 (leNat (s.granBytes c off 64)), false, false)] } }))
    ∧ (∀ (off : Nat) (bs : List Byte) (rest : List (Nat × List Byte)), C.seq.sbuf = (off, bs) :: rest →
        ∃ s', exec (.storeBufferDrain c []) s = .next s' ∧ (s'.core c).seq = { C.seq with sbuf := rest }
          ∧ s'.granBytes c off bs.length = bs
          ∧ (∀ a, a < off ∨ off + bs.length ≤ a → cellGet 0 (s'.core c).gran.bytes a = cellGet 0 C.gran.bytes a)
          ∧ (∀ d, d ≠ c → s'.core d = s.core d) ∧ (s'.core c).vec = C.vec ∧ s'.dram = s.dram)
    ∧ (∀ (l : SLoad) (rest : List SLoad), C.seq.loads = l :: rest → l.failed = false → l.bad = false →
        ∃ s', exec (.scalarLoadReturn c []) s = .next s' ∧ (s'.core c).seq.loads = rest
          ∧ s'.task c l.task = { s.task c l.task with s := l.dst.foldl (fun v d => v.set d.1 d.2) (s.task c l.task).s }
          ∧ (∀ u, u ≠ l.task → s'.task c u = s.task c u) ∧ SameMem s s' ∧ FieldsBut s s' [])
    ∧ ∀ (l : SLoad) (rest : List SLoad), C.seq.loads = l :: rest → l.failed = false → l.bad = true → C.seq.running = some l.task →
        ¬(srINH (s.task c l.task).sr = true ∧ srILVL (s.task c l.task).sr = 0) → (s.task c l.task).st = .running →
        ∃ s', exec (.scalarLoadReturn c []) s = .next s' ∧ s'.task c l.task = s.task c l.task
          ∧ (s'.core c).seq.fault = some { cause := 0x0A, task := l.task, deferred := true, half := false, addr := none, pc := l.pc }
          ∧ (s'.core c).seq.loads = { l with failed := true } :: rest
          ∧ (s'.rd Reg.CORE_IRQ_PEND_PEND c 0).testBit 0 = true

/-- A switch at a bundle boundary starts the READY task of the highest PRIO, and among those the first after the one that runs or last
ran, in order of number; the one that ran becomes READY (R95). A wait longer than WAIT_LIMIT is told once (R320). -/
def Claims.TaskSwitches : Prop :=
  ∀ (c : CoreId) (s : State),
    let C := s.core c
    let run := C.seq.double = false ∧ C.seq.bundle = none ∧ s.on Reg.CORE_SEQ_CTRL_RUN c 0 = true
    let before := C.seq.running.getD C.seq.last
    (∀ u : TaskId, (s.task c u).st = .ready →
      (∀ x, (s.task c x).st = .ready → s.rd Reg.CORE_TASK_CFG_PRIO c x ≤ s.rd Reg.CORE_TASK_CFG_PRIO c u
        ∧ (s.rd Reg.CORE_TASK_CFG_PRIO c x = s.rd Reg.CORE_TASK_CFG_PRIO c u →
            (u.val + 7 - before.val) % 8 ≤ (x.val + 7 - before.val) % 8)) → run →
      (C.seq.running = none → ∃ s', exec (.taskSwitch c) s = .next s' ∧ (s'.core c).seq.running = some u
        ∧ s'.task c u = { s.task c u with st := .running } ∧ (s'.core c).seq.lcHeld = [] ∧ (∀ x, x ≠ u → s'.task c x = s.task c x)
        ∧ s'.rd Reg.CORE_STALL_FETCH_COUNT c 0 = min (s.rd Reg.CORE_STALL_FETCH_COUNT c 0 + 7) (2 ^ 64 - 1)
        ∧ FieldsBut s s' [(Reg.CORE_STALL_FETCH_COUNT, c.val, 0), (Reg.CORE_VEC_ON_CC_COUNT, c.val, 0)] ∧ SameMem s s')
      ∧ (∀ t : TaskId, C.seq.running = some t → C.seq.inD = false → t ≠ u → s.recognisable c (s.task c t).sr = none →
          s.rd Reg.CORE_TASK_CFG_PRIO c t < s.rd Reg.CORE_TASK_CFG_PRIO c u →
          ∃ s', exec (.taskSwitch c) s = .next s' ∧ (s'.core c).seq.running = some u ∧ (s'.core c).seq.last = u
            ∧ (s'.task c u).st = .running ∧ s'.task c t = { s.task c t with st := .ready } ∧ SameMem s s')
      ∧ (C.seq.inD = true → C.seq.running.isSome = true → exec (.taskSwitch c) s = .next s))
    ∧ ∀ (t : TaskId) (v : Word) (ctr : BitVec 8), (s.task c t).wait = .row v ctr → (s.task c t).longTold = false →
        s.rd Reg.PIPE_CTRL_WAIT_LIMIT c 0 ≠ 0 → ∃ s' e, exec (.pipeWaitLong c t) s = .next s' ∧ s'.events = s.events ++ [e]
          ∧ e.code = 0x062 ∧ e.args = [t.val, ctr.toNat, v.toNat] ∧ s'.task c t = { s.task c t with longTold := true }
          ∧ exec (.pipeWaitLong c t) s' = .next s'

/-- The sequencer's own rows: fetches, drains, returning loads, and switches of tasks. -/
def Obligations.SequencerRows : Prop :=
  Claims.FetchDrainAndLoadReturn ∧ Claims.TaskSwitches

/-! ## Scalar memory (03 R80, R90, R92, R99..R104) -/

/-- A task after the pointer update of a memory operand (R80). -/
def Claims.stepped (k : Task) (m : MAddr) : Task :=
  match m.mode with
  | .postI imm => { k with p := k.p.set m.p (Claims.ptrStep k m.p (imm.signExtend 32)) }
  | .postR sb => { k with p := k.p.set m.p (Claims.ptrStep k m.p (k.s.get sb)) }
  | _ => k

/-- The loads of one register: size in bytes, and the register's value from the bytes read (R100). -/
def Claims.loads : List ((Hd → SReg → MAddr → Instr) × Nat × (Nat → Word)) :=
  [(.ldb, 1, fun v => (BitVec.ofNat 8 v).signExtend 32), (.ldbu, 1, fun v => BitVec.ofNat 32 v),
   (.ldh, 2, fun v => (BitVec.ofNat 16 v).signExtend 32), (.ldhu, 2, fun v => BitVec.ofNat 32 v),
   (.ldw, 4, fun v => BitVec.ofNat 32 v)]

/-- A core with one more load in flight. -/
def Claims.loading (C : Core) (l : SLoad) : Core := { C with seq := { C.seq with loads := C.seq.loads ++ [l] } }

/-- Loads inside the window: the load in flight holds the register's new value, from the little-endian bytes at the address, which lie
in the Granary or, where the youngest store-buffer entry that overlaps them holds them all, in that entry; the pointer moves; no byte
changes. LDD fills an even-odd pair, POP and POPD also raise DSP (R90, R100, R102). -/
def Claims.ScalarLoads : Prop :=
  ∀ (h : Hd) (sr : SReg) (s : State) (t : TaskId), Ready s h.core t → h.last = true →
    let c := h.core
    let k := s.task c t
    let C := s.core c
    let at_ := fun (i : Instr) (a n : Nat) (k' : Task) (dst : Nat → List (SReg × Word)) =>
      let off := s.winBase c t + a
      (a + n ≤ s.winLen c t → C.seq.sbuf = [] → Claims.sound C off n →
        ∃ s', exec i s = .next s' ∧ SameMem s s'
          ∧ Retires s s' c t { k' with pc := k.pc + 32 } (Claims.loading C
              { task := t, pc := k.pc, dst := dst (leNat (s.granBytes c off n)), bad := false, failed := false }) [])
      ∧ ∀ (e : Nat) (bs : List Byte), a + n ≤ s.winLen c t → C.seq.sbuf = [(e, bs)] → e ≤ off → off + n ≤ e + bs.length →
          off % 64 + n ≤ 64 →
          ∃ s', exec i s = .next s' ∧ SameMem s s'
            ∧ Retires s s' c t { k' with pc := k.pc + 32 } (Claims.loading C
                { task := t, pc := k.pc, dst := dst (leNat ((bs.drop (off - e)).take n)), bad := false, failed := false }) []
    let pair := fun v : Nat => [(sr, (BitVec.ofNat 32 v : Word)), (nextReg sr, BitVec.ofNat 32 (v / 2 ^ 32))]
    (∀ e ∈ Claims.loads, ∀ m : MAddr,
      at_ (e.1 h sr m) (addrOf k m).toNat e.2.1 (Claims.stepped k m) (fun v => [(sr, e.2.2 v)]))
    ∧ (sr.val % 2 = 0 → ∀ m : MAddr, at_ (.ldd h sr m) (addrOf k m).toNat 8 (Claims.stepped k m) pair)
    ∧ at_ (.pop h sr) k.dsp.toNat 4 { k with dsp := k.dsp + 4 } (fun v => [(sr, BitVec.ofNat 32 v)])
    ∧ (sr.val % 2 = 0 → at_ (.popd h sr) k.dsp.toNat 8 { k with dsp := k.dsp + 8 } pair)

/-- A core with more store-buffer entries. -/
def Claims.storing (C : Core) (es : List (Nat × List Byte)) : Core := { C with seq := { C.seq with sbuf := C.seq.sbuf ++ es } }

/-- The entries of a store: one, or two where it crosses a line of the Granary (R102). -/
def Claims.pieces (off : Nat) (bs : List Byte) : List (Nat × List Byte) :=
  let r := 64 - off % 64
  if bs.length ≤ r then [(off, bs)] else [(off, bs.take r), (off + r, bs.drop r)]

/-- Stores inside the window enter the store buffer with their little-endian bytes; the pointer moves; a push lowers DSP first and
stores at the new DSP. No byte of memory changes until the entry drains (R90, R99, R102). -/
def Claims.ScalarStores : Prop :=
  ∀ (h : Hd) (sr : SReg) (s : State) (t : TaskId), Ready s h.core t → h.last = true →
    let c := h.core
    let k := s.task c t
    let C := s.core c
    C.seq.sbuf.length ≤ 6 →
    let at_ := fun (i : Instr) (a : Nat) (bs : List Byte) (k' : Task) => a + bs.length ≤ s.winLen c t →
      ∃ s', exec i s = .next s' ∧ SameMem s s'
        ∧ Retires s s' c t { k' with pc := k.pc + 32 } (Claims.storing C (Claims.pieces (s.winBase c t + a) bs)) []
    let lo := leBytes 4 (k.s.get sr).toNat
    let both := lo ++ leBytes 4 (k.s.get (nextReg sr)).toNat
    let limit := s.rd Reg.CORE_TASK_DSL_LIMIT c t * 4
    (∀ m : MAddr, at_ (.stb h sr m) (addrOf k m).toNat (lo.take 1) (Claims.stepped k m)
      ∧ at_ (.sth h sr m) (addrOf k m).toNat (lo.take 2) (Claims.stepped k m)
      ∧ at_ (.stw h sr m) (addrOf k m).toNat lo (Claims.stepped k m)
      ∧ (sr.val % 2 = 0 → at_ (.std h sr m) (addrOf k m).toNat both (Claims.stepped k m)))
    ∧ (limit + 4 ≤ k.dsp.toNat → at_ (.push h sr) (k.dsp.toNat - 4) lo { k with dsp := k.dsp - 4 })
    ∧ (limit + 8 ≤ k.dsp.toNat → sr.val % 2 = 0 → at_ (.pushd h sr) (k.dsp.toNat - 8) both { k with dsp := k.dsp - 8 })

/-- Scalar loads, stores, pushes and pops. -/
def Obligations.ScalarMemory : Prop :=
  Claims.ScalarLoads ∧ Claims.ScalarStores

/-! ## Vector operations (04, 05 R176..R179) -/

/-- Element `j` of width `w` of the group that starts at `v` (R127). -/
def Claims.elem (vs : Vector VWord 32) (v : VReg) (w j : Nat) : Nat :=
  ((vs.get (Fin.ofNat 32 (v.val + j / (4096 / w)))).extractLsb' (w * (j % (4096 / w))) w).toNat

/-- Where the vector unit's arithmetic edge cases show (R68, R69). -/
def Claims.vecFlagFields (c : Nat) : List (Fld × Nat × Nat) :=
  [(whole Reg.CORE_ARITH_FLAGS, c, 0), (Reg.CORE_SAT_CNT_VEC_COUNT, c, 0), (Reg.CORE_NAN_CNT_VEC_COUNT, c, 0)]

/-- The flags and counts that a vector operation leaves: OV, SAT and NAN of its active elements (R48, R69, R129). -/
def Claims.vecFlagged (s s' : State) (c : CoreId) (ov : Bool) (sat nan : Nat) : Prop :=
  s'.csrGet Reg.CORE_ARITH_FLAGS c 0
      = s.csrGet Reg.CORE_ARITH_FLAGS c 0 ||| BitVec.ofNat 64 (bit01 ov + 4 * bit01 (sat != 0) + 8 * bit01 (nan != 0))
    ∧ s'.rd Reg.CORE_SAT_CNT_VEC_COUNT c 0 = min (s.rd Reg.CORE_SAT_CNT_VEC_COUNT c 0 + sat) (2 ^ 32 - 1)
    ∧ s'.rd Reg.CORE_NAN_CNT_VEC_COUNT c 0 = min (s.rd Reg.CORE_NAN_CNT_VEC_COUNT c 0 + nan) (2 ^ 32 - 1)

/-- A core ready for a vector operation: its vector unit has power (R161). -/
structure Claims.vecReady (s : State) (h : Hd) (t : TaskId) : Prop where
  ready : Ready s h.core t
  last : h.last = true
  on : (s.core h.core).vec.pwr = .on

/-- Whether element `j` is active (R129). -/
def Claims.act (C : Core) (m : Bool) (j : Nat) : Bool := !m || (C.vec.v.get 31).getLsbD j

/-- The bundle retires with only the vector state changed, to `V`, and the flags of the active elements below `n`. -/
def Claims.vecRetires (s s' : State) (h : Hd) (t : TaskId) (k' : Task) (V : Vec) (m : Bool) (n : Nat) (f : Nat → VRes) : Prop :=
  let c := h.core
  let C := s.core c
  let js := (List.range n).filter (Claims.act C m)
  let ov := js.any (fun j => (f j).ov)
  let sat := js.countP (fun j => (f j).sat)
  let nan := js.countP (fun j => (f j).nan)
  Retires s s' c t { k' with pc := (s.task c t).pc + 32 } { C with vec := V }
      (if ov = true ∨ sat ≠ 0 ∨ nan ≠ 0 then Claims.vecFlagFields c else [])
    ∧ Claims.vecFlagged s s' c ov sat nan ∧ SameMem s s'

/-- The operation writes elements `0 .. n - 1` of width `w` of the group of `g` registers at `vd`, the inactive ones keeping their
values, with the flags of the active ones; no other register of the core and no byte changes (R127, R129). -/
def Claims.vecDone (i : Instr) (h : Hd) (s : State) (t : TaskId) (m : Bool) (vd : VReg) (g w n : Nat) (f : Nat → VRes) : Prop :=
  let C := s.core h.core
  let k := s.task h.core t
  ∃ s' vs, exec i s = .next s' ∧ Claims.vecRetires s s' h t k { C.vec with v := vs } m n f
    ∧ (∀ r : VReg, r.val < vd.val ∨ vd.val + g ≤ r.val → vs.get r = C.vec.v.get r)
    ∧ ∀ j < n, Claims.elem vs vd w j = if Claims.act C m j then (f j).code % 2 ^ w else Claims.elem C.vec.v vd w j

/-- A group of `g` registers, aligned (R127); a masked destination may not hold v31 (R129). -/
def Claims.dest (m : Bool) (vd : VReg) (g : Nat) : Prop := vd.val % g = 0 ∧ vd.val + g ≤ 32 ∧ (m = true → vd.val + g ≤ 31)

/-- The alignment of a last source (R127). -/
def Claims.srcOk (g : Nat) : VSrc → Prop
  | .vec v => v.val % g = 0
  | .scl _ => True

/-- Element `j` of a last source: of the group, or the low bits of the scalar (R147). -/
def Claims.srcElem (k : Task) (vs : Vector VWord 32) (w : Nat) (b : VSrc) (j : Nat) : Nat :=
  match b with
  | .vec v => Claims.elem vs v w j
  | .scl r => (k.s.get r).toNat % 2 ^ w

/-- A code as an integer. -/
def Claims.ival (signed : Bool) (w x : Nat) : Int := if signed ∧ 2 ^ (w - 1) ≤ x then (x : Int) - 2 ^ w else x

/-- The smallest and the largest integer of `w` bits. -/
def Claims.bounds (signed : Bool) (w : Nat) : Int × Int := if signed then (-2 ^ (w - 1), 2 ^ (w - 1) - 1) else (0, 2 ^ w - 1)

/-- The code of an integer at `w` bits. -/
def Claims.code (w : Nat) (x : Int) : Nat := (x % 2 ^ w).toNat

/-- A result that meets no edge. -/
def Claims.exact (w : Nat) (x : Int) : VRes := ⟨Claims.code w x, false, false, false⟩

/-- An exact result wrapped or saturated at `w` bits, with OV and SAT (R60). -/
def Claims.fit (signed saturating : Bool) (w : Nat) (x : Int) : VRes :=
  let (lo, hi) := Claims.bounds signed w
  let out := decide (x < lo ∨ hi < x)
  ⟨Claims.code w (if saturating then max lo (min hi x) else x), out, saturating && out, false⟩

/-- A rounded result saturated at `w` bits: it counts as saturated, and sets no OV (R48, R58). -/
def Claims.clip (signed : Bool) (w : Nat) (x : Int) : VRes :=
  let (lo, hi) := Claims.bounds signed w
  ⟨Claims.code w (max lo (min hi x)), false, decide (x < lo ∨ hi < x), false⟩

/-- The integer operations of two sources: their result by signedness, width and the two elements (R147). -/
def Claims.vecInt2 : List ((Hd → VOpt → VReg → VReg → VSrc → Instr) × (Bool → Nat → Int → Int → VRes)) :=
  [(.vadd, fun sg w x y => Claims.fit sg false w (x + y)), (.vsub, fun sg w x y => Claims.fit sg false w (x - y)),
   (.vmul, fun sg w x y => Claims.fit sg false w (x * y)), (.vadds, fun sg w x y => Claims.fit sg true w (x + y)),
   (.vsubs, fun sg w x y => Claims.fit sg true w (x - y)), (.vmuls, fun sg w x y => Claims.fit sg true w (x * y)),
   (.vmin, fun _ w x y => Claims.exact w (min x y)), (.vmax, fun _ w x y => Claims.exact w (max x y)),
   (.vabsd, fun sg w x y => Claims.clip sg w (x - y).natAbs)]

/-- The bitwise operations (R147). -/
def Claims.vecBits2 : List ((Hd → VOpt → VReg → VReg → VSrc → Instr) × (Nat → Nat → Nat → Nat)) :=
  [(.vand, fun _ x y => x &&& y), (.vor, fun _ x y => x ||| y), (.vxor, fun _ x y => x ^^^ y),
   (.vandn, fun w x y => x &&& (2 ^ w - 1 - y))]

/-- The shifts: whether the count is signed, and the result of an element by its width, code and count (R62). -/
def Claims.vecShifts : List ((Hd → VOpt → VReg → VReg → VSrc → Instr) × Bool × (Nat → Nat → Int → VRes)) :=
  let right := fun (w x n : Nat) => Claims.exact w (Claims.ival true w x / 2 ^ n)
  let left := fun (sat : Bool) (w x n : Nat) => Claims.fit true sat w (Claims.ival true w x * 2 ^ n)
  [(.vsll, false, fun w x n => Claims.exact w ((x : Int) * 2 ^ n.toNat)), (.vsrl, false, fun w x n => Claims.exact w ((x / 2 ^ n.toNat : Nat) : Int)),
   (.vsra, false, fun w x n => right w x n.toNat),
   (.vssl, true, fun w x n => if n < 0 then right w x n.natAbs else left false w x n.natAbs),
   (.vssls, true, fun w x n => if n < 0 then right w x n.natAbs else left true w x n.natAbs),
   (.vssr, true, fun w x n => if n < 0 then left false w x n.natAbs else right w x n.natAbs)]

/-- The count of a vector shift: a scalar's whole value, or the element's, signed for the signed-count shifts (R62). -/
def Claims.shiftCount (signed : Bool) (k : Task) (vs : Vector VWord 32) (w : Nat) (b : VSrc) (j : Nat) : Int :=
  match b with
  | .vec v => Claims.ival signed w (Claims.elem vs v w j)
  | .scl r => if signed then (k.s.get r).toInt else (k.s.get r).toNat

/-- Integer formats of vector arithmetic, and the formats that fix a lane width (R126). -/
def Claims.intFmts : List Fmt := [.u8, .s8, .u16, .s16, .s32]
def Claims.laneFmts : List Fmt := Claims.intFmts ++ [.u4, .s4, .u12, .e4m3, .e5m2, .fp16, .bf16, .fp32]

/-- The element-wise integer, bitwise and shift operations, for every format, group, mask and last source (R60, R62, R126..R129, R147). -/
def Claims.VectorElementwise : Prop :=
  ∀ (h : Hd) (o : VOpt) (vd va : VReg) (b : VSrc) (s : State) (t : TaskId), Claims.vecReady s h t →
    let k := s.task h.core t
    let V := (s.core h.core).vec.v
    let g := grpCount o.g
    let w := laneBits o.fmt
    let n := 4096 * g / w
    let sg := o.fmt ∈ [Fmt.s8, .s16, .s32]
    let a := fun j => Claims.elem V va w j
    let x := fun j => Claims.ival (decide sg) w (a j)
    let y := fun j => Claims.srcElem k V w b j
    let done := fun i f => Claims.vecDone i h s t o.m vd g w n f
    Claims.dest o.m vd g → va.val % g = 0 → Claims.srcOk g b →
    (o.fmt ∈ Claims.laneFmts →
      (∀ e ∈ Claims.vecBits2, done (e.1 h o vd va b) (fun j => ⟨e.2 w (a j) (y j), false, false, false⟩))
      ∧ done (.vnot h o vd va) (fun j => ⟨2 ^ w - 1 - a j, false, false, false⟩)
      ∧ ∀ vm, done (.vsel h o vd va b vm) (fun j => ⟨if (V.get vm).getLsbD j then a j else y j, false, false, false⟩))
    ∧ (o.fmt ∈ Claims.intFmts →
        (∀ e ∈ Claims.vecInt2, done (e.1 h o vd va b) (fun j => e.2 (decide sg) w (x j) (Claims.ival (decide sg) w (y j))))
        ∧ (∀ e ∈ Claims.vecShifts, done (e.1 h o vd va b) (fun j => e.2.2 w (a j) (Claims.shiftCount e.2.1 k V w b j)))
        ∧ done (.vabs h o vd va) (fun j => Claims.fit (decide sg) false w (x j).natAbs)
        ∧ done (.vabss h o vd va) (fun j => Claims.fit (decide sg) true w (x j).natAbs)
        ∧ (∀ rm, done (.vavg h o vd va b rm) (fun j => Claims.exact w (Claims.rshr (x j + Claims.ival (decide sg) w (y j)) 1 rm)))
        ∧ (∀ rm, done (.vqmul h o vd va b rm) (fun j =>
            Claims.clip (decide sg) w (Claims.rshr (x j * Claims.ival (decide sg) w (y j)) (w - 1) rm)))
        ∧ ∀ (p : Fin 64) (rm : RMode), done (.vrshr h o vd va p rm) (fun j => Claims.exact w (Claims.rshr (x j) p rm)))

/-- Comparisons, VSPAN and VCLASS: a mask takes the outcome of each active element, keeps its bit for an inactive one, and is 0 from N up;
a NaN is unequal and not less (R129, R147, R157). -/
def Claims.VectorCompares : Prop :=
  ∀ (h : Hd) (o : VOpt) (vd va : VReg) (s : State) (t : TaskId), Claims.vecReady s h t →
    let k := s.task h.core t
    let C := s.core h.core
    let V := C.vec.v
    let g := grpCount o.g
    let w := laneBits o.fmt
    let n := 4096 * g / w
    let value := fun x => decodeVal o.fmt x
    let masks := fun (i : Instr) (f : Nat → Bool) => ∃ s' x, exec i s = .next s'
      ∧ Claims.vecRetires s s' h t k { C.vec with v := V.set vd x } o.m 0 (fun _ => ⟨0, false, false, false⟩)
      ∧ ∀ j < 4096, x.getLsbD j = if j < n then (if Claims.act C o.m j then f j else (V.get vd).getLsbD j) else false
    (o.m = true → vd.val ≠ 31) → va.val % g = 0 →
    (o.fmt ∈ Claims.laneFmts → ∀ sa : SReg, masks (.vspan h o vd sa) (fun j => decide (j < (k.s.get sa).toNat)))
    ∧ (o.fmt ∈ Claims.intFmts ++ [.fp16, .bf16, .fp32] →
        (∀ b : VSrc, Claims.srcOk g b →
          let x := fun j => value (Claims.elem V va w j)
          let y := fun j => value (Claims.srcElem k V w b j)
          masks (.vcmpeq h o vd va b) (fun j => eqVal (x j) (y j)) ∧ masks (.vcmpne h o vd va b) (fun j => !eqVal (x j) (y j))
          ∧ masks (.vcmplt h o vd va b) (fun j => ltVal (x j) (y j))
          ∧ masks (.vcmple h o vd va b) (fun j => ltVal (x j) (y j) || eqVal (x j) (y j)))
        ∧ ∀ sa sb : SReg, Claims.dest o.m vd g → Claims.vecDone (.vclass h o vd va sa sb) h s t o.m vd g w n (fun j =>
            let x := value (Claims.elem V va w j)
            let lo := value ((k.s.get sa).toNat % 2 ^ w)
            let hi := value ((k.s.get sb).toNat % 2 ^ w)
            let least := fun p => ltVal p x || eqVal x p
            ⟨if least hi then 2 else if least lo ∧ ltVal x hi = true then 1 else 0, false, false, false⟩))

/-- Vector operations element by element, and the comparisons that write a mask. -/
def Obligations.VectorLanes : Prop :=
  Claims.VectorElementwise ∧ Claims.VectorCompares

/-- Groups that share no register. -/
def Claims.apart (v : VReg) (g : Nat) (u : VReg) (k : Nat) : Prop := v.val + g ≤ u.val ∨ u.val + k ≤ v.val

/-- Widening and narrowing: VADDW, VSUBW and VMULW give exact results of twice the width; VNRSHR narrows with one rounding; VCVT converts each
element by its value, with the zero point of an integer destination (R53, R58, R128, R147). -/
def Obligations.VectorWidths : Prop :=
  ∀ (h : Hd) (o : VOpt) (vd va : VReg) (s : State) (t : TaskId), Claims.vecReady s h t →
    let k := s.task h.core t
    let V := (s.core h.core).vec.v
    let g := grpCount o.g
    let w := laneBits o.fmt
    let n := 4096 * g / w
    let sg := decide (o.fmt ∈ [Fmt.s8, .s16])
    (o.fmt ∈ [Fmt.u8, .s8, .u16, .s16] → g ≤ 4 →
      (∀ e ∈ [(Instr.vaddw, fun x y : Int => x + y), (.vsubw, fun x y => x - y), (.vmulw, fun x y => x * y)], ∀ b : VSrc,
        Claims.dest o.m vd (2 * g) → va.val % g = 0 → Claims.srcOk g b → Claims.apart vd (2 * g) va g →
        (∀ v, b = .vec v → Claims.apart vd (2 * g) v g) →
        Claims.vecDone (e.1 h o vd va b) h s t o.m vd (2 * g) (2 * w) n (fun j =>
          Claims.exact (2 * w) (e.2 (Claims.ival sg w (Claims.elem V va w j)) (Claims.ival sg w (Claims.srcElem k V w b j)))))
      ∧ ∀ (p : Fin 64) (rm : RMode), Claims.dest o.m vd g → va.val % (2 * g) = 0 → Claims.apart vd g va (2 * g) →
          Claims.vecDone (.vnrshr h o vd va p rm) h s t o.m vd g w n (fun j =>
            Claims.clip sg w (Claims.rshr (Claims.ival sg (2 * w) (Claims.elem V va (2 * w) j)) p rm)))
    ∧ ∀ (src : Fmt) (zp : Option SReg), let ws := laneBits src
        let low := min w ws
        let gd := g * (w / low)
        let gs := g * (ws / low)
        let fmts := Claims.intFmts ++ [.fp16, .bf16, .fp32, .e4m3, .e5m2]
        o.fmt ∈ fmts → src ∈ fmts → (zp.isSome = true ↔ o.fmt ∈ Claims.intFmts) → gd ≤ 8 → gs ≤ 8 → Claims.dest o.m vd gd →
        va.val % gs = 0 → (gd = gs ∨ Claims.apart vd gd va gs) →
        Claims.vecDone (.vcvt h o vd va src zp) h s t o.m vd gd w (4096 * g / low) (fun j =>
          let z := match zp with
            | some r => Claims.ival (decide (o.fmt ∈ [Fmt.s8, .s16, .s32])) 16 ((k.s.get r).toNat % 65536)
            | none => 0
          let x := toCode k.arith o.fmt z (decodeVal src (Claims.elem V va ws j))
          ⟨x.code, false, x.sat, x.nan⟩)

/-- Lane `j` of an accumulator (R130). -/
def Claims.lane48 (a : AccWord) (j : Nat) : Int := (a.extractLsb' (48 * j) 48).toInt

/-- Accumulators: VMAC and VMACS add each exact product to its lane, saturating at 48 bits; VACLR clears; VARSHR narrows with one rounding;
VRESCALE multiplies, shifts by 0..63, adds the zero point and rounds once; for a larger shift it completes with results that the rules
leave open, and to FP32 both round to nearest even (R53, R59, R130, R147, R148; the larger shifts and FP32 are the model's choice, log 12). -/
def Obligations.VectorAccumulators : Prop :=
  ∀ (h : Hd) (o : VOpt) (ak : AReg) (s : State) (t : TaskId), Claims.vecReady s h t → o.g = .g1 →
    let k := s.task h.core t
    let C := s.core h.core
    let V := C.vec.v
    let w := laneBits o.fmt
    let acc := Claims.lane48 (C.vec.a.get ak)
    let sg := fun f : Fmt => decide (f ∈ [Fmt.s8, .s16, .s32])
    let narrow := fun f : Fmt => f ∈ [Fmt.u8, .s8, .u16, .s16]
    (∀ (va : VReg) (fb : Fmt), narrow o.fmt → narrow fb →
      let wb := laneBits fb
      let n := 4096 / max w wb
      let macs := fun (i : Instr) (b : Nat → Nat) =>
        let f := fun j => Claims.fit true true 48 (acc j + Claims.ival (sg o.fmt) w (Claims.elem V va w j) * Claims.ival (sg fb) wb (b j))
        ∃ s' x, exec i s = .next s' ∧ Claims.vecRetires s s' h t k { C.vec with a := C.vec.a.set ak x } o.m n f
          ∧ ∀ j < 512, Claims.lane48 x j = if j < n ∧ Claims.act C o.m j = true then Claims.ival true 48 (f j).code else acc j
      (∀ vb, macs (.vmac h o ak va vb fb) (fun j => Claims.elem V vb wb j))
      ∧ ∀ sb : SReg, macs (.vmacs h o ak va sb fb) (fun _ => (k.s.get sb).toNat % 2 ^ wb))
    ∧ (∃ s', exec (.vaclr h ak) s = .next s'
        ∧ Claims.vecRetires s s' h t k { C.vec with a := C.vec.a.set ak 0 } false 0 (fun _ => ⟨0, false, false, false⟩))
    ∧ ∀ vd : VReg, o.fmt ∈ Claims.intFmts → Claims.dest o.m vd 1 →
        (∀ (p : Fin 64) (rm : RMode), Claims.vecDone (.varshr h o vd ak p rm) h s t o.m vd 1 w (4096 / w) (fun j =>
          Claims.clip (sg o.fmt) w (Claims.rshr (acc j) p rm)))
        ∧ ∀ sm sn : SReg, sn.val % 2 = 0 → (∃ f, Claims.vecDone (.vrescale h o vd ak sm sn) h s t o.m vd 1 w (4096 / w) f)
          ∧ ((k.s.get sn).toNat < 64 → Claims.vecDone (.vrescale h o vd ak sm sn) h s t o.m vd 1 w (4096 / w) (fun j =>
            let p := (k.s.get sn).toNat
            let zp := Claims.ival (sg o.fmt) 16 ((k.s.get (nextReg sn)).toNat % 65536)
            let x := acc j * ((k.s.get sm).toNat : Int) + zp * 2 ^ p   -- over 2 ^ p
            let (lo, hi) := Claims.bounds (sg o.fmt) w
            let sat := decide (2 * x ≤ (2 * lo - 1) * 2 ^ p ∨ (2 * hi + 1) * 2 ^ p ≤ 2 * x)
            ⟨Claims.code w (max lo (min hi (Claims.rshr x p .rne))), false, sat, false⟩))
    ∧ ∀ vd : VReg, o.fmt = .fp32 → Claims.dest o.m vd 1 →
        (∀ (p : Fin 64) (rm : RMode), Claims.vecDone (.varshr h o vd ak p rm) h s t o.m vd 1 32 128 (fun j =>
          ⟨encodeFp32 (valInt (Claims.rshr (acc j) p rm)), false, false, false⟩))
        ∧ ∀ sm sn : SReg, sn.val % 2 = 0 → ∃ f, Claims.vecDone (.vrescale h o vd ak sm sn) h s t o.m vd 1 32 128 f

/-- Floating point: the exact sum, product or fused result is written with one rounding; VFMIN and VFMAX order −0 below +0 and take the other
operand of one NaN; and the interpolations VLERP and VCUBIC, exact before their rounding (R46, R149, R155, R156). -/
def Obligations.VectorFloat : Prop :=
  ∀ (h : Hd) (o : VOpt) (vd va : VReg) (s : State) (t : TaskId), Claims.vecReady s h t →
    let k := s.task h.core t
    let V := (s.core h.core).vec.v
    let g := grpCount o.g
    let w := laneBits o.fmt
    let n := 4096 * g / w
    let done := fun i f => Claims.vecDone i h s t o.m vd g w n f
    let a := fun j => Claims.elem V va w j
    let val := fun x => decodeVal o.fmt x
    let written := fun x : Val => (⟨(fpResult k.arith o.fmt x).code, false, (fpResult k.arith o.fmt x).sat, false⟩ : VRes)
    Claims.dest o.m vd g →
    (∀ b : VSrc, o.fmt ∈ [Fmt.fp16, .bf16, .fp32] → va.val % g = 0 → Claims.srcOk g b →
      let y := fun j => Claims.srcElem k V w b j
      done (.vfadd h o vd va b) (fun j => written (addVal (val (a j)) (val (y j))))
      ∧ done (.vfsub h o vd va b) (fun j => written (addVal (val (a j)) (negVal (val (y j)))))
      ∧ done (.vfmul h o vd va b) (fun j => written (mulVal (val (a j)) (val (y j))))
      ∧ (∀ vc : VReg, vc.val % g = 0 → done (.vfma h o vd va b vc) (fun j =>
          written (addVal (mulVal (val (a j)) (val (y j))) (val (Claims.elem V vc w j)))))
      ∧ ∀ e ∈ [(Instr.vfmin, false), (.vfmax, true)], done (e.1 h o vd va b) (fun j =>
          let p := val (a j)
          let q := val (y j)
          let below := fun x z : Val => ltVal x z || (eqVal x z && valNeg x && !valNeg z)
          ⟨if p = .nan ∧ q = .nan then nanCode o.fmt else if p = .nan then y j else if q = .nan then a j
            else if (if e.2 then below p q else below q p) then y j else a j, false, false, false⟩))
    ∧ (o.fmt ∈ [Fmt.u8, .u16, .s16] → let x := Claims.ival (decide (o.fmt = .s16)) w
        ∀ (sf : SReg) (rm : RMode), let f : Int := ((k.s.get sf).toNat % 65536 : Nat)
        (∀ b : VSrc, va.val % g = 0 → Claims.srcOk g b → done (.vlerp h o vd va b sf rm) (fun j =>
          Claims.clip (decide (o.fmt = .s16)) w
            (Claims.rshr (x (a j) * 65536 + (x (Claims.srcElem k V w b j) - x (a j)) * f) 16 rm)))
        ∧ (g = 1 → va.val % 4 = 0 → done (.vcubic h o vd va sf rm) (fun j =>
            -- the weights over 2 ^ 14; their exact values over 2 ^ 49
            let q : Int := 65536
            let wt := fun z : Int => Claims.rshr (16384 * z) 49 .rne
            let m1 := wt (-f ^ 3 + 2 * f ^ 2 * q - f * q ^ 2)
            let w0 := wt (3 * f ^ 3 - 5 * f ^ 2 * q + 2 * q ^ 3)
            let p1 := wt (-3 * f ^ 3 + 4 * f ^ 2 * q + f * q ^ 2)
            let row := fun i => x (Claims.elem V (va + Fin.ofNat 32 i) w j)
            Claims.clip (decide (o.fmt = .s16)) w
              (Claims.rshr (m1 * row 0 + w0 * row 1 + p1 * row 2 + (16384 - (m1 + w0 + p1)) * row 3) 14 rm))))

/-- Permutes: lanes moved up and down, joined, chosen by index, woven, split, broadcast, packed; one element to and from a scalar; VSTART, VFAULT
and the shape word (R131, R132, R150). -/
def Obligations.VectorPermutes : Prop :=
  ∀ (h : Hd) (o : VOpt) (vd va : VReg) (s : State) (t : TaskId), Claims.vecReady s h t → o.fmt ∈ Claims.laneFmts →
    let k := s.task h.core t
    let C := s.core h.core
    let V := C.vec.v
    let g := grpCount o.g
    let w := laneBits o.fmt
    let n := 4096 * g / w
    let a := fun j => Claims.elem V va w j
    let moves := fun (i : Instr) (m : Bool) (f : Nat → Nat) => Claims.dest m vd g →
      Claims.vecDone i h s t m vd g w n (fun j => ⟨f j, false, false, false⟩)
    let plain := fun (i : Instr) (k' : Task) (v : Vec) => ∃ s', exec i s = .next s'
      ∧ Claims.vecRetires s s' h t k' v false 0 (fun _ => ⟨0, false, false, false⟩)
    (va.val % g = 0 →
      (∀ by_ : VShift, let p := match by_ with
          | .imm x => x.toNat
          | .scl r => (k.s.get r).toNat
        moves (.vlaneup h o vd va by_) false (fun j => if p ≤ j then a (j - p) else 0)
        ∧ moves (.vlanedn h o vd va by_) false (fun j => if j + p < n then a (j + p) else 0)
        ∧ (va.val + 2 * g ≤ 32 → moves (.vjoin h o vd va by_) false (fun j =>
            if n < p then 0 else if j + p < n then a (j + p) else Claims.elem V (va + Fin.ofNat 32 g) w (j + p - n))))
      ∧ (∀ vi : VReg, vi.val % g = 0 → moves (.vperm h o vd va vi) o.m (fun j =>
          let i := Claims.elem V vi w j
          if i < n then a i else 0))
      ∧ (∀ vb : VReg, vb.val % g = 0 → g ≤ 4 → Claims.dest false vd (2 * g) → Claims.vecDone (.vweave h o vd va vb) h s t false vd (2 * g) w
          (2 * n) (fun j => ⟨if j % 2 = 0 then a (j / 2) else Claims.elem V vb w (j / 2), false, false, false⟩))
      ∧ moves (.vsplit h o vd va) false (fun j => if j < n / 2 then a (2 * j) else a (2 * (j - n / 2) + 1))
      ∧ (∀ vm : VReg, ∃ f, moves (.vpack h o vd va vm) false f
          ∧ let ks := (List.range n).filter (fun i => (V.get vm).getLsbD i)
            ∀ j < n, (∀ i, ks[j]? = some i → f j = a i) ∧ (ks[j]? = none → f j = 0))
      ∧ ∀ sd sb : SReg, let i := (k.s.get sb).toNat
          let x := if i < n then Claims.ival (decide (o.fmt ∈ [Fmt.s4, .s8, .s16, .s32])) w (a i) else 0
          plain (.vmvvs h o sd va sb) { k with s := k.s.set sd (BitVec.ofInt 32 x) } C.vec)
    ∧ (∀ sa sb : SReg, moves (.vbcast h o vd sa) o.m (fun _ => (k.s.get sa).toNat % 2 ^ w)
        ∧ moves (.vmvsv h o vd sa sb) o.m (fun j =>
            if j = (k.s.get sb).toNat then (k.s.get sa).toNat % 2 ^ w else Claims.elem V vd w j))
    ∧ (∀ sd : SReg, plain (.vmvsc h sd .vstart) { k with s := k.s.set sd C.vec.vstart } C.vec
        ∧ plain (.vmvsc h sd .vfault) { k with s := k.s.set sd C.vec.vfault } C.vec
        ∧ plain (.vmvsc h sd .shape) { k with s := k.s.set sd 0x20030200 } C.vec)
    ∧ ∀ sa : SReg, plain (.vmvcs h false sa) k { C.vec with vstart := k.s.get sa &&& 0xFFF }
        ∧ plain (.vmvcs h true sa) k { C.vec with vfault := k.s.get sa &&& 0x1FFFF }

/-- The Hadamard rotation, growth along a row, prefix sums and line CRCs (R151, R152, R154, R158). -/
def Claims.VectorTransforms : Prop :=
  ∀ (h : Hd) (o : VOpt) (vd va : VReg) (s : State) (t : TaskId), Claims.vecReady s h t →
    let k := s.task h.core t
    let C := s.core h.core
    let V := C.vec.v
    let g := grpCount o.g
    let w := laneBits o.fmt
    let n := 4096 * g / w
    let sg := decide (o.fmt ∈ [Fmt.s8, .s16, .s32])
    let a := fun j => Claims.elem V va w j
    let val := fun j => Claims.ival sg w (a j)
    Claims.dest o.m vd g → va.val % g = 0 →
    (∀ (block : BitVec 2) (p : BitVec 3) (rm : RMode), o.m = false → let b := 16 * 2 ^ block.toNat
      b ≤ n →
      (o.fmt = .s16 ∨ o.fmt = .s32 → Claims.vecDone (.vhad h o vd va block p rm none) h s t false vd g w n (fun j =>
        let sum := ((List.range b).map (fun i =>
          if Claims.ones (BitVec.ofNat 32 (i &&& (j % b))) % 2 = 0 then val (j / b * b + i) else -val (j / b * b + i))).sum
        Claims.clip true w (Claims.rshr sum p.toNat rm)))
      ∧ (o.fmt = .fp32 → ∀ r : SReg, Claims.vecDone (.vhad h o vd va block 0 .rne (some r)) h s t false vd g w n (fun j =>
          ⟨mulFp32 ((hadFp32 (4 + block.toNat) ((List.range n).map a)).getD j 0) (k.s.get r).toNat, false, false, false⟩)))
    ∧ (∀ vn : VReg, o.m = false → o.fmt = .u8 ∨ o.fmt = .u16 → vn.val % g = 0 →
        let two := fun i => i < n ∧ Claims.elem V vn w i = 2
        let seed := fun j => a j = 2 ∨ (1 ≤ a j ∧ ((1 ≤ j ∧ two (j - 1)) ∨ two j ∨ two (j + 1)))
        let grows := fun j => ∃ lo hi, lo ≤ j ∧ j ≤ hi ∧ hi < n ∧ (∀ i, lo ≤ i → i ≤ hi → 1 ≤ a i) ∧ ∃ i, lo ≤ i ∧ i ≤ hi ∧ seed i
        ∃ f : Nat → Nat, Claims.vecDone (.vgrow h o vd va vn) h s t false vd g w n (fun j => ⟨f j, false, false, false⟩)
          ∧ ∀ j < n, (grows j → f j = 2) ∧ (¬grows j → f j = a j))
    ∧ (o.fmt ∈ Claims.intFmts → Claims.vecDone (.vscan h o vd va) h s t o.m vd g w n (fun j =>
        Claims.fit sg true w (((List.range (j + 1)).filter (Claims.act C o.m)).map val).sum))
    ∧ ∀ (sb : SReg) (ref : Bool), Claims.vecDone (.vcrc16 h vd va sb ref) h s t false vd 1 16 256 (fun j =>
        let line := (List.range 64).map (fun i => Claims.elem V va 8 (64 * j + i))
        ⟨if j < 8 then line.foldl (Claims.crcByte 16 ref (k.s.get sb).toNat) (Claims.elem V vd 16 j) else 0, false, false, false⟩)

/-- Reductions to scalars: sums exact and saturated to 32 bits, or in FP32 element by element; running extremes with the lowest index; the
accumulator's sum as a 64-bit pair; set bits counted and found (R130, R152, R153). -/
def Claims.VectorReductions : Prop :=
  ∀ (h : Hd) (o : VOpt) (sd : SReg) (va : VReg) (s : State) (t : TaskId), Claims.vecReady s h t →
    let k := s.task h.core t
    let C := s.core h.core
    let V := C.vec.v
    let g := grpCount o.g
    let w := laneBits o.fmt
    let n := 4096 * g / w
    let sg := decide (o.fmt ∈ [Fmt.s8, .s16, .s32])
    let a := fun j => Claims.elem V va w j
    let val := fun j => Claims.ival sg w (a j)
    let js := (List.range n).filter (Claims.act C o.m)
    let gives := fun (i : Instr) (k' : Task) (x : VRes) => ∃ s', exec i s = .next s' ∧ Claims.vecRetires s s' h t k' C.vec false 1 (fun _ => x)
    let plain : VRes := ⟨0, false, false, false⟩
    let one := fun (i : Instr) (x : Nat) => gives i { k with s := k.s.set sd (BitVec.ofNat 32 x) } plain
    (va.val % g = 0 →
      (o.fmt ∈ Claims.intFmts → let x := Claims.fit true true 32 (js.map val).sum
        gives (.vrsum h o sd va) { k with s := k.s.set sd (BitVec.ofNat 32 x.code) } x)
      ∧ (o.fmt = .fp32 → (js = [] → one (.vrsum h o sd va) 0)
          ∧ ∀ j rest, js = j :: rest → one (.vrsum h o sd va)
              (rest.foldl (fun x i => addFp32 x (a i)) (encodeFp32 (decodeVal .fp32 (a j)))))
      ∧ (o.fmt ∈ Claims.intFmts → sd.val % 2 = 0 → ∀ e ∈ [(Instr.vrmaxi, fun x y : Int => decide (y < x)), (.vrmini, fun x y => decide (x < y))],
          ∀ sb : SReg, let cur : Int := if sg then (k.s.get sd).toInt else (k.s.get sd).toNat
          (js = [] → gives (e.1 h o sd va sb) k plain)
          ∧ ∀ j ∈ js, (∀ i ∈ js, e.2 (val i) (val j) = false ∧ (val i = val j → j ≤ i)) →
              (e.2 (val j) cur = true → gives (e.1 h o sd va sb) { k with
                s := (k.s.set sd (BitVec.ofInt 32 (val j))).set (nextReg sd) (k.s.get sb + BitVec.ofNat 32 j) } plain)
              ∧ (e.2 (val j) cur = false → gives (e.1 h o sd va sb) k plain)))
    ∧ (∀ ak : AReg, o.fmt ∈ Claims.intFmts → g = 1 → sd.val % 2 = 0 → let x := (js.map (Claims.lane48 (C.vec.a.get ak))).sum
        gives (.varsum h o sd ak) { k with s := (k.s.set sd (BitVec.ofInt 32 x)).set (nextReg sd) (BitVec.ofInt 32 (x / 2 ^ 32)) } plain)
    ∧ (o.fmt ∈ Claims.laneFmts → ∀ vm : VReg, let hits := js.filter (fun j => (V.get vm).getLsbD j)
        one (.vmcount h o sd vm) hits.length ∧ one (.vmfind h o sd vm) ((hits.head?).getD 0xFFFFFFFF))

/-- Vector operations across lanes: transforms, and reductions to a scalar register. -/
def Obligations.VectorAcrossLanes : Prop :=
  Claims.VectorTransforms ∧ Claims.VectorReductions

/-- The lane value of a loaded code: 4-bit and 12-bit codes are extended (R142). -/
def Claims.unpacked (f : Fmt) (x : Nat) : Nat := if f = .s4 ∧ 8 ≤ x then x + 0xF0 else x

/-- Contiguous vector loads and stores inside the window: a load in flight holds the codes from the byte stream at the address, a store puts the
active elements' codes there and nothing else; the pointer moves; a returning load writes its registers, or tells in VFAULT its lowest element
that read uncorrectable (R127, R137, R141, R142, R146). -/
def Obligations.VectorMemory : Prop :=
  ∀ (h : Hd) (m : MAddr) (s : State) (t : TaskId), Claims.vecReady s h t →
    let c := h.core
    let k := s.task c t
    let C := s.core c
    let V := C.vec.v
    let a := (addrOf k m).toNat
    let off := s.winBase c t + a
    let pc' := { Claims.stepped k m with pc := k.pc + 32 }
    let code := fun (x : State) (width j : Nat) => x.granCode c (off * 8 + j * width) width
    let clean := fun total => Claims.sound C (off / 64 * 64) (off % 64 + total + 63)
    let outside := fun (s' : State) total => ∀ b, b < off ∨ off + total ≤ b → cellGet 0 (s'.core c).gran.bytes b = cellGet 0 C.gran.bytes b
    let loads := fun (i : Instr) (l : VLoad) => l.task = t ∧ l.pc = k.pc ∧ l.bad = none ∧ l.failed = false
      ∧ ∃ s', exec i s = .next s' ∧ SameMem s s' ∧ Retires s s' c t pc' { C with vec := { C.vec with loads := C.vec.loads ++ [l] } } []
    let stores := fun (i : Instr) (total : Nat) (F : List (Fld × Nat × Nat)) (P : State → Prop) =>
      ∃ s', exec i s = .next s' ∧ Retires s s' c t pc' { C with gran := (s'.core c).gran } F ∧ outside s' total ∧ P s'
    (∀ (o : VOpt) (vd : VReg), o.fmt ∈ Claims.laneFmts → let g := grpCount o.g
      let w := laneBits o.fmt
      let width := fmtBits o.fmt
      let n := 4096 * g / w
      let total := n * width / 8
      vd.val % g = 0 → a + total ≤ s.winLen c t → clean total →
      ((o.m = true → vd.val + g ≤ 31) → (∃ j < n, Claims.act C o.m j = true) → ∃ l vs, loads (.vld h vd m o) l ∧ l.acc = none
        ∧ l.regs = (List.range g).map (fun i => (vd + Fin.ofNat 32 i, vs.get (vd + Fin.ofNat 32 i)))
        ∧ ∀ j < n, Claims.elem vs vd w j = if Claims.act C o.m j then Claims.unpacked o.fmt (code s width j) else Claims.elem V vd w j)
      ∧ let x := fun j => Claims.ival (decide (o.fmt = .s4)) w (Claims.elem V vd w j)
        let f := fun j => if width = w then Claims.exact w (Claims.elem V vd w j) else Claims.clip (decide (o.fmt = .s4)) width (x j)
        let sat := ((List.range n).filter (Claims.act C o.m)).countP (fun j => (f j).sat)
        stores (.vst h vd m o) total (if sat ≠ 0 then Claims.vecFlagFields c else []) (fun s' => Claims.vecFlagged s s' c false sat 0
          ∧ ∀ j < n, code s' width j = if Claims.act C o.m j then (f j).code else code s width j))
    ∧ (∀ ak : AReg, a + 3072 ≤ s.winLen c t → clean 3072 →
        (∃ l x, loads (.vald h ak m) l ∧ l.regs = [] ∧ l.acc = some (ak, x) ∧ ∀ j < 512, Claims.lane48 x j = Claims.ival true 48 (code s 48 j))
        ∧ stores (.vast h ak m) 3072 [] (fun s' => ∀ j < 512, Claims.ival true 48 (code s' 48 j) = Claims.lane48 (C.vec.a.get ak) j))
    ∧ ∀ (pre : List VLoad) (l : VLoad) (rest : List VLoad), C.vec.loads = pre ++ l :: rest → l.failed = false →
        let i := pre.countP (fun x => !x.failed)
        (l.bad = none →
          let a' := match l.acc with
            | some e => C.vec.a.set e.1 e.2
            | none => C.vec.a
          exec (.vectorLoadReturn c [] i) s = .next (s.setCore c { C with vec := { C.vec with
            v := l.regs.foldl (fun r d => r.set d.1 d.2) V, a := a', loads := pre ++ rest } }))
        ∧ ∀ j < 4096, l.bad = some j → ∃ s', exec (.vectorLoadReturn c [] i) s = .next s'
            ∧ (s'.core c).vec = { C.vec with vfault := BitVec.ofNat 32 (j + 3 * 2 ^ 12 + 2 ^ 31), loads := pre ++ { l with failed := true } :: rest }

/-- Gathers and scatters from VSTART on: each active element at its own address, aligned to its size and inside the window, then VSTART is 0; a
scatter's later elements overwrite its earlier ones; an element that fails stops them with VSTART at it (R143..R145). -/
def Obligations.VectorIndexed : Prop :=
  ∀ (h : Hd) (v vi : VReg) (p : PReg) (o : VOpt) (s : State) (t : TaskId), Claims.vecReady s h t →
    let c := h.core
    let k := s.task c t
    let C := s.core c
    let V := C.vec.v
    let g := grpCount o.g
    let w := laneBits o.fmt
    let n := 4096 * g / w
    let gi := g * 32 / w
    let size := w / 8
    let addr := fun j => (k.p.get p + BitVec.ofNat 32 (Claims.elem V vi 32 j)).toNat
    let js := (List.range n).filter (fun j => Claims.act C o.m j && decide (C.vec.vstart.toNat ≤ j))
    let good := fun j => addr j + size ≤ s.winLen c t ∧ addr j % size = 0
    let code := fun (x : State) (j : Nat) => leNat (x.granBytes c (s.winBase c t + addr j) size)
    let F := [(Reg.CORE_VEC_GCONF_COUNT, c.val, 0)]
    o.fmt ∈ Claims.intFmts ++ [.e4m3, .e5m2, .fp16, .bf16, .fp32] → v.val % g = 0 → gi ≤ 8 → vi.val % max 1 gi = 0 →
    (∀ u, cellGet false C.gran.poison u = false ∧ cellGet false C.gran.flaws u = false) →
    ((∀ j ∈ js, good j) →
      ((o.m = true → v.val + g ≤ 31) → js ≠ [] → ∃ s' l vs, exec (.vgather h v p vi o) s = .next s' ∧ SameMem s s'
        ∧ Retires s s' c t { k with pc := k.pc + 32 } { C with vec := { C.vec with vstart := 0, loads := C.vec.loads ++ [l] } } F
        ∧ l.task = t ∧ l.pc = k.pc ∧ l.acc = none ∧ l.bad = none ∧ l.failed = false
        ∧ l.regs = (List.range g).map (fun i => (v + Fin.ofNat 32 i, vs.get (v + Fin.ofNat 32 i)))
        ∧ ∀ j < n, Claims.elem vs v w j = if j ∈ js then code s j else Claims.elem V v w j)
      ∧ ∃ s', exec (.vscatter h v p vi o) s = .next s'
          ∧ Retires s s' c t { k with pc := k.pc + 32 } { C with vec := { C.vec with vstart := 0 }, gran := (s'.core c).gran } F
          ∧ (∀ j ∈ js, (∀ i ∈ js, j < i → addr i ≠ addr j) → code s' j = Claims.elem V v w j)
          ∧ ∀ b, (∀ j ∈ js, b < s.winBase c t + addr j ∨ s.winBase c t + addr j + size ≤ b) →
              cellGet 0 (s'.core c).gran.bytes b = cellGet 0 C.gran.bytes b)
    ∧ ∀ j ∈ js, ¬good j → (∀ i ∈ js, i < j → good i) → (o.m = true → v.val + g ≤ 31) →
        ∀ e ∈ [(Instr.vgather, 0), (.vscatter, 1)], Claims.gives (e.1 h v p vi o) s (fun s' => (s'.core c).vec.vstart.toNat = j
          ∧ (s'.core c).vec.vfault.toNat = j + 4096 * (if addr j + size ≤ s.winLen c t then 2 else 1) + 65536 * e.2 + 2 ^ 31
          ∧ (s'.core c).vec.v = V)

/-! ## Start-up, resets, flash and power (16, 19) -/

/-- Start-up runs phase `n`: nothing holds the device, no phase has stopped, and no conflict waits for the host. -/
def Claims.boots (s : State) (n : Nat) : Prop :=
  s.rd Reg.MGMT_BOOT_STAT_PHASE 0 0 = n ∧ s.held = false ∧ s.mgmt.halted = false ∧ s.mgmt.waiting = false

/-- Start-up stops for good in its phase, with an ERR code (R445). -/
structure Claims.bootStops (s s' : State) (err : Nat) : Prop where
  halted : s'.mgmt.halted = true
  err : s'.rd Reg.MGMT_BOOT_STAT_ERR 0 0 = err
  phase : s'.rd Reg.MGMT_BOOT_STAT_PHASE 0 0 = s.rd Reg.MGMT_BOOT_STAT_PHASE 0 0
  mem : SameMem s s'

/-- Only fields of the CSR space change, PHASE among them, which becomes `n`. -/
def Claims.phaseOnly (s s' : State) (n : Nat) : Prop :=
  s'.rd Reg.MGMT_BOOT_STAT_PHASE 0 0 = n ∧ OnlyFields s s' [(Reg.MGMT_BOOT_STAT_PHASE, 0, 0)]

/-- The phases of start-up in order: each does its work and begins the next one; a row out of its phase changes nothing; a phase that
cannot go on stops with its ERR code (R203, R445, R447, R450, R451, R452, R455, R520). -/
def Obligations.BootPhases : Prop :=
  ∀ s : State,
    let up := Claims.boots s
    let now := fun s' : State => s'.rd Reg.MGMT_BOOT_STAT_PHASE 0 0
    let phases : List (Nat × Instr) := [(1, .romStart), (2, .fuse), (3, .flash 64), (4, .image), (5, .cfg), (6, .clocks), (7, .dram 0),
      (7, .dramPgTimeout), (8, .links), (9, .ready 0)]
    (∀ e ∈ phases, now s ≠ e.1 → exec e.2 s = .next s)
    ∧ (up 1 → Claims.gives .romStart s (fun s' => Claims.phaseOnly s s' 2))
    ∧ (up 2 → Claims.gives .fuse s (fun s' =>
        let lc := lcOf s.sec.fuses.lcBits
        s'.rd Reg.SEC_LC_STAT_STATE 0 0 = lc ∧ s'.rd Reg.SEC_SVN_FLOOR 0 0 = s.sec.fuses.svn % 2 ^ Reg.SEC_SVN_FLOOR.width
        ∧ (∀ j < 6, s.sec.fuses.retire.getLsbD j = true → s'.coreOk j = false)
        ∧ (lc = lcEnded → s'.mgmt.halted = true ∧ now s' = 2) ∧ (lc ≠ lcEnded → now s' = 3) ∧ SameMem s s'))
    ∧ (up 3 → ∀ mib, let good := 64 ≤ mib ∧ leNat (s.flashBytes 0 4) = Config.layoutMagic.toNat
        (good → Claims.gives (.flash mib) s (fun s' => Claims.phaseOnly s s' 4))
        ∧ (¬good → Claims.gives (.flash mib) s (fun s' => Claims.bootStops s s' 2)))
    ∧ (up 4 → let good := fun k => s.imgSigned k = true ∧ s.imgWhole k = true
        (∀ bad k rest, s.imgOrder = bad ++ k :: rest → (∀ j ∈ bad, ¬good j) → good k → Claims.gives .image s (fun s' =>
          s'.rd Reg.MGMT_BOOT_STAT_IMAGE 0 0 = k ∧ now s' = 5 ∧ s'.mgmt.imgSeq = s.imgField k 4
          ∧ s'.mgmt.failed.map (fun e => e.1) = s.mgmt.failed.map (fun e => e.1) ++ bad))
        ∧ ((∀ j ∈ s.imgOrder, ¬good j) → Claims.gives .image s (fun s' => Claims.bootStops s s' 3)))
    ∧ (up 5 → s.ledger.started = false → Claims.gives .cfg s (fun s' => now s' = 6))
    ∧ (up 6 → (s.rd Reg.MGMT_BOOT_STAT_ERR 0 0 ≠ 4 → Claims.gives .clocks s (fun s' => Claims.phaseOnly s s' 7))
        ∧ (s.rd Reg.MGMT_BOOT_STAT_ERR 0 0 = 4 → Claims.gives .clocks s (fun s' => s'.mgmt.waiting = true ∧ now s' = 6 ∧ SameMem s s')))
    ∧ (6 ≤ now s → s.held = false → ∀ c : CoreId, s.on Reg.GRAN_STAT_READY c 0 = false → Claims.gives (.granaryInit c) s (fun s' =>
        s'.rd Reg.GRAN_STAT_READY c 0 = 1 ∧ (∀ a, cellGet 0 (s'.core c).gran.bytes a = 0) ∧ (∀ w, s'.wordBad c w = false)
        ∧ (∀ r < 8, s'.rd Reg.GRAN_PCLASS_CLASS c r = 0) ∧ (∀ d, d ≠ c → s'.core d = s.core d) ∧ s'.dram = s.dram))
    ∧ (up 7 → let pins := [Out.pin "DRAM_VPP_EN" true, .pin "DRAM_VDDQ_EN" true]
        (∀ bad, Claims.gives (.dram bad) s (fun s' => now s' = 8 ∧ ∃ more, s'.outbox = s.outbox ++ pins ++ more))
        ∧ Claims.gives .dramPgTimeout s (fun s' => Claims.bootStops s s' 1 ∧ s'.outbox = s.outbox ++ pins))
    ∧ (up 8 → Claims.gives .links s (fun s' => now s' = 9 ∧ s'.rd Reg.FAB_CTRL_EN 0 0 = 1 ∧ SameMem s s'))
    ∧ (up 9 → s.rd Reg.MGMT_BOOT_STAT_CONFIRMED 0 0 = 0 → ∀ kc, Claims.gives (.ready kc) s (fun s' =>
        s'.rd Reg.MGMT_BOOT_STAT_CONFIRMED 0 0 = 1 ∧ now s' = 9 ∧ SameMem s s'
        ∧ ∃ e more, s'.events = s.events ++ e :: more ∧ e.code = 0x12A ∧ e.args = [kc.toNat % 2 ^ 32, kc.toNat / 2 ^ 32]))
    ∧ (s.held = false → ∀ copy : BitVec 2,
        let good := s.mgmt.waiting = true ∧ copy.toNat < 3 ∧ (s.copyInfo (areaBase 0 copy.toNat) (areaMagic 0)).intact = true
        (good → Claims.gives (.mgmtCfgSelGo copy) s (fun s' => s'.mgmt.waiting = false ∧ now s' = 7))
        ∧ (¬good → Claims.gives (.mgmtCfgSelGo copy) s (fun s' => s'.rd Reg.MGMT_CFG_SEL_ERR 0 0 = 1
            ∧ OnlyFields s s' [(Reg.MGMT_CFG_SEL_ERR, 0, 0)])))
    ∧ ∀ n, 1 ≤ n → n ≤ 8 → up n → Claims.gives .bootPhaseTimeout s (fun s' => Claims.bootStops s s' 1)

/-- What a reset leaves: every register at its reset value but those that R446, R477 and R525 name; memories, cores, locks and sessions
as at first; flash, fuses, the commands waiting and what was sent stay. -/
structure Claims.wiped (s s' : State) : Prop where
  regs : ∀ (r : RegFam) (u i : Nat),
    (∀ x ∈ [Reg.MGMT_STRAP, Reg.FAB_CTRL, Reg.MGMT_RESET_CAUSE, Reg.SEC_LC_NONCE, Reg.MGMT_BOOT_STAT], r.addr u i ≠ x.addr 0 0) →
    s'.csrGet r u i = r.rst
  strap : s'.csrGet Reg.MGMT_STRAP 0 0 = s.csrGet Reg.MGMT_STRAP 0 0
  cores : s'.cores = Vector.replicate 6 Core.reset
  dram : s'.dram = Dram.reset
  locks : s'.locks = []
  host : s'.host = HostPort.reset
  events : s'.events = []
  flash : s'.flash = s.flash
  fuses : s'.sec.fuses = s.sec.fuses
  pending : s'.pending = s.pending

/-- The resets and what causes them: RESET_CAUSE, the straps, and whether start-up begins (R444..R446, R452, R521..R523, R532). -/
def Obligations.Resets : Prop :=
  ∀ s : State,
    let cause := fun s' : State => s'.rd Reg.MGMT_RESET_CAUSE_CAUSE 0 0
    let now := fun s' : State => s'.rd Reg.MGMT_BOOT_STAT_PHASE 0 0
    let told := fun s' : State => s'.rd Reg.MGMT_RESET_CAUSE_IMAGE 0 0 = s.rd Reg.MGMT_BOOT_STAT_IMAGE 0 0
      ∧ s'.rd Reg.MGMT_RESET_CAUSE_CONFIRMED 0 0 = s.rd Reg.MGMT_BOOT_STAT_CONFIRMED 0 0
    (s.mgmt.resetLow = true → ∀ root b1 b0, Claims.gives (.resetRelease root b1 b0) s (fun s' =>
        s'.mgmt.resetLow = false ∧ s'.rd Reg.MGMT_STRAP_ROOT_EN 0 0 = bit01 root ∧ s'.rd Reg.FAB_CTRL_ROOT 0 0 = bit01 root
        ∧ s'.rd Reg.MGMT_STRAP_SMB_ADDR 0 0 = 2 * bit01 b1 + bit01 b0 ∧ SameMem s s'
        ∧ (s.mgmt.railLow = [] → s.mgmt.tripped = false → s.mgmt.supplyFailed = false → now s' = 1)))
    ∧ (s.mgmt.resetLow = false → Claims.gives .resetNFall s (fun s' => Claims.wiped s s' ∧ cause s' = 1 ∧ told s' ∧ now s' = 0
        ∧ s'.mgmt.resetLow = true ∧ s'.outbox = s.outbox ++ [.pin "DRAM_VDDQ_EN" false, .pin "DRAM_VPP_EN" false]))
    ∧ (5 ≤ now s → s.held = false → s.mgmt.waiting = false → Claims.gives .watchdogExpiry s (fun s' =>
        Claims.wiped s s' ∧ cause s' = 2 ∧ told s' ∧ now s' = 1))
    ∧ (5 ≤ now s → s.held = false → Claims.gives .mgmtResetGo s (fun s' => Claims.wiped s s' ∧ cause s' = 3 ∧ told s' ∧ now s' = 1))
    ∧ (∀ (j : Fin 20) (temp : BitVec 12), s.mgmt.tripped = false → s.rd Reg.MGMT_CAL_STAT_FACTORY_BAD 0 0 = 0 →
        (j.val < 16 → 880 ≤ temp.toInt → Claims.gives (.thermtrip j temp) s (fun s' => Claims.wiped s s' ∧ cause s' = 0 ∧ now s' = 0
          ∧ s'.mgmt.tripped = true ∧ s'.outbox = s.outbox ++ [.pin "THERMTRIP_N" false]))
        ∧ (16 ≤ j.val ∨ temp.toInt < 880 → exec (.thermtrip j temp) s = .next s))
    ∧ (∀ j : Fin 12, j.val ∈ [0, 1, 2, 10] → s.mgmt.railLow.contains j.val = false → Claims.gives (.railUndervoltage j) s (fun s' =>
        Claims.wiped s s' ∧ cause s' = 0 ∧ now s' = 0 ∧ s'.mgmt.railLow = s.mgmt.railLow ++ [j.val]))
    ∧ (∀ j : Fin 12, s.mgmt.railLow.contains j.val = true → Claims.gives (.railBandReturn j) s (fun s' =>
        s'.mgmt.railLow = s.mgmt.railLow.filter (fun k => k != j.val) ∧ SameMem s s'
        ∧ (s.mgmt.railLow = [j.val] → s.mgmt.resetLow = false → s.mgmt.tripped = false → s.mgmt.supplyFailed = false → now s' = 1)))
    ∧ (s.held = false → Claims.gives .supplyFail s (fun s' => s'.mgmt.supplyFailed = true ∧ s'.cores = Vector.replicate 6 Core.reset
        ∧ s'.dram.bytes = [] ∧ s'.rd Reg.HOST_STAT_LINK 0 0 = 0 ∧ (∀ p < 6, s'.rd Reg.FAB_PORT_STAT_STATE 0 p = 0)
        ∧ (∀ n < 16, s'.rd Reg.HOP_CONN_STAT_UP 0 n = 0) ∧ s'.flash = s.flash ∧ s'.sec = s.sec))

/-- Every byte of the flash outside `lo .. hi` reads as before. -/
def Claims.flashBut (s s' : State) (lo hi : Nat) : Prop :=
  ∀ a, a < lo ∨ hi ≤ a → cellGet 0xFF s'.flash a = cellGet 0xFF s.flash a

/-- Stores: a request in bounds joins the queue, one out of bounds completes with ERR_BOUND; the head's next command runs after a passing
hold-up check and nothing else of the flash changes; a failing check defers it once; a timeout ends it; and the halted ROM takes
flash commands from the page buffer (R447, R448, R451, R458, R459, R465, R466, R468). -/
def Obligations.StoresAndFlash : Prop :=
  ∀ s : State,
    let head := fun (c : FlashCmd) (last : Bool) (rest : List (FlashCmd × Bool)) => ∃ st more,
      s.mgmt.stores = st :: more ∧ st.begun = true ∧ st.cmds = (c, last) :: rest
    let runs := s.fwRuns = true ∧ s.mgmt.resetLow = false
    let code := fun s' : State => s'.rd Reg.MGMT_STORE_STAT_CODE 0 0
    let left := fun s' : State => s'.mgmt.stores.map (fun st => st.cmds.length)
    let issue := fun (i : Nat → Instr) => ∀ (c : FlashCmd) (last : Bool) (rest : List (FlashCmd × Bool)) (mv : Nat), head c last rest →
      let rest' := if rest = [] then (left s).drop 1 else rest.length :: (left s).drop 1
      (s.holdupOk mv (s.flashTime c) = true → s.flashRefused c.addr = false → Claims.gives (i mv) s (fun s' =>
        left s' = rest' ∧ s'.rd Reg.MGMT_STORE_STAT_DEFERRED 0 0 = 0 ∧ (rest = [] → code s' = codeOk)
        ∧ (∀ a, c = .erase a → let b := a / 65536 * 65536
            Claims.flashBut s s' b (b + 65536) ∧ ∀ x, b ≤ x → x < b + 65536 → cellGet 0xFF s'.flash x = 0xFF)
        ∧ ∀ a d, c = .program a d → Claims.flashBut s s' a (a + d.length)
            ∧ ∀ x < d.length, cellGet 0xFF s.flash (a + x) = 0xFF → cellGet 0xFF s'.flash (a + x) = d.getD x 0))
      ∧ (s.holdupOk mv (s.flashTime c) = true → s.flashRefused c.addr = true → Claims.gives (i mv) s (fun s' =>
          s'.flash = s.flash ∧ left s' = (left s).drop 1 ∧ code s' = errBound))
      ∧ (s.holdupOk mv (s.flashTime c) = false → Claims.gives (i mv) s (fun s' => s'.flash = s.flash ∧ s'.mgmt.stores = s.mgmt.stores
          ∧ s'.rd Reg.MGMT_STORE_STAT_DEFERRED 0 0 = 1
          ∧ s'.rd Reg.MGMT_HOLDUP_STAT_DEFER_CNT 0 0 = if s.on Reg.MGMT_STORE_STAT_DEFERRED 0 0
              then s.rd Reg.MGMT_HOLDUP_STAT_DEFER_CNT 0 0
              else min (s.rd Reg.MGMT_HOLDUP_STAT_DEFER_CNT 0 0 + 1) (2 ^ Reg.MGMT_HOLDUP_STAT_DEFER_CNT.width - 1)))
    (∀ (area : BitVec 4) (lines : BitVec 18) (src : BitVec 34), runs →
      let ok := area.toNat ≤ 2 ∧ lines.toNat ≤ areaLines area.toNat ∧ s.rangeOk (src.toNat * 64) (lines.toNat * 64) = true
      (ok → Claims.gives (.storeRequest area lines src) s (fun s' => s'.rd Reg.MGMT_STORE_STAT_BUSY 0 0 = 1
        ∧ s'.mgmt.stores = s.mgmt.stores
            ++ [{ area := area.toNat, lines := lines.toNat, src := src.toNat * 64, begun := false, cmds := [] }] ∧ SameMem s s'))
      ∧ (¬ok → Claims.gives (.storeRequest area lines src) s (fun s' => code s' = errBound
          ∧ OnlyFields s s' [(Reg.MGMT_STORE_STAT_CODE, 0, 0)])))
    ∧ (runs → s.rd Reg.MGMT_STORE_STAT_DEFERRED 0 0 = 0 → issue (fun mv => .flashCommand mv))
    ∧ (runs → s.rd Reg.MGMT_STORE_STAT_DEFERRED 0 0 = 1 → issue (fun mv => .holdupRecheck mv))
    ∧ (s.rd Reg.MGMT_STORE_STAT_DEFERRED 0 0 = 1 → Claims.gives .storeTimeout s (fun s' =>
        code s' = errTimeout ∧ s'.mgmt.stores = s.mgmt.stores.drop 1 ∧ SameMem s s'))
    ∧ (∀ k rest, s.mgmt.repair = k :: rest → s.lcFailed = false → s.rd Reg.MGMT_BOOT_STAT_PHASE 0 0 = 9 → k < 3 →
        s.mgmt.cfgBytes.length ≤ 65536 → Claims.gives .cfgRepaired s (fun s' => s'.mgmt.repair = rest
          ∧ s'.flashBytes (0x10000 + k * 65536) s.mgmt.cfgBytes.length = s.mgmt.cfgBytes
          ∧ Claims.flashBut s s' (0x10000 + k * 65536) (0x20000 + k * 65536)
          ∧ ∃ e, s'.events = s.events ++ [e] ∧ e.code = 0x524 ∧ e.args = [0, k, s.mgmt.cfgSeq]))
    ∧ (s.mgmt.halted = true → s.rd Reg.MGMT_BOOT_STAT_ERR 0 0 = 3 → s.held = false → ∀ (addr : BitVec 26) (page : List Byte),
        page.length = 256 → s.flashRefused addr.toNat = false →
        Claims.gives (.flashAccess 1 addr page) s (fun s' => let b := addr.toNat / 65536 * 65536
          Claims.flashBut s s' b (b + 65536) ∧ (∀ x, b ≤ x → x < b + 65536 → cellGet 0xFF s'.flash x = 0xFF))
        ∧ Claims.gives (.flashAccess 2 addr page) s (fun s' => let b := addr.toNat / 256 * 256
          Claims.flashBut s s' b (b + 256)
          ∧ (∀ x < 256, cellGet 0xFF s.flash (b + x) = 0xFF → cellGet 0xFF s'.flash (b + x) = page.getD x 0)))

/-- The answers of the SMBus target: code and data (R527). -/
def Claims.smbRows (s : State) : List (Instr × List Byte) :=
  [(.smbReadPartId, leBytes 4 (s.csrGet Reg.GLOBAL_PART_ID 0 0).toNat), (.smbReadUnits, leBytes 4 (s.csrGet Reg.GLOBAL_UNITS 0 0).toNat),
   (.smbReadTherm, leBytes 2 (s.csrGet Reg.MGMT_THERM_STAT 0 0).toNat), (.smbReadDraw, leBytes 2 (s.rd Reg.MGMT_PWR_STAT_DRAW 0 0)),
   (.smbReadBootStat, leBytes 2 (s.csrGet Reg.MGMT_BOOT_STAT 0 0).toNat), (.smbReadLcState, leBytes 1 (s.rd Reg.SEC_LC_STAT_STATE 0 0)),
   (.smbReadMonitors, leBytes 2 (((List.range 12).map (fun j =>
      if s.rd Reg.MGMT_VMON_LOW 0 j ≠ 0 ∨ s.rd Reg.MGMT_VMON_HIGH 0 j ≠ 0 then 2 ^ j else 0)).sum))]

/-- Power, monitors and the SMBus target: a power sample shows the temperatures and steps the two requests, whose throttle goes to
the Looms; the critical temperature stops every core and Loom; VCORE moves by 5 mV within its band; the SMBus answers are sent and
change nothing else (R517, R518, R522, R526, R527, R529..R532). -/
def Obligations.PowerAndSmbus : Prop :=
  ∀ s : State,
    let sent := fun (i : Instr) (o : Out) => exec i s = .next { s with outbox := s.outbox ++ [o] }
    let step := fun (p : Nat) (above below : Bool) =>
      if above then (if p = 0 then 15 else if p = 1 then 1 else p - 1)
      else if below then (if p = 0 ∨ p = 15 then 0 else p + 1) else p
    (s.fwRuns = true → s.held = false → ∀ temps : List (BitVec 12), temps.length = 20 →
      let uw := s.drawUw
      let lim := min 450 (s.rd Reg.MGMT_PWR_CFG_PWR_LIM 0 0) * 1000000
      let p := step s.mgmt.p (decide (lim < uw)) (decide (uw + s.rd Reg.MGMT_PWR_CFG_PWR_HYST 0 0 * 1000000 < lim))
      ∀ j, j < 16 → (∀ i < 16, (temps.getD i 0).toInt < (temps.getD j 0).toInt
          ∨ ((temps.getD i 0).toInt = (temps.getD j 0).toInt ∧ j ≤ i)) →
        let hot := (temps.getD j 0).toInt
        let q := step (s.rd Reg.MGMT_THERM_STAT_Q 0 0) (decide (s.throtC * 8 ≤ hot)) (decide (hot < (s.throtC - 3) * 8))
        let thr := if p = 0 then q else if q = 0 then p else min p q
        Claims.gives (.powerSample temps) s (fun s' => s'.mgmt.p = p ∧ s'.rd Reg.MGMT_THERM_STAT_Q 0 0 = q
          ∧ s'.rd Reg.MGMT_THERM_STAT_HOT_SENS 0 0 = j ∧ (∀ i < 20, s'.rd Reg.MGMT_TSENS_TEMP 0 i = (temps.getD i 0).toNat)
          ∧ s'.rd Reg.MGMT_PWR_STAT_DRAW 0 0 = min 1023 (uw / 1000000) ∧ s'.rd Reg.MGMT_PWR_STAT_THR 0 0 = thr % 16
          ∧ (s.mgmt.p ≤ 15 → thr ≠ 0 → ∀ c : CoreId, s.coreOk c = true → s'.rd Reg.LOOM_CTRL_THR c 0 = thr)
          ∧ (s.critC * 8 ≤ hot → s.rd Reg.MGMT_THERM_STAT_CRIT 0 0 = 0 → s'.rd Reg.MGMT_THERM_STAT_CRIT 0 0 = 1
              ∧ ∀ c : CoreId, s'.rd Reg.CORE_SEQ_CTRL_RUN c 0 = 0 ∧ s'.rd Reg.LOOM_CTRL_EN c 0 = 0)
          ∧ (hot < s.critC * 8 → s'.rd Reg.MGMT_THERM_STAT_CRIT 0 0 = s.rd Reg.MGMT_THERM_STAT_CRIT 0 0
              ∧ s'.cores = s.cores) ∧ SameMem s s'))
    ∧ (6 ≤ s.rd Reg.MGMT_BOOT_STAT_PHASE 0 0 → s.held = false → ∀ up : Bool,
        let mv := s.rd Reg.MGMT_PWR_STAT_VCORE_MV 0 0
        (if up then mv + 5 ≤ 750 else 555 ≤ mv) → Claims.gives (.vcoreStep up) s (fun s' =>
          s'.rd Reg.MGMT_PWR_STAT_VCORE_MV 0 0 = (if up then mv + 5 else mv - 5) ∧ s'.outbox = s.outbox ++ [.vout up]
          ∧ FieldsBut s s' [(Reg.MGMT_PWR_STAT_VCORE_MV, 0, 0)] ∧ s'.cores = s.cores))
    ∧ (∀ (r : Fin 4) (mv ma : Nat), s.fwRuns = true → s.mgmt.resetLow = false →
        exec (.regulatorRead r mv ma) s = .next { s with mgmt := { s.mgmt with vr := s.mgmt.vr.set r (mv, ma) } })
    ∧ (∀ (j : Fin 12) (high : Bool) (mv : BitVec 13), j.val ∉ [0, 1, 2, 10] → s.held = false → s.mgmt.alert = false →
        Claims.gives (.railMonitorFlag j high mv) s (fun s' => s'.rd Reg.MGMT_VMON_MV 0 j = mv.toNat
          ∧ s'.rd (if high then Reg.MGMT_VMON_HIGH else Reg.MGMT_VMON_LOW) 0 j = 1
          ∧ s'.outbox = s.outbox ++ [.pin "SMB_ALERT_N" false] ∧ s'.mgmt.alert = true ∧ s'.cores = s.cores))
    ∧ (2 ≤ s.rd Reg.MGMT_BOOT_STAT_PHASE 0 0 → (∀ e ∈ Claims.smbRows s, sent e.1 (.smb (some e.2)))
        ∧ ∀ code : BitVec 8, code.toNat = 0 ∨ 7 < code.toNat → sent (.smbOtherCommand code) (.smb none))
    ∧ (s.mgmt.alert = true → exec .smbAlertResponse s
        = .next { s with mgmt := { s.mgmt with alert := false }, outbox := s.outbox ++ [.pin "SMB_ALERT_N" true] })

/-! ## Security, Assay, events and the Ledger (17, 18) -/

/-- The life-cycle transitions of R476 and what each needs. -/
def Claims.transitions (s : State) : List (Nat × Nat × Prop) :=
  [(0, 1, s.sec.fuses.fwPk ≠ 0), (1, 2, s.rd Reg.SEC_KEY_STAT_PRESENT 0 0 = 1), (2, 3, True), (3, 4, s.rmaValid = true),
   (0, 5, True), (1, 5, True), (2, 5, True), (3, 5, True), (4, 5, True)]

/-- Requests of the security block: a transition of the table is taken up with one fuse operation per cell, and every other one completes
with ERR_BOUND and changes no fuse, whatever the read of a return authorisation counts; ENDED erases the secret and resets; a floor may
only rise, up to 64 and to the running image's; fuse operations run in order after a passing hold-up check, and wait, once told, after a
failing one (R470, R473, R476..R478). -/
def Obligations.LifeCycleAndFuses : Prop :=
  ∀ s : State,
    let code := fun s' : State => s'.rd Reg.SEC_LC_STAT_REQ_CODE 0 0
    let lc := s.lcState
    let path := fun p : Path => p = .host ∨ ∃ c ch, p = .carter c ch
    (∀ e ∈ Claims.transitions s, ∀ p : Path, path p → lc = e.1 → e.2.2 → s.sec.target = none → s.lcFailed = false →
      Claims.gives (.secLcReq (BitVec.ofNat 3 e.2.1) p) s (fun s' => s'.sec.target = some e.2.1
        ∧ s'.rd Reg.SEC_LC_STAT_REQ_BUSY 0 0 = 1 ∧ s'.sec.fuses = s.sec.fuses ∧ SameMem s s'
        ∧ s'.sec.ops = s.sec.ops ++ (if e.2.1 = 5 then [] else (List.finRange 3).map (fun i => FuseOp.lc i e.2.1))))
    ∧ (∀ (target : BitVec 3) (p : Path), path p →
        ((∀ e ∈ Claims.transitions s, lc = e.1 → target.toNat = e.2.1 → ¬e.2.2) ∨ s.sec.target ≠ none ∨ s.lcFailed = true) →
        Claims.gives (.secLcReq target p) s (fun s' => code s' = errBound ∧ s'.sec = s.sec
          ∧ FieldsBut (if lc = 3 ∧ target.toNat = 4 then s.rmaRead else s) s'
              [(Reg.SEC_LC_STAT_REQ_CODE, 0, 0), (whole Reg.SEC_LC_NONCE, 0, 0)] ∧ SameMem s s'))
    ∧ (s.sec.target = some 5 → Claims.gives .endedTransition s (fun s' => Claims.wiped
        { s with sec := { s.sec with fuses := { s.sec.fuses with secret := BitVec.allOnes 1024, lc := Vector.replicate 3 (BitVec.allOnes 5) } } } s'
        ∧ s'.rd Reg.MGMT_RESET_CAUSE_CAUSE 0 0 = 3))
    ∧ (∀ v : BitVec 7, let ok := s.rd Reg.SEC_SVN_FLOOR 0 0 < v.toNat ∧ v.toNat ≤ 64 ∧ v.toNat ≤ s.mgmt.imgSvn ∧ lc ≠ lcEnded
        (ok → exec (.secSvnRaise v) s = .next { s with sec := { s.sec with ops := s.sec.ops ++ [.svn v.toNat] } })
        ∧ (¬ok → Claims.gives (.secSvnRaise v) s (fun s' => code s' = errBound ∧ OnlyFields s s' [(Reg.SEC_LC_STAT_REQ_CODE, 0, 0)])))
    ∧ (∀ (op : FuseOp) (rest : List FuseOp) (mv : Nat), s.sec.ops = op :: rest → s.mgmt.resetLow = false →
        let f := s.sec.fuses
        (s.holdupOk mv 5000 = true → Claims.gives (.fuseProgram mv) s (fun s' => s'.sec.ops = rest ∧ SameMem s s'
          ∧ match op with
            | .svn v => s'.sec.fuses = { f with svn := max f.svn v }
                ∧ s'.rd Reg.SEC_SVN_FLOOR 0 0 = max f.svn v % 2 ^ Reg.SEC_SVN_FLOOR.width
            | .lc cell target =>
              s'.sec.fuses = { f with lc := f.lc.set cell (f.lc.get cell ||| BitVec.ofNat 5 (2 ^ target - 1)) }
                ∧ s'.rd Reg.SEC_LC_STAT_PENDING 0 0 = lcOf s'.sec.fuses.lcBits
                ∧ (cell = 2 → s'.sec.target = none ∧ s'.rd Reg.SEC_LC_STAT_REQ_BUSY 0 0 = 0 ∧ code s' = codeOk)))
        ∧ (s.holdupOk mv 5000 = false → Claims.gives (.fuseProgram mv) s (fun s' => s'.sec.ops = s.sec.ops ∧ s'.sec.fuses = f
            ∧ 0 ∈ s'.sec.deferred
            ∧ (0 ∉ s.sec.deferred → ∃ e, s'.events = s.events ++ [e] ∧ e.code = 0x128) ∧ (0 ∈ s.sec.deferred → s'.events = s.events))))

/-- The device key and its leaves: a key is generated once, in PROVISION; a signature takes the next leaf below the reservation, and that
leaf is never the next one again: NEXT rises, or the key is exhausted and signs no more; a reservation moves its mark by 1,024 past
what it replaces, and its record is in flash; start-up resumes at no leaf below a valid record or a segment's end (R479, R480,
R483..R488). -/
def Obligations.KeysAndLeaves : Prop :=
  ∀ s : State,
    let next := fun s' : State => s'.rd Reg.SEC_XMSS_NEXT_LEAF 0 0
    let rsv := fun s' : State => s'.rd Reg.SEC_XMSS_RSV_NEXT_LEAF 0 0
    let on := fun (f : Fld) (s' : State) => s'.rd f 0 0 = 1
    (∀ mv : Nat, s.lcState = lcProvision → ¬on Reg.SEC_KEY_STAT_PRESENT s → s.holdupOk mv 400000 = true →
      Claims.gives (.secKeygen mv) s (fun s' => on Reg.SEC_KEY_STAT_PRESENT s' ∧ rsv s' = 1024
        ∧ s'.sec.fuses.secret = s.sec.fuses.secret ||| Config.free s.draws 1024 ∧ s'.sec.resumed = true
        ∧ ∃ e, s'.events = s.events ++ [e] ∧ e.code = 0x142))
    ∧ (∀ mv : Nat, ¬(s.lcState = lcProvision ∧ ¬on Reg.SEC_KEY_STAT_PRESENT s) → Claims.gives (.secKeygen mv) s (fun s' =>
        s'.rd Reg.SEC_LC_STAT_REQ_CODE 0 0 = errBound ∧ OnlyFields s s' [(Reg.SEC_LC_STAT_REQ_CODE, 0, 0)]))
    ∧ (s.fwRuns = true → on Reg.SEC_KEY_STAT_PRESENT s → ¬on Reg.SEC_KEY_STAT_BAD s →
        let f := s.sec.fuses
        (Config.shake256 f.secretBytes = f.keyCheck → Claims.gives .subtreeRebuild s (fun s' => on Reg.SEC_KEY_STAT_READY s'
          ∧ OnlyFields s s' [(Reg.SEC_KEY_STAT_READY, 0, 0)]))
        ∧ (Config.shake256 f.secretBytes ≠ f.keyCheck → f.keyCheck ≠ 0 → Claims.gives .subtreeRebuild s (fun s' =>
            on Reg.SEC_KEY_STAT_BAD s' ∧ FieldsBut s s' [(Reg.SEC_KEY_STAT_BAD, 0, 0)]
            ∧ ∃ e, s'.events = s.events ++ [e] ∧ e.code = 0xD43)))
    ∧ (∀ (r : SignReq) (rest : List SignReq), s.sec.signQ = r :: rest → s.signDisabled = false → on Reg.SEC_KEY_STAT_READY s →
        s.sec.resumed = true → next s < rsv s → rsv s ≤ 2 ^ 40 →
        Claims.gives .signature s (fun s' => s'.sec.signQ = rest
          ∧ s'.rd Reg.SEC_SIGN_CNT_COUNT 0 0 = min (s.rd Reg.SEC_SIGN_CNT_COUNT 0 0 + 1) (2 ^ Reg.SEC_SIGN_CNT_COUNT.width - 1)
          ∧ (next s' = next s + 1 ∨ on Reg.SEC_KEY_STAT_EXHAUSTED s') ∧ rsv s' = rsv s
          ∧ (rsv s ≤ next s + 257 → s.nextRsv ≤ 2 ^ 40 → s'.sec.reserve = true)
          ∧ (s.host.session ≠ r.session → s'.outbox = s.outbox) ∧ SameMem s s'))
    ∧ (∀ (r : SignReq) (rest : List SignReq), s.sec.signQ = r :: rest → s.signDisabled = true → Claims.gives .signature s (fun s' =>
        s'.sec.signQ = rest ∧ next s' = next s ∧ SameMem s s'))
    ∧ (∀ mv : Nat, s.sec.reserve = true → s.mgmt.resetLow = false → s.nextRsv ≤ 2 ^ 40 →
        s.holdupOk mv (max (s.flashTime (.erase 0)) 5000) = true → Claims.gives (.leafReservation mv) s (fun s' =>
          rsv s' = max (next s) (rsv s) + 1024 ∧ s'.sec.reserve = false ∧ next s' = next s
          ∧ s'.sec.recSeq = some (match s.sec.recSeq with | some q => q + 1 | none => 0)
          ∧ ∀ n, s'.sec.recSeq = some n → let a := 0x7_0000 + n % 1024 * 256
              (n % 256 = 0 ∨ ∀ i < 64, cellGet 0xFF s.flash (a + i) = 0xFF) →
              (s'.flashBytes a 4 = leBytes 4 0x5853_5452 ∧ s'.flashBytes (a + 4) 4 = leBytes 4 n
                ∧ s'.flashBytes (a + 8) 8 = leBytes 8 (rsv s'))))
    ∧ (s.fwRuns = true → on Reg.SEC_KEY_STAT_PRESENT s → ¬on Reg.SEC_KEY_STAT_BAD s → s.sec.resumed = false →
        Claims.gives .secLeafResume s (fun s' => s'.sec.resumed = true
          ∧ (on Reg.SEC_KEY_STAT_EXHAUSTED s' ∨ (2 ^ 28 * s.sec.fuses.seg ≤ next s'
              ∧ ∀ slot ∈ s.pagesIn 0x7_0000 1024, ∀ q leaf, s.slotRecord slot = some (q, leaf) → leaf ≤ next s')) ∧ SameMem s s'))

/-- The Assay engine: notice, start time, start, skip and end of a slice, requests and retirements from outside, and fuse windows
(R475, R492..R499, R508). -/
def Obligations.AssaySlices : Prop :=
  ∀ s : State,
    let st := fun s' : State => s'.rd Reg.ASSAY_STAT_STATE 0 0
    let core := fun s' : State => s'.rd Reg.ASSAY_STAT_CORE 0 0
    let told := fun (s' : State) (code : Nat) (args : List Nat) => ∃ e, s'.events = s.events ++ [e] ∧ e.code = code ∧ e.args = args
    let due := fun c : CoreId => s.rd Reg.ASSAY_CTRL_EN 0 0 = 1 ∧ s.coreOk c = true ∧ (s.rd Reg.ASSAY_SCHED_CORE_MASK 0 0).testBit c = true
    (∀ (c : CoreId) (kc : BitVec 64), due c → s.rd Reg.MGMT_BOOT_STAT_PHASE 0 0 = 9 → c.val ∉ s.assay.noticed →
      Claims.gives (.assayNotice c kc) s (fun s' => told s' 0x161 [c.val, kc.toNat % 2 ^ 32, kc.toNat / 2 ^ 32]
        ∧ (s'.rd Reg.CORE_IRQ_PEND_PEND c 0).testBit 12 = true ∧ s'.assay.noticed = s.assay.noticed ++ [c.val]
        ∧ (st s < 2 → st s' = 1 ∧ core s' = c) ∧ (2 ≤ st s → st s' = st s) ∧ SameMem s s'))
    ∧ (∀ c : CoreId, c.val ∈ s.assay.noticed → due c → Claims.gives (.assayStartTime c) s (fun s' =>
        s'.assay.noticed = s.assay.noticed.filter (fun d => d != c.val)
        ∧ (st s < 2 → st s' = 2 ∧ core s' = c ∧ s'.assay.external = false)
        ∧ (2 ≤ st s → st s' = st s ∧ s'.assay.moved = s.assay.moved ++ [c.val]) ∧ s'.cores = s.cores))
    ∧ (∀ c : CoreId, st s = 2 → core s = c →
        let ready := s.coreIdle c = true ∧ s.rd Reg.ASSAY_PWR_NEED 0 0 ≤ s.rd Reg.ASSAY_PWR_HEADROOM 0 0
        let skips := min (s.rd Reg.ASSAY_CORE_SKIPS 0 c + 1) (2 ^ Reg.ASSAY_CORE_SKIPS.width - 1)
        (ready → Claims.gives .assayStart s (fun s' => st s' = 3 ∧ s'.rd Reg.AGEN_CTRL_MATRIX_EN c 0 = 1
          ∧ told s' 0x162 [c.val, s.rd Reg.ASSAY_PWR_HEADROOM 0 0] ∧ s'.cores = s.cores))
        ∧ (¬ready → Claims.gives .assaySkipped s (fun s' => s'.rd Reg.ASSAY_STAT_RESULT 0 0 = 3
            ∧ s'.rd Reg.ASSAY_CORE_SKIPS 0 c = skips ∧ s'.cores = s.cores
            ∧ ∃ e more, s'.events = s.events ++ e :: more ∧ e.code = 0x165)))
    ∧ (∀ c : CoreId, st s = 3 → core s = c →
        let slices := min (s.rd Reg.ASSAY_CORE_SLICES 0 c + 1) (2 ^ Reg.ASSAY_CORE_SLICES.width - 1)
        (Claims.gives (.assaySliceEnd (.clean [])) s (fun s' => s'.rd Reg.ASSAY_STAT_RESULT 0 0 = 1
          ∧ s'.rd Reg.ASSAY_CORE_SLICES 0 c = slices ∧ s'.rd Reg.ASSAY_CORE_SKIPS 0 c = 0 ∧ told s' 0x163 [c.val, 0]
          ∧ (s'.core c).vec.v = Vector.replicate 32 0 ∧ (s'.core c).vec.a = Vector.replicate 4 0 ∧ (s'.core c).vec.pwr = .down
          ∧ s'.rd Reg.AGEN_CTRL_MATRIX_EN c 0 = bit01 s.assay.matrixEn ∧ s'.coreOk c = s.coreOk c ∧ SameMem s s'))
        ∧ ∀ (part : Fin 5) (unit column : Nat), part.val ≠ 0 → part.val ≠ 3 → s.coreOk c = true →
            Claims.gives (.assaySliceEnd (.logic part unit column)) s (fun s' =>
              s'.rd Reg.ASSAY_STAT_RESULT 0 0 = 2 ∧ s'.coreOk c = false ∧ s'.rd Reg.ASSAY_CORE_SLICES 0 c = slices
              ∧ ∃ e1 e2 more, s'.events = s.events ++ e1 :: e2 :: more ∧ e1.code = 0xD64 ∧ e2.code = 0xC09 ∧ e2.args = [c.val, part.val]))
    ∧ (∀ (p : Path) (n : BitVec 3), let debug := s.lcState ∈ [lcBlank, lcTest, lcReturned] ∧ s.lcFailed = false
        (debug → n.toNat < 6 → s.coreOk n.toNat = true → st s < 2 → Claims.gives (.assayReq p n) s (fun s' =>
          st s' = 2 ∧ core s' = n.toNat ∧ s'.assay.external = true ∧ s'.cores = s.cores))
        ∧ (¬debug → Claims.gives (.assayReq p n) s (fun s' => s'.rd Reg.ASSAY_STAT_REQ_ERR 0 0 = 1
            ∧ OnlyFields s s' [(Reg.ASSAY_STAT_REQ_ERR, 0, 0)])))
    ∧ (∀ c : CoreId, s.coreOk c = true → Claims.gives (.assayRetire (BitVec.ofNat 3 c)) s (fun s' => s'.coreOk c = false
        ∧ (∀ d < 6, d ≠ c.val → s'.coreOk d = s.coreOk d) ∧ told s' 0xC09 [c.val, 0]
        ∧ (∀ t, (s'.task c t).st = .halted) ∧ (s'.core c).loom.jobs = [] ∧ (s'.core c).sieve = []
        ∧ (∀ d, d ≠ c → s'.core d = s.core d) ∧ SameMem s s'))
    ∧ (s.lcState ≠ lcEnded → Claims.gives .assayFuseGo s (fun s' => s'.rd Reg.ASSAY_FUSE_BUSY 0 0 = 1
        ∧ OnlyFields s s' [(Reg.ASSAY_FUSE_BUSY, 0, 0)]))
    ∧ (s.lcState = lcEnded → exec .assayFuseGo s = .next s)
    ∧ (∀ mv : Nat, s.fwRuns = true → s.mgmt.resetLow = false → s.lcState ≠ lcEnded → s.rd Reg.ASSAY_FUSE_BUSY 0 0 = 1 →
        (s.holdupOk mv 5000 = true → Claims.gives (.fuseWindow mv) s (fun s' => s'.rd Reg.ASSAY_FUSE_BUSY 0 0 = 0
          ∧ (∀ i < 60, s'.sec.fuses.retire.getLsbD i
              = (s.sec.fuses.retire.getLsbD i || s.ledger.journal.any (fun j => !j.fused && decide (j.kind = .retire i))))
          ∧ s'.unfused = 0))
        ∧ (s.holdupOk mv 5000 = false → Claims.gives (.fuseWindow mv) s (fun s' => s'.rd Reg.ASSAY_FUSE_BUSY 0 0 = 1
            ∧ s'.sec.fuses = s.sec.fuses ∧ s'.ledger = s.ledger)))

/-- The event arbiter and the Ledger: the granted event takes the next EVSEQ and its record enters the ring last; a copy for which the
Tollgate has granted puts the next record's 64 B into the host event ring's slot and moves TAIL by one; a spill marks the oldest journal
entries and begins the next
page; a dump copies pages as stored or is refused (R437..R439, R504..R506, R510). -/
def Obligations.EventsAndLedger : Prop :=
  ∀ s : State,
    let L := s.ledger
    (∀ e : Ev, L.started = true → s.events = [e] → (L.next ≠ 0 ∨ e.input = 6) → e.input < 9 → L.ring.length < 8192 →
      Claims.gives .eventGrant s (fun s' => s'.events = [] ∧ s'.ledger.next = L.next + 1
        ∧ ∃ r, s'.ledger.ring.getLast? = some r ∧ r.seq = L.next ∧ r.sev = e.code / 1024 % 4
          ∧ r.line = recordLine L.next e.code e.source e.dom e.tick e.args (s.tick 1) ∧ SameMem s s'))
    ∧ (∀ (r : Record) (more : List Record), L.ring = r :: more → r.seq = L.copyNext → L.copyNext < L.next →
        s.rd Reg.HOST_EVT_CFG_EN 0 0 = 1 →
        let k := s.rd Reg.HOST_EVT_CFG_RING 0 0
        let tail := s.rd Reg.HOST_RING_TAIL_TAIL 0 k
        let slot := s.rd Reg.HOST_RING_BASE_ADDR 0 k * 64 + tail % 2 ^ s.rd Reg.HOST_RING_CFG_LOG2SZ 0 k * 64
        1 ≤ (s.ringIdx (.host k)).free → slot + 64 ≤ 0x20_0000_0000 → s.useGrants 8 (s.transfers true slot 64) ≠ none →
        (s.dramReach 8 slot).1 = codeOk → Claims.gives .ledgerCopy s (fun s' =>
          s'.dramBytes slot 64 = lineBytes r.line ∧ s'.rd Reg.HOST_RING_TAIL_TAIL 0 k = (tail + 1) % 2 ^ 32
          ∧ s'.ledger.copyNext = L.copyNext + 1 ∧ FieldsBut s s' [(Reg.HOST_RING_TAIL_TAIL, 0, k)] ∧ s'.cores = s.cores
          ∧ ∀ a, a < slot ∨ slot + 64 ≤ a → cellGet 0 s'.dram.bytes a = cellGet 0 s.dram.bytes a))
    ∧ (∀ (j : JEntry) (js : List JEntry), L.started = true → L.journal.filter (fun x => !x.spilled) = j :: js →
        let a := 0x0110_0000 + L.pseq % 192512 * 256
        L.pseq % 256 = 0 → Claims.gives .ledgerSpill s (fun s' => s'.ledger.pseq = L.pseq + 1
          ∧ s'.flashBytes a 64 = lineBytes j.line ∧ s'.flashBytes (a + 192) 4 = leBytes 4 0x4C45_4447
          ∧ s'.flashBytes (a + 196) 4 = leBytes 4 L.boot ∧ s'.flashBytes (a + 200) 8 = leBytes 8 L.pseq
          ∧ (s'.ledger.journal.filter (fun x => !x.spilled)).map (fun x => x.kind) = (js.drop 2).map (fun x => x.kind)
          ∧ Claims.flashBut s s' (a / 65536 * 65536) (a / 65536 * 65536 + 65536) ∧ s'.cores = s.cores))
    ∧ ∀ (first : BitVec 18) (count : BitVec 12),
        let a := s.rd Reg.LEDGER_DUMP_ADDR_ADDR 0 0 * 64
        let n := count.toNat * 256
        let ok := count.toNat ≠ 0 ∧ first.toNat + count.toNat ≤ 192512 ∧ s.rangeOk a n = true
        (ok → (a < 0x20_0000_0000 → ∀ i < count.toNat * 4, (s.dramReach 9 (a + i * 64)).1 = codeOk) →
          Claims.gives (.ledgerDump first count) s (fun s' => s'.rd Reg.LEDGER_STAT_DUMP_CODE 0 0 = codeOk
          ∧ s'.localBytes a n = s.flashBytes (0x0110_0000 + first.toNat * 256) n ∧ s'.flash = s.flash))
        ∧ (¬ok → Claims.gives (.ledgerDump first count) s (fun s' => s'.rd Reg.LEDGER_STAT_DUMP_CODE 0 0 = errBound
            ∧ OnlyFields s s' [(Reg.LEDGER_STAT_DUMP_CODE, 0, 0)]))

/-! ## The Loom (07, 08, 09) -/

/-- LJOB and LTILE: the descriptor's address is the pointer plus the immediate, cut to 64 B; with an empty store buffer and fewer than four
jobs queued, a job of the issuing task joins the queue (R101, R180, R219). -/
def Claims.LoomJobsStart : Prop :=
  ∀ (h : Hd) (p : PReg) (imm : BitVec 16) (s : State) (t : TaskId), Ready s h.core t → h.last = true →
    let c := h.core
    let k := s.task c t
    let C := s.core c
    let a := (k.p.get p + imm.signExtend 32).toNat / 64 * 64
    a + 64 ≤ s.winLen c t → C.seq.sbuf = [] → C.loom.jobs.countP (fun j => j.phase == .queued) < 4 →
    ∀ e ∈ [(Instr.ljob, false), (Instr.ltile, true)], Claims.gives (e.1 h p imm) s (fun s' => ∃ j : LoomJob,
      Retires s s' c t { k with pc := k.pc + 32 }
        { C with loom := { C.loom with jobs := C.loom.jobs ++ [j], nextId := C.loom.nextId + 1 } } []
      ∧ j.tile = e.2 ∧ j.task = t ∧ j.addr = s.winBase c t + a ∧ j.phase = .queued ∧ j.arith = k.arith ∧ j.id = C.loom.nextId
      ∧ SameMem s s')

/-- Job `j` of a core's queue becomes `j'`; the other jobs stay, and so does every other core. -/
def Claims.jobStep (s s' : State) (c : CoreId) (j j' : LoomJob) : Prop :=
  (∃ pre post, (s.core c).loom.jobs = pre ++ j :: post ∧ (s'.core c).loom.jobs = pre ++ j' :: post)
    ∧ (∀ d, d ≠ c → s'.core d = s.core d) ∧ (s'.core c).seq = (s.core c).seq ∧ (s'.core c).vec = (s.core c).vec

/-- The least job of the queue of which `p` holds. -/
def Claims.first (s : State) (c : CoreId) (p : LoomJob → Bool) (j : LoomJob) : Prop :=
  ((s.core c).loom.jobs.map (fun j => j.id)).Nodup ∧ (s.core c).loom.jobs.find? p = some j

/-- From setup to the last drain: setup reads the descriptor and gives a code or makes the job active; a load fills the back plane with
the tile's C21 weights; a swap exchanges the planes; a stream touches no accumulator row outside the job's; a drain ends a job
that writes nothing (R212, R215, R219, R221, R224..R226, R229, R287). -/
def Claims.LoomRuns : Prop :=
  ∀ (c : CoreId) (s : State),
    let L := (s.core c).loom
    let loom := fun s' : State => (s'.core c).loom
    (∀ j, Claims.first s c (fun j => j.phase == .queued) j → s.rd Reg.LOOM_CTRL_EN c 0 = 1 →
      let base := s.winBase c j.task
      let d := lineOf (s.granBytes c j.addr 64)
      let a := lineOf (s.granBytes c (base + jobAct d) 64)
      s.granBad c j.addr 64 = false → s.granBad c (base + jobAct d) 64 = false →
      Claims.gives (.loomSetup c) s (fun s' => ∃ j', Claims.jobStep s s' c j j' ∧ j'.desc = d ∧ j'.winBase = base ∧ j'.id = j.id
        ∧ (j'.code = codeOk → j'.phase = .active ∧ j'.act = a) ∧ (j'.code ≠ codeOk → j'.phase = .ended)
        ∧ (jobWAddr d % 64 ≠ 0 ∨ jobAct d % 64 ≠ 0 ∨ jobOut d % 64 ≠ 0 → j'.code = errAlign)
        ∧ (jobWAddr d % 64 = 0 → jobWStride d % 64 = 0 → jobAct d % 64 = 0 → jobOut d % 64 = 0 → jobPitch d % 64 = 0 →
            jobScl d % 8 = 0 → s.winLen c j.task < jobAct d + 64 → j'.code = errBound)
        ∧ SameMem s s'))
    ∧ (∀ j wait, Claims.first s c (fun j => j.phase == .active && decide (j.loaded < jobKT j.desc)) j → j.runs = true →
        jobSplit j.desc = false → L.back = none →
        let off := j.winBase + jobWAddr j.desc + j.loaded * jobWStride j.desc
        let w := fmtBits (jobFmtW j.desc)
        s.granBad c off (jobRows j.desc j.loaded * jobRowBytes j.desc) = false →
        Claims.gives (.weightLoad c wait) s (fun s' => (∃ j', Claims.jobStep s s' c j j' ∧ j'.loaded = j.loaded + 1 ∧ j'.phase = j.phase)
          ∧ (loom s').back = some (j.id, j.loaded) ∧ (loom s').front = L.front ∧ (loom s').frontW = L.frontW
          ∧ s'.rd Reg.GRAN_LOOM_WAIT_COUNT c 0
              = min (s.rd Reg.GRAN_LOOM_WAIT_COUNT c 0 + wait) (2 ^ Reg.GRAN_LOOM_WAIT_COUNT.width - 1)
          ∧ (∀ r n, r < jobRows j.desc j.loaded → r < jobTW j.desc → n < jobN j.desc → n < 128 → ∀ q, j.qsfW[n]? = some q →
              cellGet 0 (loom s').backW (r * 128 + n) = BitVec.ofNat 21
                (expandC21 (jobFmtW j.desc) (s.granCode c (off * 8 + (r * 128 + n) * w) w) (zpOf (jobFmtW j.desc) q.zp) q.es).code)
          ∧ SameMem s s'))
    ∧ (∀ j load acc, Claims.first s c (fun j => j.runs && decide (j.swapped < j.loaded)) j → L.back = some (j.id, j.swapped) →
        L.front = none → jobSplit j.desc = false → j.swapped ≠ 0 ∨ s.accHeld c j = false →
        Claims.gives (.planeSwap c load acc) s (fun s' => Claims.jobStep s s' c j { j with swapped := j.swapped + 1 }
          ∧ (loom s').front = some (j.id, j.swapped) ∧ (loom s').back = none ∧ (loom s').frontW = L.backW ∧ (loom s').backW = L.frontW
          ∧ (loom s').acc = L.acc ∧ (loom s').tag = j.tagOf
          ∧ s'.rd Reg.LOOM_STALL_LOAD_COUNT c 0
              = min (s.rd Reg.LOOM_STALL_LOAD_COUNT c 0 + load) (2 ^ Reg.LOOM_STALL_LOAD_COUNT.width - 1) ∧ SameMem s s'))
    ∧ (∀ j cc feed thr wait, Claims.first s c (fun j => j.runs && decide (j.streamed < j.swapped)) j →
        L.front = some (j.id, j.streamed) →
        let g : AgenJob := { core := c, base := j.winBase, d := j.desc, a := j.act, qsf := j.qsfA }
        (∀ m < jobM j.desc, ∀ f ∈ s.tileElems g j.streamed m, f.beyond = none ∧ ∀ r ∈ f.reads, s.granBad c r.1 r.2 = false) →
        Claims.gives (.tileStream c cc feed thr wait) s (fun s' =>
          (∃ j', Claims.jobStep s s' c j j' ∧ j'.streamed = j.streamed + 1 ∧ j'.phase = j.phase) ∧ (loom s').front = none
          ∧ (∀ i, i < jobAcc j.desc * 128 ∨ (jobAcc j.desc + jobM j.desc) * 128 ≤ i → cellGet 0 (loom s').acc i = cellGet 0 L.acc i)
          ∧ s'.rd Reg.LOOM_STREAM_CC_COUNT c 0
              = min (s.rd Reg.LOOM_STREAM_CC_COUNT c 0 + cc) (2 ^ Reg.LOOM_STREAM_CC_COUNT.width - 1) ∧ SameMem s s'))
    ∧ ∀ j, Claims.first s c (fun j => j.phase == .active && decide (j.drained < j.streamed)) j →
        let done := j.runs = true ∧ j.drained + 1 = jobKT j.desc ∧ jobOutEn j.desc = false
        (¬done → Claims.gives (.loomDrain c) s (fun s' => Claims.jobStep s s' c j { j with drained := j.drained + 1 } ∧ SameMem s s'))
        ∧ (done → j.code = 0 → Claims.gives (.loomDrain c) s (fun s' =>
            Claims.jobStep s s' c j { j with drained := j.drained + 1, phase := .ended, code := codeOk } ∧ SameMem s s'))

/-- A Loom job from its issue to its last drain. -/
def Obligations.LoomRuns : Prop :=
  Claims.LoomJobsStart ∧ Claims.LoomRuns

/-- The end of a job: the output stage writes its rows and no other byte; completion writes code, DONE and counts into the descriptor and
frees the queue; a poisoned read, an overrunning ZC row and ABORT end jobs with their codes (R222, R227, R230, R231, R284). -/
def Obligations.LoomEnds : Prop :=
  ∀ (c : CoreId) (s : State),
    let L := (s.core c).loom
    let told := fun (s' : State) (code : Nat) (args : List Nat) => ∃ e, s'.events = s.events ++ [e] ∧ e.code = code ∧ e.args = args
    let byte := fun (s' : State) a => cellGet 0 (s'.core c).gran.bytes a
    (∀ j wait hold, Claims.first s c (fun j => j.phase == .active && jobOutEn j.desc) j → j.runs = true → j.drained = jobKT j.desc →
      j.observes = false → jobOsc j.desc ≠ 2 → j.code = 0 →
      let d := j.desc
      let row := fun r => outRow j ⟨0, 0, 0, 0⟩ 0 (L.outEntries d r)
      let at_ := fun r => j.winBase + jobOut d + r * jobPitch d
      let bytes := fun r => packRow (jobFmtO d) ((row r).1.map (fun x => x.code))
      Claims.gives (.outputStage c wait hold) s (fun s' =>
        (∃ j', Claims.jobStep s s' c j j' ∧ j'.phase = .ended ∧ j'.code = codeOk) ∧ (s'.core c).loom.acc = L.acc
        ∧ (∀ a, (∀ r < jobM d, a < at_ r ∨ at_ r + (bytes r).length ≤ a) → byte s' a = byte s a)
        ∧ (0 < jobM d → s'.granBytes c (at_ (jobM d - 1)) (bytes (jobM d - 1)).length = bytes (jobM d - 1))
        ∧ s'.dram = s.dram ∧ s'.flash = s.flash))
    ∧ (∀ j more, L.jobs = j :: more → j.phase = .ended → (L.jobs.map (fun j => j.id)).Nodup →
        let code := if j.code ≠ 0 then j.code else if j.sat ≠ 0 then codeSat else codeOk
        Claims.gives (.loomJobComplete c) s (fun s' => (s'.core c).loom.jobs = more
          ∧ s'.granBytes c (j.addr + 56) 8
              = [BitVec.ofNat 8 code, 0x80] ++ leBytes 2 j.drained ++ leBytes 2 j.sat ++ leBytes 2 j.nan
          ∧ (∀ a, a < j.addr + 56 ∨ j.addr + 64 ≤ a → byte s' a = byte s a)
          ∧ s'.rd Reg.LOOM_JOBS_DONE_COUNT c 0
              = min (s.rd Reg.LOOM_JOBS_DONE_COUNT c 0 + 1) (2 ^ Reg.LOOM_JOBS_DONE_COUNT.width - 1)
          ∧ (jobIrq j.desc = true → (s'.rd Reg.CORE_IRQ_PEND_PEND c 0).testBit 6 = true) ∧ (∀ d, d ≠ c → s'.core d = s.core d)))
    ∧ (∀ j, Claims.first s c (fun j => j.phase == .active && j.bad) j → j.code = 0 → Claims.gives (.loomEccUncorr c) s (fun s' =>
        Claims.jobStep s s' c j { j with phase := .ended, code := errEcc } ∧ told s' 0x805 [j.tagOf.toNat] ∧ SameMem s s'))
    ∧ (∀ j row, Claims.first s c (fun j => j.phase == .active && j.zcRow == some row) j → j.code = 0 →
        Claims.gives (.agenZcOver c row) s (fun s' => Claims.jobStep s s' c j { j with phase := .ended, code := errBound }
          ∧ told s' 0x806 [j.tagOf.toNat, row] ∧ SameMem s s'
          ∧ s'.rd Reg.AGEN_ZC_OVER_CNT_COUNT c 0
              = min (s.rd Reg.AGEN_ZC_OVER_CNT_COUNT c 0 + 1) (2 ^ Reg.AGEN_ZC_OVER_CNT_COUNT.width - 1)))
    ∧ ((L.jobs.map (fun j => j.id)).Nodup → Claims.gives (.loomAbort c) s (fun s' => (s'.core c).loom.jobs
          = L.jobs.map (fun j => { j with phase := .ended, code := if j.code = 0 then errDisabled else j.code })
        ∧ (∀ d, d ≠ c → s'.core d = s.core d) ∧ SameMem s s'))

/-- The Tally's and the Granary's own rows: closes and proposals of a slot, scrubbing, repairs, fills, and the grant of a bank phase
(R187, R196..R202, R244..R246, R248). -/
def Obligations.TallyAndGranaryRows : Prop :=
  ∀ (c : CoreId) (s : State),
    let G := (s.core c).gran
    let told := fun (s' : State) (code : Nat) (args : List Nat) => ∃ e, s'.events = s.events ++ [e] ∧ e.code = code ∧ e.args.take 2 = args
    let count := fun (f : Fld) (i n : Nat) (s' : State) => s'.rd f c i = min (s.rd f c i + n) (2 ^ f.width - 1)
    (∀ b : BitVec 8, let t := b.toNat
      let k := s.slot c t
      let shut := fun s' : State => (s'.slot c t).closed = true ∧ (s'.slot c t).cfg = (s.csrGet Reg.TALLY_SLOT_CFG c t).toNat
        ∧ (s'.slot c t).lim = (s.csrGet Reg.TALLY_SLOT_LIM c t).toNat ∧ (s'.slot c t).tot = k.tot ∧ (s'.slot c t).window = k.window
        ∧ (∀ i, i ≠ t → s'.slot c i = s.slot c i) ∧ SameMem s s'
      (k.full = true → k.closed = false → k.done = k.latched → Claims.gives (.tallyStepClose c b) s shut)
      ∧ (k.full = false → k.closed = false → (k.isOpen = false ∨ k.done = k.latched) → Claims.gives (.tallyClose c b) s shut)
      ∧ (k.full = false → k.closed = false → k.isOpen = true → k.done ≠ k.latched → Claims.gives (.tallyClose c b) s (fun s' =>
          s'.slot c t = { k with full := true } ∧ SameMem s s'))
      ∧ (k.closed = true → k.tot = 0 → Claims.gives (.tallyProposal c b) s (fun s' =>
          s'.slot c t = { TallySlot.idle with window := k.window } ∧ count Reg.TALLY_SLOT_STEPS_COUNT t 1 s'
          ∧ s'.rd Reg.TALLY_SLOT_PSTAT_EMPTY c t = 1 ∧ s'.shadow = s.shadow))
      ∧ (k.closed = true → k.tot ≠ 0 → ∀ mx mn, k.mx = some mx → k.mn = some mn → Claims.gives (.tallyProposal c b) s (fun s' =>
          count Reg.TALLY_SLOT_STEPS_COUNT t 1 s' ∧ s'.rd Reg.TALLY_SLOT_PSTAT_EMPTY c t = 0
          ∧ s'.rd Reg.TALLY_SLOT_OMAX_MAX c t = mx.toNat ∧ s'.rd Reg.TALLY_SLOT_OMIN_MIN c t = mn.toNat
          ∧ s'.rd Reg.TALLY_SLOT_OTOT_COUNT c t = k.tot % 2 ^ 48 ∧ (s'.slot c t).isOpen = false ∧ (s'.slot c t).closed = false
          ∧ (k.cfg / 2 % 2 = 1 → s'.shadow = s.shadow ∧ (s'.slot c t).window = k.window))))
    ∧ (∀ bank : Fin 32, ∀ row : Fin 32768, Claims.gives (.granRepairReq c bank row) s (fun s' =>
        (bank.val, row.val) ∈ (s'.core c).gran.repairReq ∧ (s'.core c).gran.bytes = G.bytes ∧ s'.csr = s.csr
        ∧ (∀ e ∈ G.repairReq, e ∈ (s'.core c).gran.repairReq)))
    ∧ (∀ bank : Fin 32, ∀ row : Fin 32768, (bank.val, row.val) ∈ G.repairReq →
        let f := [Reg.GRAN_SPARE_FREE0, Reg.GRAN_SPARE_FREE1, Reg.GRAN_SPARE_FREE2, Reg.GRAN_SPARE_FREE3].getD (bank % 4) Reg.GRAN_SPARE_FREE0
        let free := s.rd f c (bank / 4)
        let unused := fun k => k < 64 ∧ ∀ e ∈ G.repairs, e.1 = bank.val → e.2.2 ≠ k
        (free ≠ 0 → (∃ k, unused k) → Claims.gives (.rowRepair c bank row) s (fun s' => s'.rd f c (bank / 4) = free - 1
          ∧ (bank.val, row.val) ∉ (s'.core c).gran.repairReq ∧ SameMem s s'
          ∧ ∃ k read e, unused k ∧ (s'.core c).gran.repairs = G.repairs ++ [(bank.val, row.val, k)]
              ∧ s'.events = s.events ++ read ++ [e] ∧ e.code = 0x403 ∧ e.args = [bank.val, row.val, k]
              ∧ (s.granBad c ((row * 32 + bank) * 64) 64 = false → read = [])))
        ∧ (free = 0 → Claims.gives (.rowRepair c bank row) s (fun s' => told s' 0xC04 [bank.val, row.val]
            ∧ (s'.core c).gran.repairs = G.repairs ∧ s'.csr = s.csr ∧ SameMem s s')))
    ∧ (∀ r rest, G.fill = r :: rest → Claims.gives (.regionFill c) s (fun s' => (s'.core c).gran.fill = rest
        ∧ (∀ a, r * 0x40000 ≤ a → a < (r + 1) * 0x40000 → cellGet 0 (s'.core c).gran.bytes a = 0 ∧ s'.wordBad c (a / 8) = false)
        ∧ (∀ a, a < r * 0x40000 ∨ (r + 1) * 0x40000 ≤ a → cellGet 0 (s'.core c).gran.bytes a = cellGet 0 G.bytes a)
        ∧ ∀ d, d ≠ c → s'.core d = s.core d))
    ∧ exec (.scrubLine c [] false) s = .next s
    ∧ (s.rd Reg.GRAN_SCRUB_CTRL_EN c 0 = 1 → s.rd Reg.GRAN_STAT_READY c 0 = 1 →
        let line := match G.scrubQ with | l :: _ => l | [] => s.rd Reg.GRAN_SCRUB_POS_LINE c 0
        let bad := s.granBad c (line * 64) 64 = true
        let crc := s.weightClass c (line * 64) = true → s.storedCrc c line = lineCrc (s.granBytes c (line * 64) 64)
        Claims.gives (.scrubLine c [] true) s (fun s' => (s'.core c).gran.scrubQ = G.scrubQ.drop 1 ∧ SameMem s s'
          ∧ (G.scrubQ = [] → s'.rd Reg.GRAN_SCRUB_POS_LINE c 0 = (line + 1) % 2 ^ 20)
          ∧ count Reg.GRAN_CE_CNT_COUNT 0 ((s.unitHeads c (line * 64) 64).countP (fun w => s.unitFlawed c w)) s'
          ∧ (¬bad → ∀ w, w / 8 = line → cellGet false (s'.core c).gran.flaws w = false)
          ∧ (¬bad → crc → s'.events = s.events)
          ∧ (¬bad → ¬crc → told s' 0x802 [line] ∧ count Reg.GRAN_CRC_FAIL_CNT_COUNT 0 1 s' ∧ ∀ w, w / 8 = line → s'.wordBad c w = true)
          ∧ (bad → told s' 0x801 [line] ∧ count Reg.GRAN_UE_CNT_COUNT 0 1 s')))
    ∧ ∀ (bank : Fin 32) (r : MemReq) (more : List MemReq) (p : ReqPart) (off : Nat), s.reqs = r :: more → r.remote = false →
        r.write = true → r.parts = [p] → p.stage = .granted → placeOf p.addr = .gran c off → off / 64 % 32 = bank.val →
        (∀ x ∈ more, x.tag ≠ r.tag ∧ x.atBank c bank true = false) → ∀ (others : BitVec 8) (lost : Nat),
        let lim := s.rd Reg.GRAN_ARB_EXT_AGE c 0
        let looms := [0, 1, 2].countP (fun i => others.getLsbD i)
        let agent := others.getLsbD 6
        let aged := lim ≠ 0 ∧ lim ≤ p.age + lost
        let agentAged := agent = true ∧ others.getLsbD 7 = true ∧ lim ≠ 0 ∧ ¬aged
        let lostLoom := if looms = 0 then 0 else lost
        (aged ∨ (looms = 0 ∧ ¬agentAged) → Claims.gives (.untimedGrant c bank true others lost) s (fun s' =>
          s'.granBytes c off p.data.length = p.data ∧ count Reg.GRAN_EXT_WAIT_COUNT 0 (lost + if agent then 1 else 0) s'
          ∧ count Reg.GRAN_LOOM_WAIT_COUNT 0 (lostLoom + if looms = 0 then 0 else 1) s'
          ∧ (∀ a, a < off ∨ off + p.data.length ≤ a → cellGet 0 (s'.core c).gran.bytes a = cellGet 0 G.bytes a)
          ∧ s'.reqs = { r with parts := [{ p with stage := .done, age := p.age + lost }] } :: more))
        ∧ (¬aged → looms ≠ 0 ∨ agentAged → Claims.gives (.untimedGrant c bank true others lost) s (fun s' =>
            SameMem s s' ∧ s'.cores = s.cores ∧ count Reg.GRAN_EXT_WAIT_COUNT 0 (lost + 1) s'
            ∧ count Reg.GRAN_LOOM_WAIT_COUNT 0 (lostLoom + if looms = 0 ∨ (¬agentAged ∧ looms = 1) then 0 else 1) s'
            ∧ s'.reqs = { r with parts := [{ p with age := p.age + lost + 1 }] } :: more))

/-! ## The Hopper, the pipeline, the Sieve and the rings (10, 11, 12) -/

/-- No camera but `c` changes. -/
def Claims.onlyCam (s s' : State) (c : CamId) : Prop := ∀ d, d ≠ c → s'.cam d = s.cam d

/-- The lines of a camera: a header begins a swath; a marker begins a line, admitted or lost; packets bring pixels in the delivered format;
pieces and headers go to the ring row that FILL names, which a full ring, a Granary not ready and a gate that has not granted hold; copies
go to DRAM; a line that nothing waits for leaves the pool; and a ring turns over at its end (R293, R294, R296, R298, R301, R302,
R307, R310..R312, R315, R380). -/
def Obligations.CameraLines : Prop :=
  ∀ (cam : CamId) (s : State),
    let k := s.cam cam
    let src := s.rd Reg.HOP_CAM_CFG_SRC 0 cam
    let bitsOf := fun deliv : Nat => [8, 12, 16].getD deliv 16
    let bits := bitsOf (s.rd Reg.HOP_CAM_CFG_DELIV 0 cam)
    let st := s.rd Reg.HOP_CAM_STAT_STATE 0 cam
    let keeps := fun y : PoolRow => decide (y.loss = 0) || !y.todo.isEmpty
    let mayWrite := fun (c : CoreId) (a n : Nat) => s.rd Reg.GRAN_STAT_READY c 0 = 1
      ∧ (∀ r ∈ (s.core c).gran.fill, n = 0 ∨ a + n ≤ r * 0x40000 ∨ (r + 1) * 0x40000 ≤ a)
      ∧ s.useGrants 6 (s.transfers true (granAddr c a) n) ≠ none
    (∀ (xs ys : Nat) (m : Mono), s.rd Reg.HOP_CTRL_EN 0 0 = 1 → st = 2 ∨ st = 3 → Claims.gives (.imageHeader cam xs ys m) s (fun s' =>
      (s'.cam cam).swath = k.swath + 1 ∧ (s'.cam cam).nextRow = 0 ∧ (s'.cam cam).hdrX = xs ∧ (s'.cam cam).hdrY = ys
      ∧ (s'.cam cam).hdrSrc = some m ∧ s'.rd Reg.HOP_CAM_STAT_STATE 0 cam = 3 ∧ Claims.onlyCam s s' cam ∧ SameMem s s'))
    ∧ (s.rd Reg.HOP_CTRL_EN 0 0 = 1 → st = 3 → (∀ x ∈ k.rows, x.isOpen = false) → k.linkLost = false →
        k.hdrSrc.map monoCode = some src → 0 < k.hdrX → k.hdrX ≤ 65536 → k.runFull = false →
        s.poolAdmits cam (blocksFor k.hdrX bits) = true → ∀ n, Claims.gives (.lineMarker cam n) s (fun s' => ∃ x : PoolRow,
          (s'.cam cam).rows = k.rows.filter keeps ++ [x] ∧ (s'.cam cam).nextRow = k.nextRow + 1 ∧ x.row = k.nextRow ∧ x.swath = k.swath
          ∧ x.isOpen = true ∧ x.loss = 0 ∧ x.pixels = [] ∧ x.xsize = k.hdrX ∧ x.tick = (s.tick 5 + n) % 2 ^ 64 ∧ x.conns = k.conns
          ∧ x.deliv = s.rd Reg.HOP_CAM_CFG_DELIV 0 cam ∧ x.plan = s.rd Reg.HOP_CAM_CFG_PLAN 0 cam ∧ x.shown = k.swath - k.bound
          ∧ x.blocks = (k.hdrX * bits + 32767) / 32768 ∧ (s'.cam cam).lostTotal = k.lostTotal ∧ Claims.onlyCam s s' cam ∧ SameMem s s'))
    ∧ (s.rd Reg.HOP_CTRL_EN 0 0 = 1 → st ≠ 0 → st ≠ 5 → (∀ x ∈ k.rows, x.isOpen = false) → k.linkLost = true →
        k.lastLost = false → k.runFull = false → k.runs.length < 64 → ∀ n, Claims.gives (.lineMarker cam n) s (fun s' =>
          (s'.cam cam).lostTotal = min (k.lostTotal + 1) (2 ^ 32 - 1) ∧ (s'.cam cam).nextRow = k.nextRow + 1 ∧ SameMem s s'
          ∧ s'.rd Reg.HOP_CONN_LOST_COUNT 0 (s.camMaster cam)
              = min (s.rd Reg.HOP_CONN_LOST_COUNT 0 (s.camMaster cam) + 1) (2 ^ Reg.HOP_CONN_LOST_COUNT.width - 1)
          ∧ ∃ e, s'.events = s.events ++ [e] ∧ e.code = 0x841 ∧ e.args = [cam.val, k.swath - k.bound, k.nextRow, 3]))
    ∧ (∀ (pixels : List (BitVec 16)) (ok : Bool) (pre : List PoolRow) (x : PoolRow) (post : List PoolRow), k.rows = pre ++ x :: post →
        (∀ y ∈ pre, y.isOpen = false) → x.isOpen = true →
        let v := fun p : BitVec 16 => p.toNat % 2 ^ (8 + 2 * src)
          * (if s.rd Reg.HOP_CAM_CFG_ALIGN 0 cam = 1 then 2 ^ (bitsOf x.deliv - (8 + 2 * src)) else 1)
        Claims.gives (.streamPacket cam pixels ok) s (fun s' => ∃ x', (s'.cam cam).rows = pre ++ x' :: post
          ∧ x'.pixels = (x.pixels ++ pixels.map (fun p => BitVec.ofNat 16 (v p))).take x.xsize ∧ x'.crcErr = (x.crcErr || !ok)
          ∧ x'.lenErr = (x.lenErr || decide (x.xsize < x.pixels.length + pixels.length)) ∧ x'.row = x.row ∧ x'.todo = x.todo
          ∧ Claims.onlyCam s s' cam ∧ s'.cores = s.cores ∧ SameMem s s'))
    ∧ (∀ (c : CoreId) (ring : Fin 16) (x : PoolRow), s.nextPiece c ring false = some (cam, x) →
        let i := (s.pipe c ring).plan * 16 + c.val
        let bits := bitsOf x.deliv
        let rows := s.rd Reg.GRAN_RING_SHAPE_ROWS c ring
        let room := (s.pipe c ring).valid = true ∧ x.row < s.rd Reg.PIPE_RING_REL_REL c ring + rows ∧ s.underTest c = false
        let at_ := s.rd Reg.GRAN_RING_BASE_BASE c ring * 64 + x.row % rows * (s.rd Reg.GRAN_RING_SHAPE_PITCH c ring * 64)
        let w := s.rd Reg.HOP_PIECEW_PIECE_W 0 i
        let n := ((if bits = 12 then (w + 1) / 2 * 2 else w) * bits / 8 + 63) / 64 * 64
        (room → mayWrite c at_ n → Claims.gives (.pieceWrite c ring) s (fun s' =>
          (∀ j < w, s'.granCode c (at_ * 8 + j * bits) bits
              = if s.rd Reg.HOP_PIECE_XOFF 0 i + j < x.xsize
                then (x.pixels.getD (s.rd Reg.HOP_PIECE_XOFF 0 i + j) 0).toNat % 2 ^ bits else 0)
          ∧ (∀ a, a < at_ ∨ at_ + n ≤ a → cellGet 0 (s'.core c).gran.bytes a = cellGet 0 (s.core c).gran.bytes a)
          ∧ (∀ d, d ≠ c → s'.core d = s.core d) ∧ s'.rd Reg.PIPE_RING_FILL_FILL c ring = s.rd Reg.PIPE_RING_FILL_FILL c ring))
        ∧ (room → ¬mayWrite c at_ n → exec (.pieceWrite c ring) s = .next s)
        ∧ (¬room → Claims.gives (.pieceWrite c ring) s (fun s' => OnlyFields s s' [(Reg.PIPE_HOLD_XC_COUNT, c.val, 0)]
            ∧ s'.rd Reg.PIPE_HOLD_XC_COUNT c 0 = min (s.rd Reg.PIPE_HOLD_XC_COUNT c 0 + 1) (2 ^ 64 - 1))))
    ∧ (∀ (c : CoreId) (ring : Fin 16) (x : PoolRow), s.nextPiece c ring true = some (cam, x) →
        (s.pipe c ring).valid = true → s.underTest c = false →
        x.row < s.rd Reg.PIPE_RING_REL_REL c ring + s.rd Reg.GRAN_RING_SHAPE_ROWS c ring → x.row + 1 < 2 ^ 32 →
        let a := s.rd Reg.HOP_PIECEH_HDR_BASE 0 ((s.pipe c ring).plan * 16 + c.val) * 64
          + x.row % s.rd Reg.GRAN_RING_SHAPE_ROWS c ring * 64
        mayWrite c a 64 → Claims.gives (.headerWriteDone c ring) s (fun s' =>
          s'.rd Reg.PIPE_RING_FILL_FILL c ring = x.row + 1
          ∧ s'.copy c (c.val * 32 + ring.val) = BitVec.ofNat 32 (x.row + 1)
          ∧ s'.granBytes c a 4 = leBytes 4 x.row ∧ s'.granBytes c (a + 4) 4 = leBytes 4 x.shown ∧ s'.granBytes c (a + 8) 8 = leBytes 8 x.tick
          ∧ (x.last = true → s'.rd Reg.PIPE_RING_STAT_END c ring = 1 ∧ s'.rd Reg.PIPE_RING_END_ROWS c ring = x.row + 1)
          ∧ ∀ b, b < a ∨ a + 64 ≤ b → cellGet 0 (s'.core c).gran.bytes b = cellGet 0 (s.core c).gran.bytes b))
    ∧ (∀ (pre : List PoolRow) (x : PoolRow) (post : List PoolRow), k.rows = pre ++ x :: post →
        (∀ y ∈ pre, y.dram = false ∨ y.full = false) → x.dram = true → x.full = true →
        let bits := bitsOf x.deliv
        let pitch := s.rd Reg.HOP_PLAN_PITCH_DRAM_PITCH 0 x.plan
        let a := s.rd Reg.HOP_PLAN_BASE_DRAM_BASE 0 x.plan + x.row % s.rd Reg.HOP_PLAN_ROWS_DRAM_ROWS 0 x.plan * pitch
        let n := min pitch ((x.xsize * bits + 511) / 512 * 64)
        a < 0x20_0000_0000 → s.useGrants 6 (s.transfers true a n) ≠ none →
        (∀ l, a / 64 ≤ l → l * 64 < a + n → (s.dramReach 6 (l * 64)).1 = codeOk) →
        Claims.gives (.dramCopyWrite cam) s (fun s' => (s'.cam cam).rows = pre ++ { x with dram := false } :: post ∧ s'.cores = s.cores
          ∧ (∀ j, j < x.xsize → (j + 1) * bits ≤ pitch * 8 →
              (leNat (s'.dramBytes (a + j * bits / 8) 3) / 2 ^ (j * bits % 8)) % 2 ^ bits = (x.pixels.getD j 0).toNat % 2 ^ bits)
          ∧ ∀ b, b < a ∨ a + pitch ≤ b → cellGet 0 s'.dram.bytes b = cellGet 0 s.dram.bytes b))
    ∧ (∀ x, k.rows.find? (fun x => x.complete && x.todo.isEmpty && !x.dram) = some x → Claims.gives (.lineFree cam) s (fun s' =>
        (s'.cam cam).rows = (k.rows.filter (fun y => !(y.swath == x.swath && y.row == x.row))).filter keeps
        ∧ Claims.onlyCam s s' cam
        ∧ s'.rd Reg.HOP_CAM_STAT_USED 0 cam = ((s'.cam cam).rows.map (fun y => y.blocks)).sum % 2 ^ 14 ∧ s'.cores = s.cores ∧ SameMem s s'))
    ∧ ∀ (c : CoreId) (ring : Fin 16) (held : Nat), (s.pipe c ring).cam = some cam → s.rd Reg.PIPE_RING_STAT_END c ring = 1 →
        s.rd Reg.PIPE_RING_REL_REL c ring = s.rd Reg.PIPE_RING_END_ROWS c ring →
        let waits := ∃ x ∈ k.rows, (s.pipe c ring).swath < x.swath ∧ ∃ t ∈ x.todo, t.core = c
        Claims.gives (.swathTurnover c ring held) s (fun s' => s'.rd Reg.PIPE_RING_FILL_FILL c ring = 0
          ∧ s'.rd Reg.PIPE_RING_REL_REL c ring = 0 ∧ s'.copy c (c.val * 32 + ring.val) = 0 ∧ Claims.onlyCam s s' cam ∧ SameMem s s'
          ∧ (waits → s'.rd Reg.PIPE_HOLD_XC_COUNT c 0 = min (s.rd Reg.PIPE_HOLD_XC_COUNT c 0 + held) (2 ^ 64 - 1))
          ∧ (¬waits → s'.rd Reg.PIPE_HOLD_XC_COUNT c 0 = s.rd Reg.PIPE_HOLD_XC_COUNT c 0))

/-- Links, discovery, triggers and control commands of the cameras (R290..R292, R303..R305). -/
def Obligations.CameraLinksAndControl : Prop :=
  ∀ (cam : CamId) (s : State),
    let k := s.cam cam
    let st := fun (s' : State) (c : CamId) => s'.rd Reg.HOP_CAM_STAT_STATE 0 c
    let state := (Reg.HOP_CAM_STAT_STATE, 0, cam.val)
    (∀ f : Bool, let ok := (st s cam = 2 ∨ st s cam = 3) ∧ k.trigQ.length < 4
      (ok → exec (.hopTrig cam f) s = .next (s.modCam cam (fun k => { k with trigQ := k.trigQ ++ [f] })))
      ∧ (¬ok → Claims.gives (.hopTrig cam f) s (fun s' =>
          s'.rd Reg.HOP_CAM_STAT_TRIG_DROP 0 cam = min (s.rd Reg.HOP_CAM_STAT_TRIG_DROP 0 cam + 1) 255 ∧ s'.cams = s.cams
          ∧ FieldsBut s s' [(Reg.HOP_CAM_STAT_TRIG_DROP, 0, cam.val)]
          ∧ ∃ e, s'.events = s.events ++ [e] ∧ e.code = 0x843 ∧ e.args = [cam.val])))
    ∧ (∀ e rest, k.trigQ = e :: rest → Claims.gives (.triggerSend cam) s (fun s' => (s'.cam cam) = { k with trigQ := rest }
        ∧ s'.outbox = s.outbox ++ [.trigger cam e] ∧ s'.csr = s.csr))
    ∧ (∀ (data : List Byte) (m : CamCmd), k.cmdOut = some m → m.msg / 2 ^ 32 ≠ s.host.session →
        ∀ i ∈ [Instr.controlAck cam data, .controlTimeout cam],
          (k.cmdQ = [] → Claims.gives i s (fun s' => s'.cam cam = { k with cmdOut := none } ∧ s'.outbox = s.outbox ∧ SameMem s s'))
          ∧ ∀ n rest, k.cmdQ = n :: rest → Claims.gives i s (fun s' => s'.cam cam = { k with cmdOut := some n, cmdQ := rest }
              ∧ s'.outbox = s.outbox ++ [.camera cam n] ∧ SameMem s s'))
    ∧ (∀ (data : List Byte) (m : CamCmd), k.cmdOut = some m → m.msg / 2 ^ 32 = s.host.session → s.rd Reg.HOST_STAT_SESSION 0 0 = 1 →
        s.host.unacked.length < 64 → data.length ≤ 1024 →
        ∀ e ∈ [(Instr.controlAck cam data, codeOk, if m.write then [] else data), (.controlTimeout cam, errTimeout, [])],
          Claims.gives e.1 s (fun s' => s'.cam cam = { k with cmdOut := k.cmdQ.head?, cmdQ := k.cmdQ.tail }
            ∧ s'.host.camOut = s.host.camOut - 1 ∧ SameMem s s' ∧ s'.cores = s.cores
            ∧ (∃ f, s'.outbox = s.outbox ++ f :: k.cmdQ.head?.toList.map (fun n => .camera cam n))
            ∧ ∃ u, s'.host.unacked = s.host.unacked ++ [u] ∧ u.seq = s.host.txNext
                ∧ u.msgs.take (8 + e.2.2.length)
                    = [0x87, BitVec.ofNat 8 e.2.1] ++ leBytes 2 e.2.2.length ++ leBytes 4 (m.msg % 2 ^ 32) ++ e.2.2))
    ∧ (k.cmdOut = none → ∀ data : List Byte, exec (.controlAck cam data) s = .next s ∧ exec (.controlTimeout cam) s = .next s)
    ∧ (∀ data : List Byte, exec (.deviceEventPacket cam data) s = .next { s with
        host := { s.host with camEvents := s.host.camEvents ++ [(cam.val, data)] }, outbox := s.outbox ++ [.camAck cam] })
    ∧ (∀ (up : BitVec 16) (m : CamId) (found : Bool),
        (s.rd Reg.HOP_CAM_CFG_EN 0 cam = 0 → Claims.gives (.discovery cam up m found) s (fun s' => st s' cam = 0 ∧ OnlyFields s s' [state]))
        ∧ (s.rd Reg.HOP_CAM_CFG_EN 0 cam = 1 → s.bindingOk cam = false →
            Claims.gives (.discovery cam up m found) s (fun s' => st s' cam = 5 ∧ OnlyFields s s' [state]))
        ∧ (s.rd Reg.HOP_CAM_CFG_EN 0 cam = 1 → s.bindingOk cam = true → (∀ n ∈ s.camGroup cam, s.rd Reg.HOP_CONN_STAT_OK 0 n = 1) →
            (∀ n ∈ s.camGroup cam, up.getLsbD n = true) →
            (found = true → m.val ∈ s.camGroup cam → Claims.gives (.discovery cam up m found) s (fun s' => st s' cam = 2
              ∧ (∀ n < 16, (s'.cam cam).conns.getLsbD n = decide (n ∈ s.camGroup cam))
              ∧ ∀ n ∈ s.camGroup cam, s'.rd Reg.HOP_CONN_STAT_UP 0 n = 1 ∧ s'.rd Reg.HOP_CONN_STAT_CAM 0 n = cam.val
                  ∧ s'.rd Reg.HOP_CONN_STAT_MASTER 0 n = bit01 (n == m.val)))
            ∧ (found = false → Claims.gives (.discovery cam up m found) s (fun s' => st s' cam = 4))))
    ∧ ∀ n : CamId,
        (s.rd Reg.HOP_CONN_STAT_UP 0 n = 1 → Claims.gives (.hopLinkDown n) s (fun s' => s'.rd Reg.HOP_CONN_STAT_UP 0 n = 0
          ∧ (∃ e more, s'.events = s.events ++ e :: more ∧ e.code = 0x844 ∧ (s.connCam n = some cam → e.args = [n.val, cam.val])
              ∧ (s.connCam n = none → e.args = [n.val, 0]))
          ∧ (s.connCam n = some cam → k.conns.getLsbD n = true → st s cam = 2 ∨ st s cam = 3 → (s'.cam cam).linkLost = true)
          ∧ s'.cores = s.cores ∧ SameMem s s'))
        ∧ (s.rd Reg.HOP_CONN_STAT_OK 0 n = 1 → Claims.gives (.wordAlignment n) s (fun s' => s'.rd Reg.HOP_CONN_STAT_UP 0 n = 1
            ∧ OnlyFields s s' [(Reg.HOP_CONN_STAT_UP, 0, n.val)]))
        ∧ (s.rd Reg.HOP_CONN_STAT_UP 0 n = 0 → s.rd Reg.HOP_CONN_STAT_OK 0 n = 1 → s.connCam n = some cam →
            (s.rd Reg.HOP_CTRL_SPARE_AUTO 0 0 = 0 → ∀ ok, Claims.gives (.connectionSparing n ok) s (fun s' =>
              st s' cam = 4 ∧ OnlyFields s s' [state]))
            ∧ (s.rd Reg.HOP_CTRL_SPARE_AUTO 0 0 = 1 → Claims.gives (.connectionSparing n true) s (fun s' =>
              st s' cam = 1 ∧ FieldsBut s s' [state] ∧ (s'.cam cam) = { k with sparing := true } ∧ Claims.onlyCam s s' cam
              ∧ s'.events = s.events))
            ∧ (s.rd Reg.HOP_CTRL_SPARE_AUTO 0 0 = 1 → Claims.gives (.connectionSparing n false) s (fun s' =>
                s'.rd Reg.HOP_CONN_STAT_OK 0 n = 0
                ∧ (∃ e, s'.events = s.events ++ [e] ∧ e.code = 0xC45 ∧ e.args = [n.val])
                ∧ st s' cam = (if ∀ j ∈ s.camGroup cam, j ≠ n.val → s.rd Reg.HOP_CONN_STAT_OK 0 j = 0 then 4 else 1))))

/-- The row counters and the Sieve: REL moves within what is filled; a count reaches the own copy at once and every other copy by a message, those
between two stops in their order; a call keeps at most what POST_K and PRE_K allow and writes only its records; its completion is written before its counter
moves (R313, R316, R317, R333, R335, R338..R341). -/
def Obligations.CountersAndSieve : Prop :=
  ∀ (c : CoreId) (s : State),
    let C := s.core c
    let byte := fun (s' : State) a => cellGet 0 (s'.core c).gran.bytes a
    let sum := fun (f : Fld) (i n : Nat) (s' : State) => s'.rd f c i = min (s.rd f c i + n) (2 ^ f.width - 1)
    (∀ (r : Fin 16) (v : Word), let ok := s.rd Reg.PIPE_RING_REL_REL c r ≤ v.toNat ∧ v.toNat ≤ s.rd Reg.PIPE_RING_FILL_FILL c r
      (ok → Claims.gives (.pipeRingRel c r v) s (fun s' => s'.rd Reg.PIPE_RING_REL_REL c r = v.toNat
        ∧ OnlyFields s s' [(Reg.PIPE_RING_REL_REL, c.val, r.val)]))
      ∧ (¬ok → Claims.gives (.pipeRingRel c r v) s (fun s' => s'.rd Reg.PIPE_RING_STAT_REL_ERR c r = 1
        ∧ OnlyFields s s' [(Reg.PIPE_RING_STAT_REL_ERR, c.val, r.val)])))
    ∧ (s.coreOk c = true → ∀ (j : Fin 16) (v : Word), Claims.gives (.pipePub c j v) s (fun s' => s'.rd Reg.PIPE_PUB_COUNT c j = v.toNat
        ∧ s'.copy c (c.val * 32 + 16 + j.val) = v ∧ SameMem s s'
        ∧ s.msgs <+: s'.msgs ∧ ∀ d : CoreId, d ≠ c → s'.core d = s.core d ∧ d.val * 192 + c.val * 32 + 16 + j.val ∈ s'.msgs))
    ∧ (s.coreOk c = false → ∀ (j : Fin 16) (v : Word), exec (.pipePub c j v) s = .next s)
    ∧ (∀ (o : CoreId) (kind : Bool) (j : Fin 16), let i := o.val * 32 + bit01 kind * 16 + j.val
        let m := c.val * 192 + i
        let way := fun x : Nat => (x / 192, if x % 32 < 16 then 6 else x % 192 / 32)
        let next := ∃ a b, s.msgs = a ++ m :: b ∧ ∀ x ∈ a, way x ≠ way m
        (next → Claims.gives (.counterMessage c o kind j) s (fun s' => s'.msgs = s.msgs.filter (fun x => x != m)
          ∧ s'.copy c i = BitVec.ofNat 32 (if kind then s.rd Reg.PIPE_PUB_COUNT o j else s.rd Reg.PIPE_RING_FILL_FILL o j)
          ∧ (∀ d, d ≠ c → s'.core d = s.core d) ∧ SameMem s s'))
        ∧ (¬next → exec (.counterMessage c o kind j) s = .next s))
    ∧ (∀ d : Word, (C.sieve.length < 4 → Claims.gives (.sieveSubmit c d) s (fun s' => ∃ q, (s'.core c).sieve = C.sieve ++ [q]
          ∧ q.addr.toNat = d.toNat / 64 * 64 ∧ q.run = false ∧ s'.rd Reg.SIEVE_STAT_QLEN c 0 = C.sieve.length + 1 ∧ SameMem s s'))
        ∧ (4 ≤ C.sieve.length → Claims.gives (.sieveSubmit c d) s (fun s' => sum Reg.SIEVE_STAT_REFUSED 0 1 s'
            ∧ OnlyFields s s' [(Reg.SIEVE_STAT_REFUSED, c.val, 0)])))
    ∧ (∀ q rest, C.sieve = q :: rest → q.run = false →
        let off := q.winBase + q.addr.toNat
        let d := lineOf (s.granBytes c off 64)
        let out := q.winBase + sievOut d
        (q.winLen < q.addr.toNat + 64 → Claims.gives (.sieveCall c) s (fun s' =>
          (s'.core c).sieve = { q with run := true, code := errBound, kept := 0, passed := 0, ctr := 0 } :: rest ∧ SameMem s s'))
        ∧ (q.addr.toNat + 64 ≤ q.winLen → s.granBad c off 64 = true → Claims.gives (.sieveCall c) s (fun s' => SameMem s s'
            ∧ (s'.core c).sieve = { q with run := true, code := errEcc, kept := 0, passed := 0, ctr := sievCtr d } :: rest))
        ∧ (q.addr.toNat + 64 ≤ q.winLen → s.granBad c off 64 = false → Claims.gives (.sieveCall c) s (fun s' => ∃ q',
            (s'.core c).sieve = q' :: rest ∧ q'.run = true ∧ q'.addr = q.addr ∧ q'.ctr = sievCtr d
            ∧ (sievDelta d % 64 ≠ 0 ∨ sievScore d % 64 ≠ 0 → q'.code = errAlign)
            ∧ (sievCode d q.winLen ≠ codeOk → q'.code = sievCode d q.winLen ∧ q'.kept = 0 ∧ SameMem s s')
            ∧ q'.kept ≤ sievPostK d ∧ q'.kept ≤ sievPreK d ∧ q'.kept ≤ q'.passed ∧ q'.passed ≤ sievScores d
            ∧ (q'.code = codeEmpty → q'.passed = 0)
            ∧ (∀ a, a < out ∨ out + 64 * q'.kept ≤ a → byte s' a = byte s a) ∧ ∀ x, x ≠ c → s'.core x = s.core x)))
    ∧ (∀ q rest, C.sieve = q :: rest → q.run = true → q.addr.toNat + 64 ≤ q.winLen → q.ctr < 16 →
        let a := q.winBase + q.addr.toNat + 56
        Claims.gives (.sieveComplete c) s (fun s' => (s'.core c).sieve = rest ∧ sum Reg.SIEVE_DONE_COUNT 0 1 s'
          ∧ s'.granBytes c a 8 = [BitVec.ofNat 8 q.code, 0x80] ++ leBytes 2 q.kept ++ leBytes 4 q.passed
          ∧ (s.coreOk c = true → s'.rd Reg.PIPE_PUB_COUNT c q.ctr = (s.rd Reg.PIPE_PUB_COUNT c q.ctr + 1) % 2 ^ 32)
          ∧ ∀ b, b < a ∨ a + 8 ≤ b → byte s' b = byte s b))
    ∧ Claims.gives (.sieveAbort c) s (fun s' => (s'.core c).sieve.length = C.sieve.length
        ∧ (∀ q ∈ (s'.core c).sieve, q.run = true ∧ 0x10 ≤ q.code) ∧ SameMem s s')

/-- Rings: an accepted TAIL or HEAD takes the value written, one past the free slots or the entries is refused; a job starts from the held
head entry with the context of R94 and moves HEAD by one (R93, R94, R345, R346, R348). -/
def Obligations.RingsAndJobs : Prop :=
  ∀ s : State,
    (∀ (ring : BitVec 14) (v : Word), let r := ringId ring.toNat
      let x := s.ringIdx r
      let ok := (v.toNat + 2 ^ 32 - x.tail) % 2 ^ 32 ≤ x.size - (x.tail + 2 ^ 32 - x.done) % 2 ^ 32
      (∀ (c : CoreId) k, r = .core c k → let accepted := ok ∧ s.rd Reg.CARTER_RING_CFG_KIND c k ≠ 0
        (accepted → Claims.gives (.ringTailWrite ring v) s (fun s' => s'.rd Reg.CARTER_RING_TAIL_TAIL c k = v.toNat
          ∧ s'.rd Reg.CARTER_RING_HEAD_HEAD c k = s.rd Reg.CARTER_RING_HEAD_HEAD c k
          ∧ (s.rd Reg.CARTER_RING_CFG_KIND c k = 1 → s.rd Reg.CARTER_RING_CFG_IRQ c k = 1 →
              (s'.rd Reg.CORE_IRQ_PEND_PEND c 0).testBit 10 = true) ∧ SameMem s s'))
        ∧ (¬accepted → Claims.gives (.ringTailWrite ring v) s (fun s' => s'.rd Reg.CARTER_STAT_RING_ERR c 0 = 1
            ∧ OnlyFields s s' [(Reg.CARTER_STAT_RING_ERR, c.val, 0)])))
      ∧ (∀ k f, (r = .fab k ∧ f = Reg.FAB_RING_TAIL_TAIL) ∨ (r = .host k ∧ f = Reg.HOST_RING_TAIL_TAIL) →
          (ok → Claims.gives (.ringTailWrite ring v) s (fun s' => s'.rd f 0 k = v.toNat ∧ OnlyFields s s' [(f, 0, k)]))
          ∧ (¬ok → exec (.ringTailWrite ring v) s = .next s)))
    ∧ (∀ (c : CoreId) (k : Fin 1024) (v : Word), let h := s.rd Reg.CARTER_RING_HEAD_HEAD c k
        let ok := (v.toNat + 2 ^ 32 - h) % 2 ^ 32 ≤ (s.rd Reg.CARTER_RING_TAIL_TAIL c k + 2 ^ 32 - h) % 2 ^ 32
        let data := s.rd Reg.CARTER_RING_CFG_KIND c k = 3
        (data → ok → Claims.gives (.ringHeadWrite c k v) s (fun s' => s'.rd Reg.CARTER_RING_HEAD_HEAD c k = v.toNat
          ∧ s'.rd Reg.CARTER_RING_DONE_DONE c k = v.toNat
          ∧ OnlyFields s s' [(Reg.CARTER_RING_HEAD_HEAD, c.val, k.val), (Reg.CARTER_RING_DONE_DONE, c.val, k.val)]))
        ∧ (data → ¬ok → Claims.gives (.ringHeadWrite c k v) s (fun s' => s'.rd Reg.CARTER_STAT_RING_ERR c 0 = 1
            ∧ OnlyFields s s' [(Reg.CARTER_STAT_RING_ERR, c.val, 0)]))
        ∧ (¬data → exec (.ringHeadWrite c k v) s = .next s))
    ∧ ∀ (c : CoreId) (k : Nat), s.takesJobs c = true → s.jobRing c = some k →
        let entry := (cellGet 0 (s.core c).carter.held k).toNat
        let word := fun i => (BitVec.ofNat 32 (entry / 2 ^ (32 * i)) : Word)
        let t : TaskId := ⟨entry % 8, Nat.mod_lt _ (by decide)⟩
        let i := s.rd Reg.CARTER_RING_HEAD_HEAD c k
        s.winBase c t + s.winLen c t ≤ 0x0400_0000 → (word 1).toNat % 32 = 0 → Claims.gives (.jobTake c) s (fun s' =>
          s'.rd Reg.CARTER_RING_HEAD_HEAD c k = (i + 1) % 2 ^ 32 ∧ (s'.task c t).st = .ready ∧ (s'.task c t).pc = word 1
          ∧ (∀ r : SReg, (s'.task c t).s.get r = if r.val < 8 then word (2 + r.val) else 0)
          ∧ (s'.task c t).dsp = BitVec.ofNat 32 (s.winLen c t) ∧ (s'.task c t).rstk = [] ∧ (s'.task c t).job = some (k, i)
          ∧ srTASK (s'.task c t).sr = t.val ∧ srLDEPTH (s'.task c t).sr = 0 ∧ srINH (s'.task c t).sr = false
          ∧ (∀ u, u ≠ t → s'.task c u = s.task c u) ∧ (s'.core c).seq.lcHeld = []
          ∧ (∀ d, d ≠ c → s'.core d = { s.core d with gran := (s'.core d).gran }) ∧ SameMem s s')

/-! ## The Carter, the DRAM, Tollgates and locks (12, 13) -/

/-- A request of a Carter channel joins the requests in flight under the next tag; one to the spare reserve in use is refused at once
(R376). -/
def Claims.asks (s s' : State) (c : CoreId) (ch : ChanId) (i off : Nat) (write : Bool) (part : ReqPart) : Prop :=
  let shut := decide (s.rd Reg.DRAM_MAP_RSV_USED 0 0 = 1 ∧ 0x1C_0000_0000 ≤ part.addr ∧ part.addr < 0x20_0000_0000)
  s'.reqs = s.reqs ++ [{ tag := s.nextTag, sender := .carter c ch i off, write := write, remote := false,
                         parts := [if shut then { part with stage := .done } else part], bad := false,
                         err := if shut then errBound else 0, dead := false }]
    ∧ s'.nextTag = s.nextTag + 1 ∧ SameMem s s' ∧ ∀ d, d ≠ c → s'.core d = s.core d

/-- From CSTART or a ring to the beats: a descriptor joins its channel's queue or is refused into its completion bytes; setup checks it; a read
beat asks for the next line of its segment, a write beat stores the lowest line buffered, whose data is open where a source of the
descriptor has that line too; pacing follows the levels (R101, R349, R354, R356, R358, R360, R361). -/
def Obligations.CarterStartsAndMoves : Prop :=
  ∀ (c : CoreId) (ch : ChanId) (s : State),
    let chan := fun s' : State => s'.chan c ch
    let k := s.chan c ch
    let dis := s.rd Reg.CARTER_CH_CTRL_DIS c ch
    (∀ (h : Hd) (p : PReg) (imm : BitVec 16) (t : TaskId), h.core = c → Ready s c t → h.last = true →
      let x := s.task c t
      let a := (x.p.get p + imm.signExtend 32).toNat / 64 * 64
      let off := s.winBase c t + a
      a + 64 ≤ s.winLen c t → (s.core c).seq.sbuf = [] → k.queue.length < 4 →
      (dis = 0 → s.rd Reg.CARTER_CH_CFG_SRC c ch = 0 → Claims.gives (.cstart h ch p imm) s (fun s' =>
        Retires s s' c t { x with pc := x.pc + 32 } { s.core c with carter := (s'.core c).carter } []
        ∧ chan s' = { k with queue := k.queue ++ [(off, s.winBase c t, s.winLen c t)] }
        ∧ (∀ j, j ≠ ch.val → s'.chan c j = s.chan c j) ∧ SameMem s s'))
      ∧ (s.rd Reg.CARTER_CH_CFG_SRC c ch = 1 → off + 64 ≤ 0x0400_0000 → Claims.gives (.cstart h ch p imm) s (fun s' => chan s' = k
          ∧ s'.granBytes c (off + 56) 2 = [0x11, 0x80]
          ∧ ∀ b, b < off + 48 ∨ off + 64 ≤ b → cellGet 0 (s'.core c).gran.bytes b = cellGet 0 (s.core c).gran.bytes b)))
    ∧ (let r := s.rd Reg.CARTER_CH_CFG_RING c ch
       let i := s.rd Reg.CARTER_RING_HEAD_HEAD c r
       let a := s.ringSlot c r i
       s.coreOk c = true → s.rd Reg.CARTER_CH_CFG_SRC c ch = 1 → dis = 0 → k.run = none → s.rd Reg.CARTER_RING_CFG_KIND c r = 2 →
       i ≠ s.rd Reg.CARTER_RING_TAIL_TAIL c r → s.ringTaken c ch = false →
       Claims.gives (.descRingTake c ch) s (fun s' => s'.rd Reg.CARTER_RING_HEAD_HEAD c r = (i + 1) % 2 ^ 32 ∧ SameMem s s'
         ∧ ∃ d, (chan s').run = some d ∧ d.desc = lineOf (s.localBytes a 64) ∧ d.ring = some (r, i) ∧ d.addr = a ∧ d.isSetUp = false
         ∧ d.code = (s.localRead c a 64).1 ∧ FieldsBut (s.localRead c a 64).2 s' [(Reg.CARTER_RING_HEAD_HEAD, c.val, r)]))
    ∧ (∀ off base len rest, s.coreOk c = true → s.rd Reg.CARTER_CTRL_EN c 0 = 1 → dis = 0 → k.run = none →
        k.queue = (off, base, len) :: rest → s.granBad c off 64 = false →
        let desc := lineOf (s.granBytes c off 64)
        cdOp desc ∈ [0, 3] → let r := s.cdCheck c ch base len desc
        Claims.gives (.carterSetup c ch) s (fun s' => (chan s').queue = rest ∧ (chan s').tag = BitVec.ofNat 16 (cdTag desc) ∧ SameMem s s'
          ∧ ∃ d, (chan s').run = some d ∧ d.isSetUp = true ∧ d.desc = desc ∧ d.code = r.1 ∧ (d.code = codeOk → d.segs = r.2)
          ∧ (cdSrc desc % 4 ≠ 0 → d.code = errAlign)
          ∧ (cdOp desc = 0 → awCsr (cdSrc desc) = false → awCsr (cdDst desc) = false →
              cdSrc desc % 64 ≠ 0 ∨ cdDst desc % 64 ≠ 0 ∨ cdLen desc % 64 ≠ 0 → d.code = errAlign)))
    ∧ (∀ d i g, k.run = some d → d.readSeg = some (i, g) → s.canRead c ch = true → (∀ x, x ≠ ch.val → s.canRead c x = false) →
        s.noTag c ch i false (g.src.toNat + g.rd) = false → awPeer (g.src.toNat + g.rd) = 0 → awCsr (g.src.toNat + g.rd) = false →
        cdCsr d.desc = false → Claims.gives (.carterReadBeat c) s (fun s' => Claims.asks s s' c ch i g.rd false
            { addr := g.src.toNat + g.rd, len := 64, data := [], stage := .atGate, age := 0, tries := 0 }
          ∧ ∃ d' g', (chan s').run = some d' ∧ d'.segs[i]? = some g' ∧ g'.rd = g.rd + 64))
    ∧ (∀ d i off l g, k.run = some d → s.nextWrite c ch = some (i, off, l) → (∀ x, x ≠ ch.val → s.nextWrite c x = none) →
        d.segs[i]? = some g → cdOp d.desc ≠ 3 → cdCsr d.desc = false → s.noTag c ch i true (g.dst.toNat + off) = false →
        awPeer (g.dst.toNat + off) = 0 → awCsr (g.dst.toNat + off) = false → Claims.gives (.carterWriteBeat c) s (fun s' =>
          (∃ x, Claims.asks s s' c ch i off true
              { addr := g.dst.toNat + off, len := 64, data := lineBytes x, stage := .atGate, age := 0, tries := 0 }
            ∧ ((∀ h ∈ d.segs, g.dst.toNat + off < h.src.toNat ∨ h.src.toNat + h.len ≤ g.dst.toNat + off) → x = l))
          ∧ ∃ d' g', (chan s').run = some d' ∧ d'.segs[i]? = some g' ∧ g'.wr = g.wr + 64 ∧ ∀ e ∈ g'.buf, e.1 ≠ off))
    ∧ ∀ d, s.moving c ch = some d → cdPace d.desc ≠ 0 → d.nextChunk ≠ none → d.holdsNext = false → d.tested = false →
        let l := (s.paceLevel c (cdPring d.desc)).1
        let e := (s.paceLevel c (cdPring d.desc)).2
        Claims.gives (.paceTest c ch) s (fun s' => SameMem s s' ∧ ∃ d', (chan s').run = some d'
          ∧ (cdPace d.desc = 1 → (d'.run = true ↔ if d.run then cdLw d.desc < l ∨ e = true else cdHw d.desc ≤ l ∨ e = true))
          ∧ (cdPace d.desc ≠ 1 → (d'.run = true ↔ if d.run then l < cdHw d.desc else l ≤ cdLw d.desc)))

/-- Responses, time-outs, completion and disabling (R355, R362..R366). -/
def Obligations.CarterEnds : Prop :=
  ∀ (c : CoreId) (ch : ChanId) (s : State),
    let chan := fun s' : State => s'.chan c ch
    let k := s.chan c ch
    let seg := fun (s' : State) (i : Nat) (p : Seg → Prop) => ∃ d g, (chan s').run = some d ∧ d.segs[i]? = some g ∧ p g
    (∀ (r : MemReq) (i off : Nat) (d : DescRun) (g : Seg), s.req? r.tag = some r → r.sender = .carter c ch i off → r.dead = false →
      k.run = some d → d.segs[i]? = some g → g.err = 0 →
      let gone := fun s' : State => ∀ x ∈ s'.reqs, x.tag ≠ r.tag
      (r.write = false → r.allDone = true →
        (r.err = 0 → r.bad = false → Claims.gives (.readResponse c r.tag) s (fun s' => gone s' ∧ SameMem s s'
          ∧ seg s' i (fun g' => g'.err = 0
              ∧ g'.buf = g.buf ++ r.parts.zipIdx.map (fun e => (off + 64 * e.2, lineOf e.1.data)))))
        ∧ (r.err ≠ 0 → Claims.gives (.readResponse c r.tag) s (fun s' => gone s' ∧ seg s' i (fun g' => g'.err = r.err ∧ g'.buf = [])))
        ∧ (r.err = 0 → r.bad = true → Claims.gives (.readResponse c r.tag) s (fun s' =>
            gone s' ∧ seg s' i (fun g' => g'.err = errEcc ∧ g'.buf = []))))
      ∧ (r.write = true → r.allDone = true → (∀ e ∈ (s.core c).carter.late, e.1 ≠ r.tag) →
          (r.err = 0 → cdOp d.desc ≠ 3 → Claims.gives (.writeResponse c r.tag) s (fun s' => gone s' ∧ s'.cores = s.cores ∧ SameMem s s'))
          ∧ (r.err ≠ 0 → Claims.gives (.writeResponse c r.tag) s (fun s' => gone s' ∧ seg s' i (fun g' => g'.err = r.err))))
      ∧ (s.rd Reg.CARTER_CTRL_TIMEOUT c 0 ≠ 0 → r.unsent = false → (∀ e ∈ (s.core c).carter.late, e.1 ≠ r.tag) →
          Claims.gives (.carterTimeout c r.tag) s (fun s' => (∃ x, s'.req? r.tag = some x ∧ x.dead = true)
            ∧ seg s' i (fun g' => g'.err = errTimeout) ∧ SameMem s s')))
    ∧ (∀ d, k.run = some d → d.isSetUp = true → s.mayComplete c ch d = true → s.rangeOk d.addr 64 = true → d.addr % 64 = 0 →
        (d.addr < 0x20_0000_0000 → (s.dramReach c d.addr).1 = codeOk) →
        let code := if d.code ≠ 0 then d.code else segsCode d.segs
        let failed := d.segs.findIdx (fun g => g.err != 0)
        Claims.gives (.descriptorComplete c ch) s (fun s' => (chan s').run = none ∧ (chan s').queue = k.queue
          ∧ s'.localBytes (d.addr + 56) 1 = [BitVec.ofNat 8 code]
          ∧ ((∀ g ∈ d.segs, g.err = 0) ∨ d.code ≠ 0 → s'.localBytes (d.addr + 57) 1 = [0x80])
          ∧ (d.code = 0 → failed < d.segs.length → s'.localBytes (d.addr + 57) 1 = [BitVec.ofNat 8 (0x80 + failed)])
          ∧ s'.rd Reg.CARTER_CH_DONE_COUNT c ch
              = min (s.rd Reg.CARTER_CH_DONE_COUNT c ch + 1) (2 ^ Reg.CARTER_CH_DONE_COUNT.width - 1)
          ∧ (cdIrq d.desc = true → (s'.rd Reg.CORE_IRQ_PEND_PEND c 0).testBit 7 = true)))
    ∧ (s.rd Reg.CARTER_CH_CTRL_DIS c ch = 0 → Claims.gives (.channelDisable c ch) s (fun s' => s'.rd Reg.CARTER_CH_CTRL_DIS c ch = 1
        ∧ (chan s').run = none ∧ (chan s').queue = [] ∧ (∀ x ∈ s'.reqs, x.ofChan c ch = true → x.dead = true)
        ∧ s'.deaths = s.deaths ++ (if ch.val < 4 then [.chan c ch] else [])))
    ∧ (s.rd Reg.CARTER_CH_CTRL_DIS c ch = 1 → exec (.channelDisable c ch) s = .next s)

/-- A Tollgate grants, of the inputs with a request, the first after LAST whose wait has reached WAITLIM; where there is none, of those of
the highest PRIO the first after LAST. A request at a channel's gate moves on by it, and a win of an agent that no request stands for is kept
for its next transfer (R380, R383). -/
def Obligations.TollgateDecisions : Prop :=
  ∀ s : State,
    (∀ (p : PortId) (others : BitVec 16) (w : Nat), let u := 20 + p.val
      let last := s.rd Reg.TG_STAT_LAST u 0
      let lim := s.rd Reg.TG_CTRL_WAITLIM u 0
      let prio := fun i => s.rd Reg.TG_PRIO_PRIO u i
      let rank := fun i => (i + 8 - last % 9) % 9
      let late := fun i => lim ≠ 0 ∧ lim ≤ s.waitCount u i
      let asks := fun i => i < 9 ∧ others.getLsbD i = true
      asks w →
      (late w ∧ (∀ i, asks i → late i → rank w ≤ rank i))
        ∨ (∀ i, asks i → ¬late i ∧ (prio i < prio w ∨ (prio i = prio w ∧ rank w ≤ rank i))) →
      Claims.gives (.tollgateDecision (.port p) others) s (fun s' => s'.rd Reg.TG_STAT_LAST u 0 = w
        ∧ (∀ i < 9, s'.waitCount u i = if i = w ∨ others.getLsbD i = false then 0 else s.waitCount u i + 1)
        ∧ s'.cores = s.cores ∧ s'.reqs = s.reqs ∧ SameMem s s'))
    ∧ (∀ (ch : DramCh) (i : Nat), i ∈ [6, 8, 9, 10] → s.reqs = [] →
        Claims.gives (.tollgateDecision (.dram ch) (BitVec.ofNat 16 (2 ^ i))) s (fun s' => s'.granted ch i = s.granted ch i + 1
          ∧ s'.rd Reg.TG_STAT_LAST ch 0 = i ∧ s'.cores = s.cores ∧ s'.reqs = [] ∧ SameMem s s'))
    ∧ (∀ g, (∃ p, g = Gate.port p) ∨ (∃ ch, g = .dram ch) → s.reqs = [] → exec (.tollgateDecision g 0) s = .next s)
    ∧ ∀ (ch : DramCh) (r : MemReq) (x : ReqPart), s.reqs = [r] → r.remote = false → r.parts = [x] → x.stage = .atGate →
        s.partGate r.write x = some ch.val → Claims.gives (.tollgateDecision (.dram ch) 0) s (fun s' =>
          s'.reqs = [{ r with parts := [{ x with stage := .granted, age := 0 }] }] ∧ s'.rd Reg.TG_STAT_LAST ch 0 = r.sender.input
          ∧ s'.cores = s.cores ∧ SameMem s s')

/-- The DRAM's rows: a granted read brings its bytes, a granted write stores them and nothing else; failed attempts are retried three times;
scrubbing walks on; temperatures set and clear their flags; rows and channels are repaired, retired and moved (R370..R377, R379). -/
def Obligations.DramCommands : Prop :=
  ∀ (ch : DramCh) (s : State),
    let sum := fun (f : Fld) (s' : State) => s'.rd f ch 0 = min (s.rd f ch 0 + 1) (2 ^ f.width - 1)
    let told := fun (s' : State) (code : Nat) (args : List Nat) => ∃ e, s'.events = s.events ++ [e] ∧ e.code = code ∧ e.args = args
    (∀ (r : MemReq) (x : ReqPart) (more : List MemReq), s.reqs = r :: more → r.remote = false → r.parts = [x] → x.stage = .granted →
      s.partGate r.write x = some ch.val →
      let done := fun (s' : State) (y : ReqPart) (bad : Bool) => s'.reqs = { r with parts := [y], bad := r.bad || bad } :: more
      let flawed := cellGet false s.dram.flaws (x.addr / 64)
      (r.write = false → cellGet false s.dram.poison (x.addr / 64) = false →
        Claims.gives (.dramReadDone ch r.tag []) s (fun s' =>
          done s' { x with stage := .done, data := s.dramBytes x.addr x.len } false ∧ SameMem s s' ∧ s'.events = s.events
          ∧ (flawed = false → s'.csr = s.csr) ∧ (flawed = true → sum Reg.DRAM_CH_CE_CNT_COUNT s'
              ∧ cellGet [] s'.dram.scrubQ ch = cellGet [] s.dram.scrubQ ch ++ [x.addr / 64])))
      ∧ (r.write = false → cellGet false s.dram.poison (x.addr / 64) = true →
          Claims.gives (.dramReadDone ch r.tag []) s (fun s' => done s' { x with stage := .done, data := [] } true
          ∧ sum Reg.DRAM_CH_UE_CNT_COUNT s' ∧ told s' 0x8A1 [ch.val, x.addr % 2 ^ 32, x.addr / 2 ^ 32] ∧ SameMem s s'))
      ∧ (r.write = true → Claims.gives (.dramWriteAccept ch r.tag) s (fun s' => done s' { x with stage := .done } false
          ∧ s'.dramBytes x.addr x.data.length = x.data ∧ s'.cores = s.cores ∧ s'.csr = s.csr
          ∧ ∀ a, a < x.addr ∨ x.addr + x.data.length ≤ a → cellGet 0 s'.dram.bytes a = cellGet 0 s.dram.bytes a))
      ∧ ∀ par : Bool, r.write = true ∨ par = true →
        let count := if par then Reg.DRAM_CH_RETRY_CNT_PAR else Reg.DRAM_CH_RETRY_CNT_CRC
        (x.tries < 3 → Claims.gives (.dramWriteRetry ch (.req r.tag) par) s (fun s' =>
          done s' { x with tries := x.tries + 1 } false ∧ sum count s' ∧ SameMem s s'))
        ∧ (3 ≤ x.tries → r.err = 0 → Claims.gives (.dramWriteRetry ch (.req r.tag) par) s (fun s' =>
          s'.reqs = { r with parts := [{ x with stage := .done }], err := errTimeout } :: more
          ∧ s'.dram.retireQ = s.dram.retireQ ++ [(ch.val, 2)] ∧ SameMem s s')))
    ∧ (∀ (i : Fin 11) (par : Bool), let n := s.failed ch i
        let count := if par then Reg.DRAM_CH_RETRY_CNT_PAR else Reg.DRAM_CH_RETRY_CNT_CRC
        (n < 3 → Claims.gives (.dramWriteRetry ch (.agent i) par) s (fun s' =>
          s'.failed ch i = n + 1 ∧ sum count s' ∧ s'.dram.retireQ = s.dram.retireQ ∧ SameMem s s'))
        ∧ (n = 3 → Claims.gives (.dramWriteRetry ch (.agent i) par) s (fun s' =>
          s'.failed ch i = 4 ∧ s'.csr = s.csr ∧ s'.dram.retireQ = s.dram.retireQ ++ [(ch.val, 2)] ∧ SameMem s s')))
    ∧ (∀ (r : MemReq) (x : ReqPart) (more : List MemReq), s.reqs = r :: more → r.remote = false → r.parts = [x] → x.stage ≠ .done →
        x.addr < 0x20_0000_0000 → s.dramLost x.addr = true → s.dramHome x.addr = ch.val → r.err = 0 →
        Claims.gives (.retiredChannelRefuse ch r.tag) s (fun s' =>
          s'.reqs = { r with parts := [{ x with stage := .done }], err := errDisabled } :: more ∧ SameMem s s'))
    ∧ (s.rd Reg.DRAM_CH_SCRUB_EN ch 0 = 1 → s.rd Reg.DRAM_CH_STAT_OK ch 0 = 1 →
        let q := cellGet [] s.dram.scrubQ ch
        let pos := s.rd Reg.DRAM_CH_SCRUB_POS_LINE ch 0
        let l := s.lineAddr ch pos / 64
        (s.useGrants 10 (ch.val :: (q.take 1).map (fun _ => ch.val)) ≠ none → Claims.gives (.dramScrubLine ch []) s (fun s' =>
          s'.rd Reg.DRAM_CH_SCRUB_POS_LINE ch 0 = (pos + 1) % 2 ^ 28 ∧ SameMem s s'
          ∧ (∀ x rest, q = x :: rest → cellGet false s'.dram.flaws x = false)
          ∧ (cellGet false s.dram.poison l = false → s'.events = s.events)
          ∧ (cellGet false s.dram.poison l = false → cellGet false s.dram.flaws l = false → cellGet [] s'.dram.scrubQ ch = q.drop 1)))
        ∧ (s.granted ch 10 = 0 → exec (.dramScrubLine ch []) s = .next s))
    ∧ (∀ temp : BitVec 8, let t := temp.toNat
        let lim := min 94 (s.rd Reg.DRAM_CTRL_T_THROT 0 0)
        Claims.gives (.dramTempSample ch temp) s (fun s' => s'.rd Reg.DRAM_CH_STAT_TEMP ch 0 = t
          ∧ s'.rd Reg.DRAM_CH_STAT_REF2X ch 0 = (if 85 ≤ t then 1 else if t < 83 then 0 else s.rd Reg.DRAM_CH_STAT_REF2X ch 0)
          ∧ s'.rd Reg.DRAM_CH_STAT_THROT ch 0 = (if lim ≤ t then 1 else if t + 2 < lim then 0 else s.rd Reg.DRAM_CH_STAT_THROT ch 0)
          ∧ (lim ≤ t → s.rd Reg.DRAM_CH_STAT_THROT ch 0 = 0 → ∃ e ∈ s'.events, e.code = 0x0A2 ∧ e.args = [ch.val, t]) ∧ SameMem s s'))
    ∧ (∀ row : Nat, max 1 (s.rd Reg.DRAM_CTRL_CE_PPR 0 0) ≤ trackerCount (s.dramTracker ch) row →
        let free := s.rd Reg.DRAM_CH_STAT_PPR_FREE ch 0
        Claims.gives (.softPpr ch row) s (fun s' => trackerCount (s'.dramTracker ch) row = 0 ∧ SameMem s s'
          ∧ (free = 0 ∨ s.groupSpent ch row = true → told s' 0xCA4 [ch.val, row] ∧ s'.dram.repairs = s.dram.repairs)
          ∧ (free ≠ 0 → s.groupSpent ch row = false → told s' 0x4A7 [ch.val, row]
              ∧ s'.rd Reg.DRAM_CH_STAT_PPR_FREE ch 0 = free - 1 ∧ s'.dram.repairs = s.dram.repairs ++ [(ch.val, row, false)])))
    ∧ exec (.dramRetire ch) s = .next { s with dram := { s.dram with retireQ := s.dram.retireQ ++ [(ch.val, 4)] } }
    ∧ (∀ reason rest, s.dram.retireQ = (ch.val, reason) :: rest → s.rd Reg.DRAM_SPARE_STAT_BUSY 0 0 = 0 →
        s.rd Reg.DRAM_CH_STAT_OK ch 0 = 1 → Claims.gives .channelRetire s (fun s' => s'.dram.retireQ = rest
          ∧ s'.rd Reg.DRAM_CH_STAT_OK ch 0 = 0 ∧ (s'.rd Reg.GLOBAL_UNITS_DRAM_OK 0 0).testBit ch = false
          ∧ told s' 0xCA5 [ch.val, reason] ∧ s'.rd Reg.DRAM_SPARE_STAT_CH 0 0 = ch ∧ SameMem s s'
          ∧ (s.rd Reg.DRAM_MAP_SPARE_RSV 0 0 = 1 → s.dram.moved = none → s.dram.lost = [] → s'.dram.moved = some ch.val
              ∧ s'.rd Reg.DRAM_SPARE_STAT_BUSY 0 0 = 1 ∧ s'.rd Reg.DRAM_MAP_RSV_USED 0 0 = 1)
          ∧ (s.rd Reg.DRAM_MAP_SPARE_RSV 0 0 = 0 ∨ s.dram.moved ≠ none ∨ s.dram.lost ≠ [] → s'.dram.lost = s.dram.lost ++ [ch.val])))
    ∧ (s.rd Reg.DRAM_SPARE_STAT_BUSY 0 0 = 1 → let pos := s.rd Reg.DRAM_SPARE_STAT_POS 0 0
        let from_ := s.rd Reg.DRAM_SPARE_STAT_CH 0 0
        let home := if pos / 2 ^ 23 < from_ then pos / 2 ^ 23 else pos / 2 ^ 23 + 1
        let l := granuleAddr from_ pos / 64
        let poison := fun (x : State) (i : Nat) => cellGet false x.dram.poison (l + i)
        let flaw := fun (x : State) (i : Nat) => cellGet false x.dram.flaws (l + i)
        (pos < 7 * 2 ^ 23 → (s.useGrants 10 (List.replicate 4 from_ ++ List.replicate 4 home) ≠ none →
            Claims.gives (.granuleMove true) s (fun s' => s'.rd Reg.DRAM_SPARE_STAT_POS 0 0 = pos + 1 ∧ SameMem s s'
              ∧ (∀ i < 4, poison s' i = poison s i ∧ flaw s' i = false)
              ∧ ((∀ i < 4, poison s i = false ∧ flaw s i = false) → FieldsBut s s' [(Reg.DRAM_SPARE_STAT_POS, 0, 0)])))
          ∧ (s.useGrants 10 (List.replicate 4 home) ≠ none →
            Claims.gives (.granuleMove false) s (fun s' => s'.rd Reg.DRAM_SPARE_STAT_POS 0 0 = pos + 1 ∧ SameMem s s'
              ∧ ∀ i < 4, poison s' i = true)))
        ∧ (pos = 7 * 2 ^ 23 → Claims.gives .dramSpareDone s (fun s' => s'.rd Reg.DRAM_SPARE_STAT_BUSY 0 0 = 0
            ∧ s'.rd Reg.DRAM_SPARE_STAT_DONE 0 0 = 1 ∧ told s' 0x0A6 [s.rd Reg.DRAM_SPARE_STAT_CH 0 0, pos] ∧ SameMem s s')))

/-- The owner that a path's lock operation acts for, where it acts at once (R385, R390, R391). -/
def Claims.locker (s : State) (p : LockPath) (o : Owner) : Prop :=
  match p with
  | .task c => ∃ t, (s.core c).seq.running = some t ∧ (s.task c t).lockOut = none ∧ o = .task c t
  | .chan c ch => ch.val < 4 ∧ o = .chan c ch
  | .host => o = .host
  | .peer a => o = .peer a

/-- Locks on every path: TRY takes a free lock and raises GEN; WAIT joins the waiters of a lock that another holds; RELEASE hands the lock to
its head waiter; CLEAR_BROKEN clears the mark; what is refused, as is a task's second operation at a time, is counted and changes no lock
(R385, R386, R389..R391, R539). -/
def Obligations.LockOperations : Prop :=
  (∀ (c : CoreId) (t : TaskId) (l : Fin 1024) (s : State), (s.core c).seq.running = some t → (s.task c t).lockOut ≠ none →
    ∀ i ∈ [Instr.tryLock (.task c) l, .waitLock (.task c) l, .releaseLock (.task c) l, .clearBroken (.task c) l],
      Claims.gives i s (fun s' => s'.locks = s.locks ∧ s'.cores = s.cores ∧ SameMem s s'
        ∧ s'.csrGet Reg.CORE_LOCK_RESP c t = BitVec.ofNat 64 (3 + l.val * 16 + 2 ^ 31)
        ∧ s'.rd Reg.LOCK_ERR_CNT_COUNT 0 0 = min (s.rd Reg.LOCK_ERR_CNT_COUNT 0 0 + 1) (2 ^ Reg.LOCK_ERR_CNT_COUNT.width - 1)))
  ∧ ∀ (p : LockPath) (o : Owner) (l : Fin 1024) (s : State), Claims.locker s p o → o ∉ s.deaths →
    let k := s.lock l
    let set := fun (s' : State) (k' : Lock) => s'.lock l = k' ∧ (∀ m, m ≠ l.val → s'.lock m = s.lock m) ∧ SameMem s s'
    let refused := fun s' : State => s'.locks = s.locks ∧ SameMem s s'
      ∧ s'.rd Reg.LOCK_ERR_CNT_COUNT 0 0 = min (s.rd Reg.LOCK_ERR_CNT_COUNT 0 0 + 1) (2 ^ Reg.LOCK_ERR_CNT_COUNT.width - 1)
    let resp := fun (s' : State) (res : Nat) => ∀ c t, o = .task c t →
      s'.csrGet Reg.CORE_LOCK_RESP c t = BitVec.ofNat 64 (res + l.val * 16 + 2 ^ 31)
    (k.owner = none → Claims.gives (.tryLock p l) s (fun s' => set s' { k with owner := some o, gen := k.gen + 1 }
        ∧ (k.broken = false → resp s' 0)))
    ∧ (k.owner ≠ none → Claims.gives (.tryLock p l) s (fun s' => s'.locks = s.locks ∧ resp s' 1 ∧ SameMem s s'))
    ∧ (∀ x, k.owner = some x → x ≠ o → (∀ c ch, p ≠ .chan c ch) → s.waitsAny o = false → s.waitersUsed < 512 →
        Claims.gives (.waitLock p l) s (fun s' => set s' { k with waiters := k.waiters ++ [o] } ∧ resp s' 2))
    ∧ (k.owner = none → Claims.gives (.waitLock p l) s (fun s' => set s' { k with owner := some o, gen := k.gen + 1 }))
    ∧ (k.owner = some o → k.waiters = [] → Claims.gives (.releaseLock p l) s (fun s' => set s' { k with owner := none } ∧ resp s' 0))
    ∧ (∀ w ws, k.owner = some o → k.waiters = w :: ws → Claims.gives (.releaseLock p l) s (fun s' =>
        set s' { k with owner := some w, waiters := ws, gen := k.gen + 1 }))
    ∧ (k.owner ≠ some o → Claims.gives (.releaseLock p l) s refused ∧ Claims.gives (.clearBroken p l) s refused)
    ∧ (k.owner = some o → Claims.gives (.clearBroken p l) s (fun s' => set s' { k with broken := false } ∧ resp s' 0))
    ∧ ∀ (q : Path) (v : Word), q ∈ [Path.host, .mgmt, .jtag] → Claims.gives (.lockOpForeignWrite q l v) s (fun s' =>
        refused s' ∧ OnlyFields s s' [(Reg.LOCK_ERR_CNT_COUNT, 0, 0)])

/-- The death of an owner: it owns and waits for no lock afterwards; each lock it held is broken and with its head waiter, or free; every other
lock keeps its owner, GEN and mark (R388). -/
def Obligations.OwnerDeathReleases : Prop :=
  ∀ (s : State) (o : Owner) (rest : List Owner), s.memOk → s.deaths = o :: rest → Claims.gives .ownerDeath s (fun s' =>
    s'.deaths = rest ∧ SameMem s s'
    ∧ ∀ l, let k := s.lock l
        let k' := s'.lock l
        let ws := k.waiters.filter (fun w => w != o)
        o ∉ k'.waiters ∧ k'.owner ≠ some o
        ∧ (k.owner = some o → k'.broken = true ∧ k'.owner = ws.head? ∧ k'.waiters = ws.tail ∧ k'.gen = k.gen + BitVec.ofNat 16 (min 1 ws.length))
        ∧ (k.owner ≠ some o → k' = { k with waiters := ws }))

/-! ## The fabric (14) -/

/-- A packet that port `p` accepts for this device: the Drover runs, the port is up, the header checks, and DST is the device's own
address (R399, R400, R406). -/
structure Claims.heard (s : State) (p : PortId) (k : Packet) : Prop where
  runs : s.fab.stopped = false
  up : 2 ≤ s.rd Reg.FAB_PORT_STAT_STATE 0 p
  check : k.hchk = true
  named : s.rd Reg.FAB_ADDR_ADDR 0 0 ≠ 0
  here : k.dst.toNat = s.rd Reg.FAB_ADDR_ADDR 0 0

/-- The credits that go back as a packet leaves its receive buffer (R403). -/
def Claims.credit (p : PortId) (k : Packet) : Out := .credits p (bufOf (isResp k.ty) k.vl) (1 + k.data.length)

/-- A packet of this device leaves by port `q` on lane `vl` at once: its destination is not lost, nothing waits, the credits are held. -/
structure Claims.clearTo (s : State) (k : Packet) (q : Nat) (vl : Bool) : Prop where
  runs : s.fab.stopped = false
  known : k.dst.toNat ∉ s.fab.lost
  route : s.route k none = .out q vl
  first : s.fab.outQ = []
  held : 1 + k.data.length ≤ s.rd (credFld (bufOf (isResp k.ty) vl)) 0 q

/-- The answer to a packet: its addresses exchanged, its TAG, WIN and OFF kept (R400, R401). -/
def Claims.answer (s : State) (k : Packet) (ty : BitVec 4) (status : BitVec 5) : Packet :=
  { dst := k.src, src := BitVec.ofNat 16 (s.rd Reg.FAB_ADDR_ADDR 0 0), ty := ty, vl := false, status := status, tag := k.tag,
    win := k.win, off := k.off, data := [], hchk := true }

/-- Windows: a request of an open window that its bounds, peers and rights admit enters the Tollgates line by line; any other is counted
and answered NACK_WINDOW or NACK_BOUND; a finished request is answered with its data, and the last one of a closing window closes it
(R401, R415..R418). -/
def Obligations.FabricWindows : Prop :=
  ∀ s : State,
    let asks := fun (i : Instr) (p : PortId) (k : Packet) (n : Nat) (write : Bool) =>
      let field := fun f => s.rd f 0 k.win.toNat
      let first := field Reg.FAB_WIN_BASE_BASE * 4096 + k.off.toNat / 64 * 64
      let open' := field Reg.FAB_WIN_STAT_STATE = 1
      let allowed := k.src.toNat &&& field Reg.FAB_WIN_PEER_MASK = field Reg.FAB_WIN_PEER_MATCH &&& field Reg.FAB_WIN_PEER_MASK
        ∧ field (if write then Reg.FAB_WIN_CFG_WR else Reg.FAB_WIN_CFG_RD) = 1
        ∧ k.off.toNat / 64 * 64 + 64 * n ≤ field Reg.FAB_WIN_CFG_SIZE * 4096 ∧ s.rangeOk first (64 * n) = true
      let refused := fun status => ∀ q vl, let a := Claims.answer s k (if write then 9 else 8) status
        Claims.clearTo s a q vl → Claims.gives i s (fun s' => s'.outbox = s.outbox ++ [Claims.credit p k, .packet q { a with vl := vl }]
          ∧ s'.reqs = s.reqs ∧ s'.cores = s.cores ∧ SameMem s s'
          ∧ s'.rd Reg.FAB_WIN_STAT_REFUSED 0 k.win.toNat = min (field Reg.FAB_WIN_STAT_REFUSED + 1) 4095)
      Claims.heard s p k → s.fabTagsUsed < 8192 →
      let part := fun j : Nat => ({ addr := first + 64 * j, len := 64, data := if write then lineBytes (k.data.getD j 0) else [],
                                    stage := .atGate, age := 0, tries := 0 } : ReqPart)
      let r : MemReq := { tag := s.nextTag, sender := .peer p k.win k.src k.tag, write := write, remote := false,
                          parts := (List.range n).map part, bad := false, err := 0, dead := false }
      (¬open' → refused 1) ∧ (open' → ¬allowed → refused 2)
      ∧ (open' → allowed → Claims.gives i s (fun s' => s'.outbox = s.outbox ++ [Claims.credit p k] ∧ s'.cores = s.cores
          ∧ s'.reqs = s.reqs ++ [r]
          ∧ s'.rd Reg.FAB_WIN_STAT_OUTSTANDING 0 k.win.toNat = min (field Reg.FAB_WIN_STAT_OUTSTANDING + 1) 16383 ∧ SameMem s s'))
    (∀ p (k : Packet), k.ty = 1 → asks (.readPacket p k) p k (k.off.toNat % 4 + 1) false)
    ∧ (∀ p (k : Packet), k.ty = 2 → asks (.writePacket p k) p k k.data.length true)
    ∧ (∀ (w : BitVec 8) (r : MemReq) (p : PortId) (src tag : BitVec 16) (q : Nat) (vl : Bool), s.req? r.tag = some r →
        r.sender = .peer p w src tag → r.allDone = true → r.err = 0 → r.bad = false → (∀ x ∈ r.parts, x.data ≠ []) →
        let a : Packet := { dst := src, src := BitVec.ofNat 16 (s.rd Reg.FAB_ADDR_ADDR 0 0), ty := if r.write then 9 else 8, vl := vl,
                            status := 0, tag := tag, win := w, off := 0, data := if r.write then [] else r.parts.map (fun x => lineOf x.data), hchk := true }
        let n := s.rd Reg.FAB_WIN_STAT_OUTSTANDING 0 w.toNat
        let state := s.rd Reg.FAB_WIN_STAT_STATE 0 w.toNat
        Claims.clearTo s { a with vl := false } q vl → Claims.gives (.windowRequestDone w r.tag) s (fun s' =>
          s'.reqs = s.reqs.filter (fun x => x.tag != r.tag) ∧ s'.outbox = s.outbox ++ [.packet q a]
          ∧ s'.rd Reg.FAB_WIN_STAT_OUTSTANDING 0 w.toNat = n - 1 ∧ s'.cores = s.cores ∧ SameMem s s'
          ∧ (state = 2 → n ≤ 1 → s'.rd Reg.FAB_WIN_STAT_STATE 0 w.toNat = 0 ∧ ∃ e, s'.events = s.events ++ [e] ∧ e.code = 0x0E7
              ∧ e.args = [w.toNat, s.rd Reg.FAB_WIN_STAT_REFUSED 0 w.toNat])
          ∧ (state ≠ 2 ∨ 1 < n → s'.rd Reg.FAB_WIN_STAT_STATE 0 w.toNat = state ∧ s'.events = s.events)))
    ∧ ∀ w : BitVec 8, let state := fun x : State => x.rd Reg.FAB_WIN_STAT_STATE 0 w.toNat
        (state s = 0 → Claims.gives (.fabWinOpen w) s (fun s' => state s' = 1 ∧ OnlyFields s s' [(Reg.FAB_WIN_STAT_STATE, 0, w.toNat)]))
        ∧ (state s ≠ 0 → Claims.gives (.fabWinOpen w) s (fun s' => s'.rd Reg.FAB_WIN_STAT_WIN_ERR 0 w.toNat = 1
            ∧ OnlyFields s s' [(Reg.FAB_WIN_STAT_WIN_ERR, 0, w.toNat)]))
        ∧ (state s = 1 → Claims.gives (.fabWinClose w) s (fun s' =>
            (s.rd Reg.FAB_WIN_STAT_OUTSTANDING 0 w.toNat = 0 → state s' = 0 ∧ ∃ e, s'.events = s.events ++ [e] ∧ e.code = 0x0E7)
            ∧ (s.rd Reg.FAB_WIN_STAT_OUTSTANDING 0 w.toNat ≠ 0 → state s' = 2 ∧ s'.events = s.events) ∧ SameMem s s'))
        ∧ (state s ≠ 1 → exec (.fabWinClose w) s = .next s)

/-- Fabric rings: an entry goes out as a RING_PUT and waits for its response, which completes it, has it sent again or stops the ring; a
RING_PUT that arrives is written to the slot of TAIL and TAIL moves, or is refused with no effect (R355, R401, R419). -/
def Obligations.FabricRings : Prop :=
  ∀ s : State,
    (∀ (f : Fin 8192) (q : Nat) (vl : Bool), let fld := fun x => s.rd x 0 f
      let h := fld Reg.FAB_RING_HEAD_HEAD
      let a := fld Reg.FAB_RING_BASE_ADDR * 64 + h % 2 ^ fld Reg.FAB_RING_CFG_LOG2SZ * 64
      let k : Packet := { dst := BitVec.ofNat 16 (fld Reg.FAB_RING_CFG_PEER), src := BitVec.ofNat 16 (s.rd Reg.FAB_ADDR_ADDR 0 0),
                          ty := 3, vl := false, status := 0, tag := BitVec.ofNat 16 (s.nextTag % 65536), win := 0, off := 0,
                          data := [lineOf (s.localBytes a 64)], hchk := true }
      let sends := fun i => Claims.gives i s (fun s' =>
        s'.outbox = s.outbox ++ [.ringPut q { k with vl := vl } (fld Reg.FAB_RING_TGT_TRING)]
        ∧ s'.fabRing f = { sent := some (s.nextTag % 65536), again := false } ∧ (∀ g, g ≠ f.val → s'.fabRing g = s.fabRing g)
        ∧ s'.rd Reg.FAB_RING_HEAD_HEAD 0 f = h ∧ s'.cores = (s.localRead 7 a 64).2.cores ∧ SameMem s s')
      let may := fld Reg.FAB_RING_CFG_EN = 1 ∧ fld Reg.FAB_RING_CFG_ERR = 0 ∧ h ≠ fld Reg.FAB_RING_TAIL_TAIL
      (may → (s.localRead 7 a 64).1 = codeOk → Claims.clearTo s k q vl →
        (s.fabRing f = FabRing.idle → sends (.fabRingSend f)) ∧ ((s.fabRing f).again = true → sends (.fabRingRetry f)))
      ∧ (¬may → exec (.fabRingSend f) s = .next s ∧ exec (.fabRingRetry f) s = .next s)
      ∧ (s.rd Reg.FAB_CTRL_RING_TO 0 0 ≠ 0 → (s.fabRing f).sent.isSome = true → Claims.gives (.fabRingTimeout f) s (fun s' =>
          s'.fabRing f = FabRing.idle ∧ s'.rd Reg.FAB_RING_CFG_ERR 0 f = 1 ∧ SameMem s s'
          ∧ ∃ e st, s'.events = s.events ++ [e] ∧ e.code = 0x8E8 ∧ e.args = [f.val, st]))
      ∧ (s.rd Reg.FAB_CTRL_RING_TO 0 0 = 0 → exec (.fabRingTimeout f) s = .next s)
      ∧ ∀ (p : PortId) (r : Packet), Claims.heard s p r → r.ty = 0xA → r.src.toNat = fld Reg.FAB_RING_CFG_PEER →
          (∀ e ∈ s.fab.rings, e.2.sent = some r.tag.toNat ↔ e.1 = f.val) → (∃ e ∈ s.fab.rings, e.1 = f.val) →
          cellsWf FabRing.idle s.fab.rings = true →
          let out := fun s' : State => s'.outbox = s.outbox ++ [Claims.credit p r]
          (r.status = 0 → s.rangeOk a 64 = true → a % 64 = 0 → (a < 0x20_0000_0000 → (s.dramReach 7 a).1 = codeOk) →
            Claims.gives (.ringResp p r) s (fun s' => out s' ∧ s'.fabRing f = FabRing.idle
            ∧ s'.rd Reg.FAB_RING_HEAD_HEAD 0 f = (h + 1) % 2 ^ 32 ∧ s'.rd Reg.FAB_RING_DONE_DONE 0 f = (h + 1) % 2 ^ 32
            ∧ s'.localBytes (a + 56) 8 = [0, 0x80, 0, 0, 0, 0, 0, 0]))
          ∧ (r.status = 4 → Claims.gives (.ringResp p r) s (fun s' => out s' ∧ s'.fabRing f = { sent := none, again := true }
              ∧ s'.rd Reg.FAB_RING_HEAD_HEAD 0 f = h ∧ SameMem s s'))
          ∧ (r.status ≠ 0 → r.status ≠ 4 → Claims.gives (.ringResp p r) s (fun s' => out s' ∧ s'.fabRing f = FabRing.idle
              ∧ s'.rd Reg.FAB_RING_CFG_ERR 0 f = 1 ∧ SameMem s s'
              ∧ ∃ e, s'.events = s.events ++ [e] ∧ e.code = 0x8E8 ∧ e.args = [f.val, r.status.toNat])))
    ∧ ∀ (p : PortId) (k : Packet) (ring : BitVec 14) (q : Nat) (vl : Bool), Claims.heard s p k → k.ty = 3 →
        let r := ringId ring.toNat
        let x := s.ringIdx r
        let a := s.slotOf r x.tail
        let full := x.size ≤ (x.tail + 2 ^ 32 - x.done) % 2 ^ 32
        let barred := (∃ f, r = .fab f) ∨ ∃ c n, r = .core c n ∧ s.rd Reg.CARTER_RING_CFG_KIND c n = 0
        let sent := fun (s' : State) (st : BitVec 5) =>
          s'.outbox = s.outbox ++ [Claims.credit p k, .packet q { Claims.answer s k 0xA st with vl := vl }]
        (∀ st, Claims.clearTo s (Claims.answer s k 0xA st) q vl) →
        (barred → Claims.gives (.ringPut p k ring) s (fun s' => sent s' 2 ∧ s'.ringIdx r = x ∧ SameMem s s'))
        ∧ (¬barred → full → Claims.gives (.ringPut p k ring) s (fun s' => sent s' 4 ∧ s'.ringIdx r = x ∧ SameMem s s'))
        ∧ (¬barred → ¬full → s.placeError a 64 = 0 → (a < 0x20_0000_0000 → (s.dramReach 7 a).1 = codeOk) →
            Claims.gives (.ringPut p k ring) s (fun s' => sent s' 0
            ∧ s'.ringIdx r = { x with tail := (x.tail + 1) % 2 ^ 32 } ∧ s'.localBytes a 64 = lineBytes (k.data.headD 0)))
        ∧ (¬barred → ¬full → s.placeError a 64 = errBound → Claims.gives (.ringPut p k ring) s (fun s' => sent s' 2
            ∧ s'.ringIdx r = x ∧ SameMem s s'))

/-- Lock operations between devices, responses to this device's requests, and peers declared lost (R364, R401, R414, R420, R421). -/
def Obligations.FabricPeers : Prop :=
  ∀ s : State,
    let resp := fun (s' : State) (i : Fin 8) (v : Nat) => s'.csrGet Reg.FAB_LOCK_RESP 0 i = BitVec.ofNat 64 (v + 2 ^ 31)
    let busy := fun (x : State) (i : Fin 8) => cellGet 0 x.fab.lockOut i.val
    (∀ (i : Fin 8) (v : Word) (q : Nat) (vl : Bool), let dest := v.toNat / 65536
      let k : Packet := { dst := BitVec.ofNat 16 dest, src := BitVec.ofNat 16 (s.rd Reg.FAB_ADDR_ADDR 0 0), ty := 4, vl := false,
                          status := 0, tag := BitVec.ofNat 16 (s.nextTag % 65536), win := 0, off := 0, data := [], hchk := true }
      (busy s i = 0 → Claims.clearTo s k q vl → Claims.gives (.fabLockReq i v) s (fun s' => busy s' i = s.nextTag % 65536 + 1
        ∧ s'.outbox = s.outbox ++ [.lock q { k with vl := vl } (v.toNat / 4096 % 8) (v.toNat % 1024)] ∧ s'.locks = s.locks ∧ SameMem s s'))
      ∧ (busy s i ≠ 0 ∨ dest ∈ s.fab.lost → Claims.gives (.fabLockReq i v) s (fun s' => resp s' i 3
          ∧ s'.rd Reg.LOCK_ERR_CNT_COUNT 0 0 = min (s.rd Reg.LOCK_ERR_CNT_COUNT 0 0 + 1) (2 ^ Reg.LOCK_ERR_CNT_COUNT.width - 1)
          ∧ OnlyFields s s' [(whole Reg.FAB_LOCK_RESP, 0, i.val), (Reg.LOCK_ERR_CNT_COUNT, 0, 0)])))
    ∧ (∀ (p : PortId) (k : Packet) (i : Fin 8) (result : BitVec 2) (broken : Bool), Claims.heard s p k → k.ty = 0xB →
        (busy s i = k.tag.toNat + 1 → Claims.gives (.lockResp p k i result broken) s (fun s' => resp s' i (result.toNat + 4 * bit01 broken)
          ∧ busy s' i = (if result = 2 then k.tag.toNat + 1 else 0) ∧ s'.outbox = s.outbox ++ [Claims.credit p k] ∧ SameMem s s'))
        ∧ (busy s i ≠ k.tag.toNat + 1 → exec (.lockResp p k i result broken) s = .next (s.emit (Claims.credit p k))))
    ∧ (∀ (p : PortId) (k : Packet) (l : Fin 1024) (q : Nat) (vl : Bool), Claims.heard s p k → k.ty = 4 → Owner.peer k.src ∉ s.deaths →
        (s.lock l).owner = none → let a := { Claims.answer s k 0xB 0 with win := 0, off := 0 }
        Claims.clearTo s a q vl → Claims.gives (.lockPacket p k 1 l) s (fun s' =>
          s'.lock l = { s.lock l with owner := some (.peer k.src), gen := (s.lock l).gen + 1 } ∧ (∀ m, m ≠ l.val → s'.lock m = s.lock m)
          ∧ s'.outbox = s.outbox ++ [Claims.credit p k, .lockResp q { a with vl := vl } 0 (s.lock l).broken] ∧ SameMem s s'))
    ∧ (∀ (p : PortId) (k : Packet) (r : MemReq), Claims.heard s p k → s.remoteReq k r.write = some r → s.req? r.tag = some r →
        let i := if r.write then Instr.writeResp p k else .readResp p k
        k.ty = (if r.write then 9 else 8) →
        (r.dead = true → Claims.gives i s (fun s' => (∀ x ∈ s'.reqs, x.tag ≠ r.tag) ∧ s'.cores = s.cores ∧ SameMem s s'))
        ∧ (r.dead = false → r.err = 0 → Claims.gives i s (fun s' => s'.outbox = s.outbox ++ [Claims.credit p k] ∧ s'.cores = s.cores
            ∧ SameMem s s' ∧ ∃ r', s'.req? r.tag = some r' ∧ r'.err = statusCode k.status.toNat ∧ (∀ x ∈ r'.parts, x.stage = .done)
            ∧ r'.parts.map (fun x => x.addr) = r.parts.map (fun x => x.addr)
            ∧ (r.write = false → k.status = 0 → ∀ j < r.parts.length,
                (r'.parts.map (fun x => x.data)).getD j [] = lineBytes (k.data.getD j 0)))))
    ∧ (∀ a : BitVec 16, Claims.gives (.fabPeerLostSet a) s (fun s' => a.toNat ∈ s'.fab.lost ∧ s'.deaths = s.deaths ++ [.peer a]
          ∧ (∀ b ∈ s'.fab.lost, b = a.toNat ∨ b ∈ s.fab.lost) ∧ s'.csr = s.csr ∧ s'.cores = s.cores ∧ SameMem s s')
        ∧ Claims.gives (.fabPeerLostClear a) s (fun s' => (∀ b, b ∈ s'.fab.lost ↔ b ∈ s.fab.lost ∧ b ≠ a.toNat)
          ∧ s' = { s with fab := { s.fab with lost := s'.fab.lost } }))
    ∧ (∀ (p : PortId) (k : Ctl), s.fab.stopped = false → 2 ≤ s.rd Reg.FAB_PORT_STAT_STATE 0 p →
        Claims.gives (.goodbye p k) s (fun s' => k.src.toNat ∈ s'.fab.lost ∧ s'.deaths = s.deaths ++ [.peer k.src] ∧ SameMem s s'))
    ∧ Claims.gives (.fabVoteFail none) s (fun s' => s'.fab.stopped = true ∧ SameMem s s'
        ∧ ∃ e, s'.events = s.events ++ [e] ∧ e.code = 0xCE6 ∧ e.args = [0])
    ∧ ∀ d : Fin 4096, Claims.gives (.fabVoteFail (some d)) s (fun s' => d.val ∈ s'.fab.badRoutes ∧ s'.csr = s.csr ∧ s'.cores = s.cores
        ∧ ∃ e, s'.events = s.events ++ [e] ∧ e.code = 0xCE6 ∧ e.args = [1, d.val])

/-- Links: a packet for another device goes on by its route or is dropped and counted; links come up with 256 credits a buffer, replay, lose
lanes and go down; credits return (R396..R399, R402, R403, R406..R408). -/
def Obligations.FabricLinks : Prop :=
  ∀ (p : PortId) (s : State),
    let sum := fun (f : Fld) (u n : Nat) (s' : State) => s'.rd f 0 u = min (s.rd f 0 u + n) (2 ^ f.width - 1)
    let state := fun x : State => x.rd Reg.FAB_PORT_STAT_STATE 0 p
    let lanes := s.rd Reg.FAB_PORT_STAT_LANES 0 p
    let up := 2 ≤ state s
    let told := fun (s' : State) (code : Nat) (args : List Nat) => ∃ e ∈ s'.events, e.code = code ∧ e.args = args
    (∀ k : Packet, up → s.fab.stopped = false → k.hchk = true → k.ty ∈ [1, 2, 3, 4, 8, 9, 0xA, 0xB] →
      s.rd Reg.FAB_ADDR_ADDR 0 0 ≠ 0 → k.dst.toNat ≠ s.rd Reg.FAB_ADDR_ADDR 0 0 →
      let n := 1 + k.data.length
      (s.route k (some p) = .drop → Claims.gives (.packetForward p k) s (fun s' => sum Reg.FAB_DROP_CNT_COUNT 0 1 s'
        ∧ s'.outbox = s.outbox ++ [Claims.credit p k] ∧ s'.events = s.events ∧ SameMem s s'))
      ∧ (s.route k (some p) = .entryDrop → Claims.gives (.packetForward p k) s (fun s' => sum Reg.FAB_DROP_CNT_COUNT 0 1 s'
          ∧ s'.outbox = s.outbox ++ [Claims.credit p k] ∧ told s' 0x8E3 [k.dst.toNat, p.val] ∧ SameMem s s'))
      ∧ ∀ q vl, s.route k (some p) = .out q vl → let f := credFld (bufOf (isResp k.ty) vl)
          (s.fab.outQ = [] → n ≤ s.rd f 0 q → Claims.gives (.packetForward p k) s (fun s' => s'.rd f 0 q = s.rd f 0 q - n
            ∧ s'.outbox = s.outbox ++ [.packet q { k with vl := vl }, Claims.credit p k] ∧ sum Reg.FAB_PORT_FWD_COUNT q 1 s'
            ∧ sum Reg.FAB_PORT_TX_LINES_COUNT q k.data.length s' ∧ SameMem s s'))
          ∧ (s.rd f 0 q < n → Claims.gives (.packetForward p k) s (fun s' => s'.outbox = s.outbox ∧ s'.csr = s.csr
              ∧ (∃ o, s'.fab.outQ = s.fab.outQ ++ [o] ∧ o.port = q ∧ o.cost = n ∧ o.out = .packet q { k with vl := vl }) ∧ SameMem s s')))
    ∧ (up → Claims.gives (.linkReplay p) s (fun s' => sum Reg.FAB_PORT_REPLAY_COUNT p 1 s' ∧ sum Reg.FAB_PORT_FEC_UE_COUNT p 1 s'
        ∧ OnlyFields s s' [(Reg.FAB_PORT_REPLAY_COUNT, 0, p.val), (Reg.FAB_PORT_FEC_UE_COUNT, 0, p.val)]))
    ∧ (∀ lane : Fin 4, up → lanes.testBit lane = true → let rest := lanes - 2 ^ lane.val
        Claims.gives (.laneFail p lane) s (fun s' => told s' 0x4E1 [p.val, lane.val]
          ∧ (s'.rd Reg.FAB_PORT_STAT_LANE_OK 0 p).testBit lane = false ∧ SameMem s s'
          ∧ (lanes = 15 → s'.rd Reg.FAB_PORT_STAT_LANES 0 p = rest ∧ state s' = state s)
          ∧ (lanes ≠ 15 → state s' = 0 ∧ s'.rd Reg.FAB_PORT_STAT_LANES 0 p = 0 ∧ told s' 0xCE2 [p.val, 1])))
    ∧ (∀ cause : Fin 4, up → cause ≠ 0 → Claims.gives (.fabPortDown p cause) s (fun s' => state s' = 0
        ∧ s'.rd Reg.FAB_PORT_STAT_LANES 0 p = 0 ∧ told s' 0xCE2 [p.val, cause.val] ∧ (∀ o ∈ s'.fab.outQ, o.port ≠ p.val)
        ∧ (∀ o ∈ s.fab.outQ, o.port ≠ p.val → o ∈ s'.fab.outQ)
        ∧ sum Reg.FAB_DROP_CNT_COUNT 0 (s.fab.outQ.countP (fun o => o.port == p.val)) s' ∧ SameMem s s'))
    ∧ (∀ (buf : Fin 4) (n : Nat), up → s.fab.outQ = [] → Claims.gives (.creditReturn p buf n) s (fun s' =>
        s'.rd (credFld buf) 0 p = min 256 (s.rd (credFld buf) 0 p + n) ∧ OnlyFields s s' [(credFld buf, 0, p.val)]))
    ∧ (∀ peer : Bool, s.rd Reg.FAB_CTRL_EN 0 0 = 1 → s.rd Reg.FAB_PORT_CFG_EN 0 p = 1 → s.rd Reg.FAB_PORT_STAT_OK 0 p = 1 →
        s.fab.stopped = false → ¬up →
        (s.rd Reg.FAB_PORT_CFG_FEC 0 p = bit01 peer → Claims.gives (.linkUp p peer) s (fun s' => state s' = 2
          ∧ s'.rd Reg.FAB_PORT_STAT_LANES 0 p = s.rd Reg.FAB_PORT_STAT_LANE_OK 0 p ∧ (∀ b < 4, s'.rd (credFld b) 0 p = 256) ∧ SameMem s s'))
        ∧ (s.rd Reg.FAB_PORT_CFG_FEC 0 p ≠ bit01 peer → Claims.gives (.linkUp p peer) s (fun s' => s'.rd Reg.FAB_PORT_STAT_LINK_ERR 0 p = 1
            ∧ OnlyFields s s' [(Reg.FAB_PORT_STAT_LINK_ERR, 0, p.val)])))
    ∧ (¬up → exec (.linkReplay p) s = .next s ∧ (∀ l, exec (.laneFail p l) s = .next s) ∧ (∀ c, exec (.fabPortDown p c) s = .next s)
        ∧ ∀ b n, exec (.creditReturn p b n) s = .next s)

/-- A CONTROL packet that leaves by the port of its AXIS and DIR, which is up with credits held and nothing waiting. -/
structure Claims.ctlClear (s : State) (axis : Nat) (minus : Bool) : Prop where
  runs : s.fab.stopped = false
  up : 2 ≤ s.rd Reg.FAB_PORT_STAT_STATE 0 (2 * axis + bit01 minus)
  first : s.fab.outQ = []
  held : 2 ≤ s.rd Reg.FAB_PORT_CRED_REQ_VL0 0 (2 * axis + bit01 minus)

/-- Enumeration: the root walks out of its X plus port; a walk is passed on with its count raised or turned back where the chain ends; the
answer of the last axis makes the shape and the root's address; an ASSIGN gives the address and is passed on; HELLO tells the neighbour;
ENUM_DONE writes FAB_SHAPE; a failure or a second root ends it (R405, R410, R411, R413). -/
def Obligations.Enumeration : Prop :=
  ∀ s : State,
    let st := fun x : State => x.rd Reg.FAB_ENUM_STATE 0 0
    let addr := fun x : State => x.rd Reg.FAB_ADDR_ADDR 0 0
    let id := s.csrGet Reg.FAB_DEVICE_ID 0 0
    let root := s.rd Reg.FAB_CTRL_ROOT 0 0 = 1 ∧ st s ≠ 5
    let told := fun (s' : State) (code : Nat) (args : List Nat) => ∃ e ∈ s'.events, e.code = code ∧ e.args = args
    let walks := fun i => Claims.gives i s (fun s' => st s' = 1 ∧ addr s' = 0
      ∧ s'.outbox = s.outbox ++ [.control 0 1 false 0 (some (id, 0, 0)) 0] ∧ s'.fab.walk = some (0, false) ∧ SameMem s s')
    let on := fun (p : PortId) => s.fab.stopped = false ∧ 2 ≤ s.rd Reg.FAB_PORT_STAT_STATE 0 p
    let credit := fun (p : PortId) (n : Nat) => Out.credits p 0 n
    let line := fun k : Ctl => some (k.id, k.shape, k.origin)
    (root → Claims.ctlClear s 0 false →
      (st s = 0 → s.rd Reg.FAB_CTRL_EN 0 0 = 1 → walks .enumStart)
      ∧ (s.fabQuiet = true → walks .fabEnumGo)
      ∧ (s.fabQuiet = false → Claims.gives .fabEnumGo s (fun s' => s'.rd Reg.FAB_STAT_ENUM_ERR 0 0 = 1
          ∧ OnlyFields s s' [(Reg.FAB_STAT_ENUM_ERR, 0, 0)])))
    ∧ (¬root → exec .enumStart s = .next s ∧ exec .fabEnumGo s = .next s)
    ∧ (∀ (p : PortId) (k : Ctl), on p → s.rd Reg.FAB_CTRL_ROOT 0 0 = 0 →
        (Claims.ctlClear s k.axis k.minus → Claims.gives (.walk p k) s (fun s' => addr s' = 0
          ∧ s'.outbox = s.outbox ++ [credit p 2, .control (2 * k.axis + bit01 k.minus) 1 k.minus (k.arg.toNat + 1) (line k) k.src.toNat] ∧ SameMem s s'))
        ∧ (s.rd Reg.FAB_PORT_STAT_STATE 0 (2 * k.axis + bit01 k.minus) < 2 → Claims.ctlClear s k.axis (!k.minus) →
            Claims.gives (.walk p k) s (fun s' => addr s' = 0 ∧ SameMem s s' ∧ s'.outbox = s.outbox
              ++ [credit p 2, .control (2 * k.axis + bit01 (!k.minus)) 2 (!k.minus) (k.arg.toNat + 1) (line k) k.src.toNat]))
        ∧ (Claims.ctlClear s k.axis k.minus → Claims.gives (.walkEnd p k) s (fun s' => addr s' = addr s ∧ SameMem s s'
            ∧ s'.outbox = s.outbox ++ [credit p 2, .control (2 * k.axis + bit01 k.minus) 2 k.minus k.arg.toNat (line k) k.src.toNat])))
    ∧ (∀ (p : PortId) (k : Ctl), on p → root → id.toNat < k.id.toNat → exec (.walk p k) s = .next (s.emit (credit p 2))
        ∧ exec (.assign p k) s = .next (s.emit (credit p 2)))
    ∧ (∀ (p : PortId) (k : Ctl), on p → root → k.id.toNat < id.toNat → Claims.gives (.walk p k) s (fun s' =>
        st s' = 5 ∧ addr s' = 0 ∧ s'.fab.walk = none ∧ told s' 0x0E5 [k.id.toNat % 2 ^ 32, k.id.toNat / 2 ^ 32] ∧ SameMem s s'))
    ∧ (∀ (p : PortId) (k : Ctl), on p → root → k.axis.val = 2 → k.minus = true → k.id = id → s.fab.walk = some (2, false) →
        s.rd Reg.FAB_PORT_STAT_STATE 0 5 < 2 → (s.fab.counts.get 0).1 + (s.fab.counts.get 0).2.1 < 15 →
        Claims.gives (.walkEnd p k) s (fun s' => s'.fab.walk = none ∧ s'.fab.shape = BitVec.ofNat 16 (planShape (s.fab.counts.set 2 (k.arg.toNat, 0, false)))
          ∧ s'.fab.rootId = id ∧ SameMem s s'))
    ∧ (∀ (p : PortId) (k : Ctl), on p → s.rd Reg.FAB_CTRL_ROOT 0 0 = 0 →
        (addr s = 0 → (∀ q : PortId, s.rd Reg.FAB_PORT_STAT_NEIGHBOUR 0 q = 0) → Claims.gives (.assign p k) s (fun s' => addr s' = k.arg.toNat ∧ st s' = 2
          ∧ s'.fab.rootId = k.id ∧ s'.fab.shape = k.shape ∧ s'.fab.heldAxis = some k.axis.val ∧ SameMem s s'))
        ∧ (addr s ≠ 0 → addr s = k.arg.toNat → exec (.assign p k) s = .next (s.emit (credit p 2)))
        ∧ (addr s ≠ 0 → addr s ≠ k.arg.toNat → Claims.gives (.assign p k) s (fun s' => st s' = 4 ∧ addr s' = 0
            ∧ s'.rd Reg.FAB_ENUM_FAIL_PORT 0 0 = p ∧ told s' 0xCE4 [p.val, 3] ∧ SameMem s s')))
    ∧ (∀ (p : PortId) (k : Ctl), on p → (addr s = 0 ∨ k.arg = 0 ∨ s.neighbourOk p k.arg.toNat = true) → Claims.gives (.hello p k) s (fun s' =>
        s'.rd Reg.FAB_PORT_STAT_NEIGHBOUR 0 p = k.arg.toNat ∧ addr s' = addr s ∧ st s' = st s ∧ s'.events = s.events ∧ SameMem s s'))
    ∧ (∀ (p : PortId) (k : Ctl), on p → addr s ≠ 0 → k.arg ≠ 0 → s.neighbourOk p k.arg.toNat = false → Claims.gives (.hello p k) s (fun s' =>
        st s' = 4 ∧ addr s' = 0 ∧ told s' 0xCE4 [p.val, 4] ∧ SameMem s s'))
    ∧ (∀ k : Ctl, root → st s = 2 → s.fab.stopped = false → Claims.gives (.enumDone none k) s (fun s' => st s' = 3 ∧ s'.fab.lost = []
        ∧ (s'.csrGet Reg.FAB_SHAPE 0 0).toNat = s.fab.shape.toNat % 0x8000 ∧ addr s' = addr s ∧ SameMem s s'))
    ∧ (∀ (p : PortId) (k : Ctl), on p → addr s ≠ 0 → Claims.gives (.enumDone (some p) k) s (fun s' => st s' = 3 ∧ s'.fab.lost = []
        ∧ (s'.csrGet Reg.FAB_SHAPE 0 0).toNat = k.shape.toNat % 0x8000 ∧ addr s' = addr s ∧ SameMem s s'))
    ∧ (∀ (p : PortId) (k : Ctl), on p → Claims.gives (.enumFail (some p) k) s (fun s' => st s' = 4 ∧ addr s' = 0
        ∧ s'.rd Reg.FAB_ENUM_FAIL_PORT 0 0 = k.arg.toNat % 8 ∧ s'.events = s.events ∧ SameMem s s'))
    ∧ ∀ k : Ctl, st s = 1 ∨ st s = 2 → Claims.gives (.enumFail none k) s (fun s' => st s' = 4 ∧ addr s' = 0
        ∧ s'.rd Reg.FAB_ENUM_FAIL_PORT 0 0 = k.arg.toNat % 8 ∧ told s' 0xCE4 [k.arg.toNat % 8, k.arg.toNat / 16 % 8] ∧ SameMem s s')

/-! ## The host port (15) -/

/-- A frame of the session without MACsec (R424, R425). -/
def Claims.frame (s : State) (bytes : List Byte) : Out :=
  .host s.host.peer s.host.net (s.rd Reg.HOST_CTRL_ENCAP 0 0)
    (if s.rd Reg.HOST_CTRL_VLAN_EN 0 0 = 1 then some (s.rd Reg.HOST_CTRL_VID 0 0) else none) none bytes

/-- An open session without keys, in which a unit may be sent at once (R428). -/
structure Claims.talks (s : State) : Prop where
  session : s.rd Reg.HOST_STAT_SESSION 0 0 = 1
  plain : s.host.keys = none
  room : s.host.unacked.length < 64

/-- One unit of messages is sent and numbered, with the entries of a host ring that it carries (R426..R428). -/
structure Claims.sendsUnit (s s' : State) (msgs : List Byte) (rings : List (Nat × Nat)) : Prop where
  sent : s'.outbox = s.outbox ++ [Claims.frame s (unitOf 0 s.host.txNext s.host.rxNext s.host.session msgs)]
  kept : s'.host.unacked = s.host.unacked ++ [{ seq := s.host.txNext, msgs := msgs, rings := rings }]
  next : s'.host.txNext = (s.host.txNext + 1) % 2 ^ 32

/-- The message `m` at the head is answered with a STATUS and data, and leaves the queue (R430, R431). -/
def Claims.answered (s s' : State) (m : HMsg) (status : Nat) (data : List Byte) : Prop :=
  Claims.sendsUnit s s' (msgOf (m.op + 0x80) status data.length m.tag data) [] ∧ s'.host.inbox = s.host.inbox.drop 1

/-- What a received frame does: it is discarded and counted where its link, EtherType, CRC or SEQ says so, and else its unit's messages join
the queue; a station asked for its address answers (R423..R428, R443). -/
def Obligations.HostFrames : Prop :=
  ∀ s : State, s.held = false → s.rd Reg.HOST_STAT_LINK 0 0 = 1 → s.host.keys = none →
    let sum := fun (f : Fld) (s' : State) => s'.rd f 0 0 = min (s.rd f 0 0 + 1) (2 ^ 32 - 1) ∧ OnlyFields s s' [(f, 0, 0)]
    let frame := fun (ty : Nat) (u : List Byte) => [BitVec.ofNat 8 (ty / 256), BitVec.ofNat 8 ty] ++ u
    let etype := s.rd Reg.HOST_ETYPE_ETYPE 0 0
    let vid := if s.rd Reg.HOST_CTRL_VLAN_EN 0 0 = 1 then some (s.rd Reg.HOST_CTRL_VID 0 0) else none
    (s.rd Reg.HOST_CTRL_EN 0 0 = 1 → s.rd Reg.HOST_CTRL_ENCAP 0 0 = 0 → etype ≠ 0x8100 →
      ∀ (u : List Byte) (mac : BitVec 48) (prot : Bool), u.length ≤ 1400 →
      (∀ ty < 65536, ty ≠ 0x8100 → ty ≠ etype → Claims.gives (.hostUnitReceive (frame ty u) mac prot) s (sum Reg.HOST_DROP_CNT_COUNT))
      ∧ (u.length < 20 → Claims.gives (.hostUnitReceive (frame etype u) mac prot) s (sum Reg.HOST_CRC_ERR_CNT_COUNT))
      ∧ ∀ (msgs : List Byte) (seq ack : Nat), u = unitOf 0 seq ack s.host.session msgs → seq < 2 ^ 32 → ack < 2 ^ 32 →
          s.host.session < 2 ^ 32 →
          let i := Instr.hostUnitReceive (frame etype u) mac prot
          let ms := messagesOf msgs (msgs.length / 8)
          (s.rd Reg.HOST_STAT_SESSION 0 0 = 0 → Claims.gives i s (sum Reg.HOST_SEQ_DROP_CNT_COUNT))
          ∧ (s.rd Reg.HOST_STAT_SESSION 0 0 = 1 → seq ≠ s.host.rxNext → Claims.gives i s (fun s' => s'.host.inbox = s.host.inbox
              ∧ s'.rd Reg.HOST_SEQ_DROP_CNT_COUNT 0 0 = min (s.rd Reg.HOST_SEQ_DROP_CNT_COUNT 0 0 + 1) (2 ^ 32 - 1)
              ∧ s'.outbox = s.outbox ++ [Claims.frame s (unitOf 2 s.host.txNext s.host.rxNext s.host.session [])] ∧ SameMem s s'))
          ∧ (s.rd Reg.HOST_STAT_SESSION 0 0 = 1 → seq = s.host.rxNext → s.host.unacked = [] → (∀ m ∈ ms, m.allowed = true) →
              Claims.gives i s (fun s' => s'.host.inbox = s.host.inbox ++ ms ∧ s'.host.rxNext = (seq + 1) % 2 ^ 32 ∧ s'.host.owesAck = true
                ∧ s' = { s with host := s'.host })))
    ∧ (∀ (frame : List Byte) (mac : BitVec 48) (prot : Bool), s.rd Reg.HOST_CTRL_EN 0 0 = 0 →
        exec (.hostUnitReceive frame mac prot) s = .next s)
    ∧ exec .pauseFrame s = .next s
    ∧ (∀ (mac : BitVec 48) (ip : Word) (prot : Bool),
        (ip.toNat = s.rd Reg.HOST_IPV4_ADDR 0 0 → exec (.arpRequest mac ip prot) s = .next (s.emit (.neighbour mac false vid none)))
        ∧ (ip.toNat ≠ s.rd Reg.HOST_IPV4_ADDR 0 0 → Claims.gives (.arpRequest mac ip prot) s (sum Reg.HOST_DROP_CNT_COUNT)))
    ∧ ∀ (mac : BitVec 48) (ip : BitVec 128) (prot : Bool), let word := fun j => (BitVec.ofNat 32 (s.rd Reg.HOST_IPV6_ADDR 0 j) : Word)
        let mine := word 0 ++ word 1 ++ word 2 ++ word 3
        (ip = mine → exec (.neighbourSolicitation mac ip prot) s = .next (s.emit (.neighbour mac true vid none)))
        ∧ (ip ≠ mine → Claims.gives (.neighbourSolicitation mac ip prot) s (sum Reg.HOST_DROP_CNT_COUNT))

/-- A session that ends: the event tells the cause, what was unacknowledged and waiting is gone, the keys are erased, HEAD of every host
ring returns to DONE, and the host's locks are released by its death notice (R388, R429, R442). -/
structure Claims.sessionEnds (s s' : State) (cause : Nat) : Prop where
  shut : s'.rd Reg.HOST_STAT_SESSION 0 0 = 0
  bare : s'.rd Reg.HOST_STAT_SECURE 0 0 = 0
  keys : s'.host.keys = none
  unacked : s'.host.unacked = []
  inbox : s'.host.inbox = []
  heads : ∀ h < 2048, s'.rd Reg.HOST_RING_HEAD_HEAD 0 h = s.rd Reg.HOST_RING_DONE_DONE 0 h
  deaths : s'.deaths = s.deaths ++ [.host]
  event : ∃ e, s'.events = s.events ++ [e] ∧ e.code = 0x102 ∧ e.args = [s.host.session, cause]
  mem : SameMem s s'

/-- The session: its opening with the next number, its acknowledgement and retransmission, its end by CLOSE, idle time, a lost link or KILL,
and the link (R423, R427..R429, R443, R445). -/
def Obligations.HostSession : Prop :=
  ∀ s : State,
    let open' := s.rd Reg.HOST_STAT_SESSION 0 0 = 1
    let quiet := s.rd Reg.HOST_STAT_SESSION 0 0 = 0
    (∀ m, s.host.inbox = [m] → m.op = 1 → quiet → let n := if s.host.session + 1 = 2 ^ 32 then 1 else s.host.session + 1
      s.host.session < 2 ^ 32 → Claims.gives .openSession s (fun s' => s'.rd Reg.HOST_STAT_SESSION 0 0 = 1 ∧ s'.host.session = n
        ∧ s'.rd Reg.HOST_STAT_SESSNUM 0 0 = n % 65536 ∧ s'.host.inbox = [] ∧ s'.host.rxNext = 1 ∧ s'.host.txNext = 1 ∧ s'.host.keys = none
        ∧ (let data := leBytes 4 n ++ leBytes 8 (s.csrGet Reg.HOST_MAC_ADDR 0 0).toNat ++ leBytes 8 (s.csrGet Reg.GLOBAL_PART_ID 0 0).toNat
           s'.outbox = s.outbox ++ [Claims.frame s (unitOf 0 0 1 n (msgOf 0x81 0 20 m.tag data))]) ∧ SameMem s s'))
    ∧ (∀ m rest, s.host.inbox = m :: rest → m.op = 1 → open' → Claims.gives .openSession s (fun s' => s'.host.inbox = rest
        ∧ ∃ e, s'.events = s.events ++ [e] ∧ e.code = 0x101 ∧ e.args = [s.host.peer.toNat % 2 ^ 32, s.host.peer.toNat / 2 ^ 32]))
    ∧ (∀ m rest, s.host.inbox = m :: rest → m.op = 2 → Claims.talks s →
        (s.hostBusy = false → Claims.gives .closeSession s (fun s' => Claims.sessionEnds s s' 1 ∧ s'.outbox = s.outbox
          ++ [Claims.frame s (unitOf 0 s.host.txNext s.host.rxNext s.host.session (msgOf 0x82 0 0 m.tag []))]))
        ∧ (s.hostBusy = true → exec .closeSession s = .next s))
    ∧ (open' → Claims.gives .sessionIdleTimeout s (fun s' => Claims.sessionEnds s s' 2)
        ∧ Claims.gives .hostKill s (fun s' => Claims.sessionEnds s s' 4)
        ∧ (s.held = false → Claims.gives .hostLinkDown s (fun s' => Claims.sessionEnds s s' 3 ∧ s'.rd Reg.HOST_STAT_LINK 0 0 = 0)))
    ∧ (quiet → exec .sessionIdleTimeout s = .next s ∧ exec .hostKill s = .next s ∧ exec .ackTimer s = .next s ∧ exec .retransmit s = .next s)
    ∧ (open' → s.host.keys = none →
        (s.host.owesAck = true → Claims.gives .ackTimer s (fun s' => s'.host = { s.host with owesAck := false } ∧ s'.csr = s.csr
          ∧ s'.outbox = s.outbox ++ [Claims.frame s (unitOf 2 s.host.txNext s.host.rxNext s.host.session [])] ∧ SameMem s s'))
        ∧ (s.host.unacked ≠ [] → Claims.gives .retransmit s (fun s' => s'.host.unacked = s.host.unacked ∧ s'.host.txNext = s.host.txNext
            ∧ s'.outbox = s.outbox ++ s.host.unacked.map (fun u => Claims.frame s (unitOf 0 u.seq s.host.rxNext s.host.session u.msgs))
            ∧ s'.rd Reg.HOST_RETX_CNT_COUNT 0 0 = min (s.rd Reg.HOST_RETX_CNT_COUNT 0 0 + 1) (2 ^ 32 - 1) ∧ SameMem s s')))
    ∧ (∀ leader : Bool, s.held = false → 8 ≤ s.rd Reg.MGMT_BOOT_STAT_PHASE 0 0 → Claims.gives (.hostPhyLinkUp leader) s (fun s' =>
        s'.rd Reg.HOST_STAT_LINK 0 0 = 1 ∧ OnlyFields s s' [(Reg.HOST_STAT_LINK, 0, 0), (Reg.HOST_STAT_LEADER, 0, 0)]
        ∧ s'.rd Reg.HOST_STAT_LEADER 0 0 = if s.rd Reg.HOST_PHY_AN 0 0 = 1 then bit01 leader else s.rd Reg.HOST_PHY_ROLE 0 0))

/-- READ and WRITE of lines that the Tollgates have granted, DOORBELL and LOCK: each has its effect and its answer; an
address out of line or out of bounds is answered so and has none (R386, R431..R434). -/
def Obligations.HostAccesses : Prop :=
  ∀ (s : State) (m : HMsg) (rest : List HMsg), Claims.talks s → s.host.inbox = m :: rest →
    let a := m.field 0 8
    let plain := ¬(0x60_0000_0000 ≤ a ∧ a < 0x60_1000_0000)
    let lines := fun n => (List.range (n / 64)).map (fun i => a + 64 * i)
    let ok := fun n => a % 64 = 0 ∧ n % 64 = 0 ∧ n ≤ 1024 ∧ s.hostWaits a n = false ∧ ∀ l ∈ lines n, s.rangeOk l 64 = true
      ∧ (∀ c off, placeOf l = .gran c off → s.underTest c = false) ∧ ∀ d, placeOf l = .dram d → s.dramLost d = false
    let through := fun write n => s.useGrants 8 (s.transfers write a n) ≠ none
    (m.op = 3 → plain → let n := m.field 8 4
      (ok n → through false n → (∀ l ∈ lines n, (s.localRead 8 l 64).1 = codeOk) → Claims.gives .hostRead s (fun s' =>
        Claims.answered s s' m 0 ((lines n).flatMap (fun l => s.localBytes l 64)) ∧ SameMem s s'
        ∧ (s.dram.flaws = [] → (∀ c : CoreId, (s.core c).gran.flaws = []) →
            FieldsBut s s' [])))
      ∧ (ok n → ¬through false n → exec .hostRead s = .next s)
      ∧ (a % 64 ≠ 0 ∨ n % 64 ≠ 0 → Claims.gives .hostRead s (fun s' => Claims.answered s s' m 0x10 [] ∧ SameMem s s'))
      ∧ (a % 64 = 0 → n % 64 = 0 → (∃ l ∈ lines n, s.rangeOk l 64 = false) → Claims.gives .hostRead s (fun s' =>
          Claims.answered s s' m 0x11 [] ∧ SameMem s s')))
    ∧ (m.op = 4 → plain → m.dlen < 1024 → let n := m.data.length
        (ok n → through true n → (∀ l ∈ lines n, ∀ d, placeOf l = .dram d → (s.dramReach 8 d).1 = codeOk) → 
          Claims.gives .hostWrite s (fun s' => Claims.answered s s' m 0 []
          ∧ (∀ i < n / 64, s'.localBytes (a + 64 * i) 64 = (m.data.drop (64 * i)).take 64)
          ∧ ∀ l, l % 64 = 0 → l ∉ lines n → s'.localBytes l 64 = s.localBytes l 64))
        ∧ (a % 64 ≠ 0 ∨ n % 64 ≠ 0 → Claims.gives .hostWrite s (fun s' => Claims.answered s s' m 0x10 [] ∧ SameMem s s')))
    ∧ (m.op = 5 → let r := ringId (m.field 0 4 % 16384)
        let x := s.ringIdx r
        let v := m.field 4 4
        let barred := (∃ f, r = .fab f) ∨ ∃ c k, r = .core c k ∧ s.rd Reg.CARTER_RING_CFG_KIND c k = 0
        let fits := (v + 2 ^ 32 - x.tail) % 2 ^ 32 ≤ x.size - (x.tail + 2 ^ 32 - x.done) % 2 ^ 32
        (¬barred → fits → Claims.gives .doorbell s (fun s' => Claims.answered s s' m 0 [] ∧ s'.ringIdx r = { x with tail := v } ∧ SameMem s s'))
        ∧ (barred ∨ ¬fits → Claims.gives .doorbell s (fun s' => Claims.answered s s' m 0x11 [] ∧ s'.ringIdx r = x ∧ SameMem s s')))
    ∧ (m.op = 6 → Owner.host ∉ s.deaths → s.host.lockWait = none → let l := m.field 0 2
        let lo := s.lock l
        (1024 ≤ l → Claims.gives .hostLock s (fun s' => Claims.answered s s' m 0x11 [] ∧ s'.locks = s.locks))
        ∧ (l < 1024 → m.field 2 1 = 1 → lo.owner = none → Claims.gives .hostLock s (fun s' =>
            Claims.answered s s' m 0 (leBytes 4 (4 * bit01 lo.broken)) ∧ s'.lock l = { lo with owner := some .host, gen := lo.gen + 1 }
            ∧ (∀ k, k ≠ l → s'.lock k = s.lock k) ∧ SameMem s s'))
        ∧ (l < 1024 → m.field 2 1 = 3 → lo.owner = some .host → lo.waiters = [] → Claims.gives .hostLock s (fun s' =>
            Claims.answered s s' m 0 (leBytes 4 0) ∧ s'.lock l = { lo with owner := none } ∧ (∀ k, k ≠ l → s'.lock k = s.lock k) ∧ SameMem s s')))

/-- CAM_CMD, ATTEST and KEY, and what the part sends of itself: RING_DATA of the ring whose turn it is, and CAM_EVENT (R291, R431, R436,
R440..R442, R486). -/
def Obligations.HostServices : Prop :=
  ∀ s : State, Claims.talks s →
    (∀ m rest, s.host.inbox = m :: rest →
      (m.op = 7 → m.dlen < 1024 → ∀ c : CamId, m.field 0 1 = c.val →
        (s.camTakes c = true → (s.cam c).cmdOut = none → Claims.gives .camCmd s (fun s' => s'.host.inbox = rest
          ∧ s'.host.camOut = s.host.camOut + 1 ∧ SameMem s s'
          ∧ ∃ k : CamCmd, (s'.cam c).cmdOut = some k ∧ s'.outbox = s.outbox ++ [.camera c k] ∧ k.addr.toNat = m.field 4 4
              ∧ (k.write = true ↔ m.field 1 1 = 0) ∧ (k.write = true → k.data = m.data)))
        ∧ (s.camTakes c = false → Claims.gives .camCmd s (fun s' => Claims.answered s s' m 0x11 [] ∧ s'.cams = s.cams)))
      ∧ (m.op = 8 → (s.signDisabled = true → Claims.gives .attest s (fun s' => Claims.answered s s' m 0x15 [] ∧ s'.sec = s.sec))
          ∧ (s.signDisabled = false → Claims.gives .attest s (fun s' => s'.host.inbox = rest ∧ s'.host.kem.isSome = true
              ∧ s'.outbox = s.outbox ∧ SameMem s s'
              ∧ ∃ r, s'.sec.signQ = s.sec.signQ ++ [r] ∧ r.tag = m.tag ∧ r.session = s.host.session)))
      ∧ (m.op = 9 → m.dlen < 1024 → s.host.kem = none → Claims.gives .key s (fun s' => s'.host.keys = none
          ∧ ∃ status < 256, Claims.answered s s' m status [])))
    ∧ (∀ m m2 m3 rest d, s.host.inbox = m :: m2 :: m3 :: rest → (∀ x ∈ [m, m2, m3], x.op = 9 ∧ x.tag = m.tag) → m.dlen = 1024 →
        m2.dlen = 544 → m3.dlen = 0 → m.data.length = 1024 → m2.data.length = 544 → s.host.kem = some d →
        s.rd Reg.HOST_MACSEC_EN 0 0 = 1 → Claims.gives .key s (fun s' => s'.host.inbox = rest ∧ s'.host.pn = 1
          ∧ Claims.sendsUnit s s' (msgOf 0x89 0 0 m.tag []) [] ∧ s'.rd Reg.HOST_STAT_SECURE 0 0 = 1
          ∧ ∃ ks, s'.host.keys = some ks ∧ ks.an = 1 ∧ ks.rx = sessionKey (Config.mlkemDecaps d (m.data ++ m2.data)) s.host.session 1
              ∧ ks.tx = sessionKey (Config.mlkemDecaps d (m.data ++ m2.data)) s.host.session 2))
    ∧ (∀ h, s.nextRing = some h → let i := s.rd Reg.HOST_RING_HEAD_HEAD 0 h
        let n := min ((s.rd Reg.HOST_RING_TAIL_TAIL 0 h + 2 ^ 32 - i) % 2 ^ 32) (s.rd Reg.HOST_CTRL_RMAX 0 0 + 1)
        let slot := fun j => s.rd Reg.HOST_RING_BASE_ADDR 0 h * 64 + (i + j) % 2 ^ 32 % 2 ^ s.rd Reg.HOST_RING_CFG_LOG2SZ 0 h * 64
        (∀ j < n, (s.localRead 8 (slot j) 64).1 = codeOk) →
        s.useGrants 8 ((List.range n).flatMap (fun j => s.transfers false (s.slotOf (.host h) (i + j)) 64)) ≠ none →
        Claims.gives .ringData s (fun s' =>
          s'.rd Reg.HOST_RING_HEAD_HEAD 0 h = (i + n) % 2 ^ 32 ∧ s'.rd Reg.HOST_RING_DONE_DONE 0 h = s.rd Reg.HOST_RING_DONE_DONE 0 h
          ∧ (let data := leBytes 4 (14336 + h) ++ leBytes 4 i ++ (List.range n).flatMap (fun j => s.localBytes (slot j) 64)
             Claims.sendsUnit s s' (msgOf 0x40 0 (64 * n) 0 data) [(h, n)]) ∧ SameMem s s'))
    ∧ (s.nextRing = none → exec .ringData s = .next s)
    ∧ (∀ c d rest, s.host.camEvents = (c, d) :: rest → d.length ≤ 1024 → Claims.gives .camEvent s (fun s' => s'.host.camEvents = rest
        ∧ Claims.sendsUnit s s' (msgOf 0x41 0 d.length 0 (leBytes 8 c ++ d)) [] ∧ s'.csr = s.csr ∧ SameMem s s'))
    ∧ (s.host.camEvents = [] → exec .camEvent s = .next s)
end

