-- ==== Sys2Proof/Laws/Cells.lean ====
section
/-! SUPPORT. Laws of sparse data and byte memories: a read after a write, and the canonical form that every operation keeps. -/

namespace Sys2Proof.Machine

variable {α : Type}

theorem cellGet_filter_ne (d : α) (m : List (Nat × α)) (a b : Nat) (h : b ≠ a) :
    cellGet d (m.filter (fun kv => kv.1 != a)) b = cellGet d m b := by
  induction m with
  | nil => rfl
  | cons e m ih =>
    obtain ⟨k, v⟩ := e
    by_cases hk : k = a
    · subst hk
      simp [cellGet, ih, Ne.symm h]
    · by_cases hb : k = b
      · subst hb; simp [hk, cellGet]
      · simp [hk, cellGet, hb, ih]

theorem cellGet_filter_eq (d : α) (m : List (Nat × α)) (a : Nat) :
    cellGet d (m.filter (fun kv => kv.1 != a)) a = d := by
  induction m with
  | nil => rfl
  | cons e m ih =>
    obtain ⟨k, v⟩ := e
    by_cases hk : k = a
    · simp [hk, ih]
    · simp [hk, cellGet, ih]

theorem cellGet_ins_ne (d : α) (m : List (Nat × α)) (a b : Nat) (x : α) (h : b ≠ a) :
    cellGet d (cellIns m a x) b = cellGet d m b := by
  induction m with
  | nil => simp [cellIns, cellGet, Ne.symm h]
  | cons e m ih =>
    obtain ⟨k, v⟩ := e
    by_cases hk : a < k
    · simp [cellIns, hk, cellGet, Ne.symm h]
    · simp [cellIns, hk, cellGet, ih]

theorem cellGet_ins_eq (d : α) (m : List (Nat × α)) (a : Nat) (x : α) (h : ∀ e ∈ m, e.1 ≠ a) :
    cellGet d (cellIns m a x) a = x := by
  induction m with
  | nil => simp [cellIns, cellGet]
  | cons e m ih =>
    obtain ⟨k, v⟩ := e
    by_cases hk : a < k
    · simp [cellIns, hk, cellGet]
    · have h1 : k ≠ a := h (k, v) List.mem_cons_self
      have h2 : cellGet d (cellIns m a x) a = x := ih (fun e he => h e (List.mem_cons_of_mem _ he))
      simp [cellIns, hk, cellGet, h1, h2]

/-- A read after a write (the law of every sparse table of the state). -/
theorem cellGet_cellPut [DecidableEq α] (d : α) (m : List (Nat × α)) (a b : Nat) (x : α) :
    cellGet d (cellPut d m a x) b = if b = a then x else cellGet d m b := by
  unfold cellPut
  by_cases h : b = a
  · subst h
    by_cases hx : x = d
    · simp only [hx, if_true]; exact cellGet_filter_eq d m b
    · simp only [hx, if_false, if_true]
      exact cellGet_ins_eq d _ _ _ (by simp)
  · by_cases hx : x = d
    · simp only [hx, if_true, h, if_false]; exact cellGet_filter_ne d m a b h
    · simp only [hx, if_false, h]
      rw [cellGet_ins_ne d _ _ _ _ h, cellGet_filter_ne d m a b h]

@[simp] theorem cellGet_cellPut_eq [DecidableEq α] (d : α) (m : List (Nat × α)) (a : Nat) (x : α) :
    cellGet d (cellPut d m a x) a = x := by simp [cellGet_cellPut]

theorem cellGet_cellPut_ne [DecidableEq α] (d : α) (m : List (Nat × α)) (a b : Nat) (x : α) (h : b ≠ a) :
    cellGet d (cellPut d m a x) b = cellGet d m b := by simp [cellGet_cellPut, h]

/-- A write leaves every other place alone, whatever the two places read as when nothing is listed. -/
theorem cellGet_cellPut_other [DecidableEq α] (d d' : α) (m : List (Nat × α)) (a b : Nat) (x : α) (h : b ≠ a) :
    cellGet d' (cellPut d m a x) b = cellGet d' m b := by
  unfold cellPut
  by_cases hx : x = d
  · simp only [hx, if_true]; exact cellGet_filter_ne d' m a b h
  · simp only [hx, if_false]
    rw [cellGet_ins_ne d' _ _ _ _ h, cellGet_filter_ne d' m a b h]

/-! ## The canonical form -/

/-- Every address of a list is above `a`. -/
def cellsAbove (a : Nat) (m : List (Nat × α)) : Prop := ∀ e ∈ m, a < e.1

theorem cellsWf_cons [DecidableEq α] (d : α) (k : Nat) (v : α) (m : List (Nat × α)) :
    cellsWf d ((k, v) :: m) = true ↔ v ≠ d ∧ cellsAbove k m ∧ cellsWf d m = true := by
  induction m generalizing k v with
  | nil => simp [cellsWf, cellsAbove]
  | cons e m ih =>
    obtain ⟨k', v'⟩ := e
    constructor
    · intro h
      simp only [cellsWf, Bool.and_eq_true, decide_eq_true_eq] at h
      obtain ⟨⟨h1, h2⟩, h3⟩ := h
      refine ⟨h1, ?_, h3⟩
      intro e he
      rcases List.mem_cons.mp he with rfl | he
      · exact h2
      · exact Nat.lt_trans h2 (((ih k' v').mp h3).2.1 e he)
    · rintro ⟨h1, h2, h3⟩
      simp only [cellsWf, Bool.and_eq_true, decide_eq_true_eq]
      exact ⟨⟨h1, h2 (k', v') (by simp)⟩, h3⟩

theorem cellsWf_filter [DecidableEq α] (d : α) (p : Nat × α → Bool) (m : List (Nat × α)) (h : cellsWf d m = true) :
    cellsWf d (m.filter p) = true := by
  induction m with
  | nil => rfl
  | cons e m ih =>
    obtain ⟨k, v⟩ := e
    obtain ⟨h1, h2, h3⟩ := (cellsWf_cons d k v m).mp h
    by_cases hp : p (k, v) = true
    · rw [List.filter_cons_of_pos hp]
      exact (cellsWf_cons d k v _).mpr ⟨h1, fun e he => h2 e (List.mem_filter.mp he).1, ih h3⟩
    · rw [List.filter_cons_of_neg hp]
      exact ih h3

theorem mem_cellIns (m : List (Nat × α)) (a : Nat) (x : α) (e : Nat × α) (h : e ∈ cellIns m a x) : e = (a, x) ∨ e ∈ m := by
  induction m with
  | nil => simpa [cellIns] using h
  | cons f m ih =>
    obtain ⟨k, v⟩ := f
    by_cases hk : a < k
    · simp only [cellIns, hk, if_true, List.mem_cons] at h
      simpa using h
    · simp only [cellIns, hk, if_false, List.mem_cons] at h
      rcases h with rfl | h
      · simp
      · rcases ih h with rfl | h
        · simp
        · simp [h]

theorem cellsWf_ins [DecidableEq α] (d : α) (m : List (Nat × α)) (a : Nat) (x : α) (hx : x ≠ d) (ha : ∀ e ∈ m, e.1 ≠ a)
    (h : cellsWf d m = true) : cellsWf d (cellIns m a x) = true := by
  induction m with
  | nil => simpa [cellIns, cellsWf] using hx
  | cons e m ih =>
    obtain ⟨k, v⟩ := e
    obtain ⟨h1, h2, h3⟩ := (cellsWf_cons d k v m).mp h
    by_cases hk : a < k
    · simp only [cellIns, hk, if_true]
      refine (cellsWf_cons d a x _).mpr ⟨hx, ?_, h⟩
      intro e he
      rcases List.mem_cons.mp he with rfl | he
      · exact hk
      · exact Nat.lt_trans hk (h2 e he)
    · simp only [cellIns, hk, if_false]
      refine (cellsWf_cons d k v _).mpr ⟨h1, ?_, ih (fun e he => ha e (by simp [he])) h3⟩
      intro e he
      have hka : k ≠ a := ha (k, v) (by simp)
      rcases mem_cellIns m a x e he with rfl | he
      · show k < a; omega
      · exact h2 e he

/-- A write keeps the canonical form. -/
theorem cellsWf_cellPut [DecidableEq α] (d : α) (m : List (Nat × α)) (a : Nat) (x : α) (h : cellsWf d m = true) :
    cellsWf d (cellPut d m a x) = true := by
  unfold cellPut
  by_cases hx : x = d
  · simp only [hx, if_true]; exact cellsWf_filter d _ m h
  · simp only [hx, if_false]
    exact cellsWf_ins d _ a x hx (by simp) (cellsWf_filter d _ m h)

/-- Clearing a range keeps the canonical form. -/
theorem cellsWf_cellClear [DecidableEq α] (d : α) (m : List (Nat × α)) (lo hi : Nat) (h : cellsWf d m = true) :
    cellsWf d (cellClear m lo hi) = true := cellsWf_filter d _ m h

theorem cellsWf_append [DecidableEq α] (d : α) (l m : List (Nat × α)) (hl : cellsWf d l = true) (hm : cellsWf d m = true)
    (h : ∀ e ∈ l, ∀ f ∈ m, e.1 < f.1) : cellsWf d (l ++ m) = true := by
  induction l with
  | nil => simpa using hm
  | cons e l ih =>
    obtain ⟨k, v⟩ := e
    obtain ⟨h1, h2, h3⟩ := (cellsWf_cons d k v l).mp hl
    rw [List.cons_append]
    refine (cellsWf_cons d k v _).mpr ⟨h1, ?_, ih h3 (fun e he => h e (by simp [he]))⟩
    intro e he
    rcases List.mem_append.mp he with he | he
    · exact h2 e he
    · exact h (k, v) (by simp) e he

theorem cellRun_bounds [DecidableEq α] (d : α) (xs : List α) (a : Nat) :
    ∀ e ∈ cellRun d a xs, a ≤ e.1 ∧ e.1 < a + xs.length := by
  induction xs generalizing a with
  | nil => simp [cellRun]
  | cons x xs ih =>
    intro e he
    have step : e ∈ cellRun d (a + 1) xs → a ≤ e.1 ∧ e.1 < a + (x :: xs).length := by
      intro h
      have := ih (a + 1) e h
      simp only [List.length_cons]; omega
    by_cases hx : x = d
    · simp only [cellRun, hx, if_true] at he
      exact step he
    · simp only [cellRun, hx, if_false, List.mem_cons] at he
      rcases he with rfl | he
      · simp
      · exact step he

theorem cellsWf_cellRun [DecidableEq α] (d : α) (xs : List α) (a : Nat) : cellsWf d (cellRun d a xs) = true := by
  induction xs generalizing a with
  | nil => rfl
  | cons x xs ih =>
    by_cases hx : x = d
    · simp only [cellRun, hx, if_true]; exact ih (a + 1)
    · simp only [cellRun, hx, if_false]
      refine (cellsWf_cons d a x _).mpr ⟨hx, fun e he => ?_, ih (a + 1)⟩
      have := cellRun_bounds d xs (a + 1) e he
      omega

/-- Filling a range keeps the canonical form. -/
theorem cellsWf_cellFill [DecidableEq α] (d : α) (m : List (Nat × α)) (a : Nat) (xs : List α) (h : cellsWf d m = true) :
    cellsWf d (cellFill d m a xs) = true := by
  unfold cellFill
  have hlo : ∀ e ∈ m.filter (fun kv => decide (kv.1 < a)), e.1 < a := by
    intro e he; simpa using (List.mem_filter.mp he).2
  have hhi : ∀ e ∈ m.filter (fun kv => decide (a + xs.length ≤ kv.1)), a + xs.length ≤ e.1 := by
    intro e he; simpa using (List.mem_filter.mp he).2
  refine cellsWf_append d _ _ (cellsWf_append d _ _ (cellsWf_filter d _ m h) (cellsWf_cellRun d xs a) ?_)
    (cellsWf_filter d _ m h) ?_
  · intro e he f hf
    have := hlo e he; have := cellRun_bounds d xs a f hf; omega
  · intro e he f hf
    have := hhi f hf
    rcases List.mem_append.mp he with he | he
    · have := hlo e he; omega
    · have := cellRun_bounds d xs a e he; omega

/-! ## Byte memories -/

/-- A store of bytes keeps the canonical form. -/
theorem memory_wf_bytesPut (d : Byte) (bs : List Byte) (m : Bytes) (a : Nat) (h : Memory.wf d m = true) :
    Memory.wf d (bytesPut d m a bs) = true := by
  induction bs generalizing m a with
  | nil => exact h
  | cons b bs ih => exact ih _ _ (cellsWf_cellPut d m a b h)

/-- A byte after a store: the stored byte inside, the old one outside. -/
theorem cellGet_bytesPut (d : Byte) (bs : List Byte) (m : Bytes) (a x : Nat) :
    cellGet d (bytesPut d m a bs) x = if a ≤ x ∧ x < a + bs.length then bs.getD (x - a) d else cellGet d m x := by
  induction bs generalizing m a with
  | nil =>
    rw [bytesPut, if_neg]
    simp only [List.length_nil]; omega
  | cons b bs ih =>
    rw [bytesPut, ih, cellGet_cellPut]
    by_cases h1 : x = a
    · subst h1; simp
    · by_cases h2 : a + 1 ≤ x ∧ x < a + 1 + bs.length
      · have h3 : a ≤ x ∧ x < a + (b :: bs).length := by simp only [List.length_cons]; omega
        obtain ⟨k, hk⟩ : ∃ k, x - a = k + 1 := ⟨x - a - 1, by omega⟩
        have h4 : x - (a + 1) = k := by omega
        rw [if_pos h2, if_pos h3, hk, h4]
        simp
      · have h3 : ¬ (a ≤ x ∧ x < a + (b :: bs).length) := by simp only [List.length_cons]; omega
        rw [if_neg h2, if_neg h3, if_neg h1]

theorem bytesGet_congr (d : Byte) (m m' : Bytes) (a n : Nat) (h : ∀ x, a ≤ x → x < a + n → cellGet d m x = cellGet d m' x) :
    bytesGet d m a n = bytesGet d m' a n := by
  induction n generalizing a with
  | zero => rfl
  | succ n ih =>
    simp only [bytesGet]
    rw [h a (Nat.le_refl a) (by omega), ih (a + 1) (fun x h1 h2 => h x (by omega) (by omega))]

@[simp] theorem length_bytesGet (d : Byte) (m : Bytes) (a n : Nat) : (bytesGet d m a n).length = n := by
  induction n generalizing a with
  | zero => rfl
  | succ n ih => simp [bytesGet, ih]

/-- Bytes outside a store read as before. -/
theorem bytesGet_bytesPut_outside (d : Byte) (bs : List Byte) (m : Bytes) (a x n : Nat) (h : x + n ≤ a ∨ a + bs.length ≤ x) :
    bytesGet d (bytesPut d m a bs) x n = bytesGet d m x n := by
  apply bytesGet_congr
  intro y h1 h2
  rw [cellGet_bytesPut, if_neg (by omega)]

/-- A store read back. -/
theorem bytesGet_bytesPut_self (d : Byte) (bs : List Byte) (m : Bytes) (a : Nat) :
    bytesGet d (bytesPut d m a bs) a bs.length = bs := by
  induction bs generalizing m a with
  | nil => rfl
  | cons b bs ih =>
    simp only [bytesPut, List.length_cons, bytesGet]
    rw [ih, ← bytesPut, cellGet_bytesPut]
    simp

@[simp] theorem length_leBytes (n v : Nat) : (leBytes n v).length = n := by
  induction n generalizing v with
  | zero => rfl
  | succ n ih => simp [leBytes, ih]

theorem leNat_leBytes (n v : Nat) : leNat (leBytes n v) = v % 256 ^ n := by
  induction n generalizing v with
  | zero => simp [leBytes, leNat, Nat.mod_one]
  | succ n ih =>
    simp only [leBytes, leNat, ih, BitVec.toNat_ofNat]
    have h : v % 256 ^ (n + 1) = v % (256 * 256 ^ n) := by rw [Nat.pow_succ, Nat.mul_comm]
    rw [h, Nat.mod_mul]

/-! ## Bit fields -/

theorem bitsOf_lt (v l w : Nat) : bitsOf v l w < 2 ^ w := Nat.mod_lt _ (by positivity)

theorem setBits_eq (v l w x : Nat) :
    setBits v l w x = v / 2 ^ (l + w) * 2 ^ (l + w) + (x % 2 ^ w) * 2 ^ l + v % 2 ^ l := by
  have e : v = v / 2 ^ (l + w) * 2 ^ (l + w) + bitsOf v l w * 2 ^ l + v % 2 ^ l := by
    have h1 : v / 2 ^ l = v / 2 ^ (l + w) * 2 ^ w + bitsOf v l w := by
      rw [bitsOf, Nat.pow_add, ← Nat.div_div_eq_div_mul, Nat.div_add_mod']
    calc v = v / 2 ^ l * 2 ^ l + v % 2 ^ l := (Nat.div_add_mod' v (2 ^ l)).symm
      _ = _ := by rw [h1, Nat.add_mul, Nat.mul_assoc, ← Nat.pow_add, Nat.add_comm w l]
  unfold setBits
  conv_lhs => rw [e]
  have : bitsOf (v / 2 ^ (l + w) * 2 ^ (l + w) + bitsOf v l w * 2 ^ l + v % 2 ^ l) l w = bitsOf v l w := by rw [← e]
  rw [this]
  omega

theorem bitsOf_setBits_same (v l w x : Nat) : bitsOf (setBits v l w x) l w = x % 2 ^ w := by
  rw [setBits_eq, bitsOf]
  have h : (v / 2 ^ (l + w) * 2 ^ (l + w) + x % 2 ^ w * 2 ^ l + v % 2 ^ l) / 2 ^ l
      = v / 2 ^ (l + w) * 2 ^ w + x % 2 ^ w := by
    rw [Nat.pow_add, Nat.mul_comm (2 ^ l) (2 ^ w), ← Nat.mul_assoc, ← Nat.add_mul,
      Nat.add_comm (_ * 2 ^ l), Nat.add_mul_div_right _ _ (by positivity),
      Nat.div_eq_of_lt (Nat.mod_lt _ (by positivity)), Nat.zero_add]
  rw [h, Nat.mul_comm, Nat.mul_add_mod, Nat.mod_mod]

theorem testBit_setBits (v l w x i : Nat) :
    (setBits v l w x).testBit i = if l ≤ i ∧ i < l + w then x.testBit (i - l) else v.testBit i := by
  rw [setBits_eq]
  have e1 : x % 2 ^ w * 2 ^ l + v % 2 ^ l < 2 ^ (l + w) := by
    have h1 : x % 2 ^ w + 1 ≤ 2 ^ w := Nat.mod_lt x (by positivity)
    have h2 : v % 2 ^ l < 2 ^ l := Nat.mod_lt v (by positivity)
    calc x % 2 ^ w * 2 ^ l + v % 2 ^ l < x % 2 ^ w * 2 ^ l + 2 ^ l := by omega
      _ = (x % 2 ^ w + 1) * 2 ^ l := by ring
      _ ≤ 2 ^ w * 2 ^ l := Nat.mul_le_mul_right _ h1
      _ = 2 ^ (l + w) := by rw [← Nat.pow_add, Nat.add_comm]
  rw [Nat.add_assoc, Nat.mul_comm (v / 2 ^ (l + w)), Nat.testBit_two_pow_mul_add _ e1]
  by_cases h : i < l + w
  · rw [if_pos h, Nat.mul_comm (x % 2 ^ w), Nat.testBit_two_pow_mul_add _ (Nat.mod_lt _ (by positivity))]
    by_cases h2 : i < l
    · simp [h2, Nat.testBit_mod_two_pow, Nat.not_le.mpr h2]
    · have h3 : l ≤ i := by omega
      have h4 : i - l < w := by omega
      simp [h2, h3, h, Nat.testBit_mod_two_pow, h4]
  · rw [if_neg h, if_neg (by omega), Nat.testBit_div_two_pow]
    congr 1; omega

theorem testBit_bitsOf (v l w i : Nat) : (bitsOf v l w).testBit i = (decide (i < w) && v.testBit (l + i)) := by
  rw [bitsOf, Nat.testBit_mod_two_pow, Nat.testBit_div_two_pow, Nat.add_comm]

theorem bitsOf_setBits_other (v l w x l' w' : Nat) (h : l' + w' ≤ l ∨ l + w ≤ l') :
    bitsOf (setBits v l w x) l' w' = bitsOf v l' w' := by
  apply Nat.eq_of_testBit_eq
  intro i
  rw [testBit_bitsOf, testBit_bitsOf, testBit_setBits]
  by_cases hi : i < w'
  · rw [if_neg (by omega)]
  · simp [hi]

theorem setBits_lt (v l w x n : Nat) (hv : v < 2 ^ n) (hl : l + w ≤ n) : setBits v l w x < 2 ^ n := by
  apply Nat.lt_pow_two_of_testBit
  intro i hi
  rw [testBit_setBits, if_neg (by omega)]
  exact Nat.testBit_lt_two_pow (Nat.lt_of_lt_of_le hv (Nat.pow_le_pow_right (by norm_num) hi))

end Sys2Proof.Machine
end

