-- ==== Sys2Proof/Laws/State.lean ====
section
/-! SUPPORT. What each update of the state leaves alone: one lemma per field. -/

namespace Sys2Proof.Machine

variable (s : State)


/-! ## State.csrPut -/

@[simp] theorem State.csrPut_shadow (r : RegFam) (u i : Nat) (x : BitVec 64) : (s.csrPut r u i x).shadow = s.shadow := rfl
@[simp] theorem State.csrPut_latch (r : RegFam) (u i : Nat) (x : BitVec 64) : (s.csrPut r u i x).latch = s.latch := rfl
@[simp] theorem State.csrPut_cores (r : RegFam) (u i : Nat) (x : BitVec 64) : (s.csrPut r u i x).cores = s.cores := rfl
@[simp] theorem State.csrPut_dram (r : RegFam) (u i : Nat) (x : BitVec 64) : (s.csrPut r u i x).dram = s.dram := rfl
@[simp] theorem State.csrPut_reqs (r : RegFam) (u i : Nat) (x : BitVec 64) : (s.csrPut r u i x).reqs = s.reqs := rfl
@[simp] theorem State.csrPut_nextTag (r : RegFam) (u i : Nat) (x : BitVec 64) : (s.csrPut r u i x).nextTag = s.nextTag := rfl
@[simp] theorem State.csrPut_gateWait (r : RegFam) (u i : Nat) (x : BitVec 64) : (s.csrPut r u i x).gateWait = s.gateWait := rfl
@[simp] theorem State.csrPut_grants (r : RegFam) (u i : Nat) (x : BitVec 64) : (s.csrPut r u i x).grants = s.grants := rfl
@[simp] theorem State.csrPut_locks (r : RegFam) (u i : Nat) (x : BitVec 64) : (s.csrPut r u i x).locks = s.locks := rfl
@[simp] theorem State.csrPut_deaths (r : RegFam) (u i : Nat) (x : BitVec 64) : (s.csrPut r u i x).deaths = s.deaths := rfl
@[simp] theorem State.csrPut_fab (r : RegFam) (u i : Nat) (x : BitVec 64) : (s.csrPut r u i x).fab = s.fab := rfl
@[simp] theorem State.csrPut_host (r : RegFam) (u i : Nat) (x : BitVec 64) : (s.csrPut r u i x).host = s.host := rfl
@[simp] theorem State.csrPut_cams (r : RegFam) (u i : Nat) (x : BitVec 64) : (s.csrPut r u i x).cams = s.cams := rfl
@[simp] theorem State.csrPut_pipes (r : RegFam) (u i : Nat) (x : BitVec 64) : (s.csrPut r u i x).pipes = s.pipes := rfl
@[simp] theorem State.csrPut_msgs (r : RegFam) (u i : Nat) (x : BitVec 64) : (s.csrPut r u i x).msgs = s.msgs := rfl
@[simp] theorem State.csrPut_events (r : RegFam) (u i : Nat) (x : BitVec 64) : (s.csrPut r u i x).events = s.events := rfl
@[simp] theorem State.csrPut_ledger (r : RegFam) (u i : Nat) (x : BitVec 64) : (s.csrPut r u i x).ledger = s.ledger := rfl
@[simp] theorem State.csrPut_ticks (r : RegFam) (u i : Nat) (x : BitVec 64) : (s.csrPut r u i x).ticks = s.ticks := rfl
@[simp] theorem State.csrPut_mgmt (r : RegFam) (u i : Nat) (x : BitVec 64) : (s.csrPut r u i x).mgmt = s.mgmt := rfl
@[simp] theorem State.csrPut_sec (r : RegFam) (u i : Nat) (x : BitVec 64) : (s.csrPut r u i x).sec = s.sec := rfl
@[simp] theorem State.csrPut_assay (r : RegFam) (u i : Nat) (x : BitVec 64) : (s.csrPut r u i x).assay = s.assay := rfl
@[simp] theorem State.csrPut_flash (r : RegFam) (u i : Nat) (x : BitVec 64) : (s.csrPut r u i x).flash = s.flash := rfl
@[simp] theorem State.csrPut_idle (r : RegFam) (u i : Nat) (x : BitVec 64) : (s.csrPut r u i x).idle = s.idle := rfl
@[simp] theorem State.csrPut_draws (r : RegFam) (u i : Nat) (x : BitVec 64) : (s.csrPut r u i x).draws = s.draws := rfl
@[simp] theorem State.csrPut_outbox (r : RegFam) (u i : Nat) (x : BitVec 64) : (s.csrPut r u i x).outbox = s.outbox := rfl
@[simp] theorem State.csrPut_pending (r : RegFam) (u i : Nat) (x : BitVec 64) : (s.csrPut r u i x).pending = s.pending := rfl

/-! ## State.put -/

@[simp] theorem State.put_shadow (f : Fld) (u i x : Nat) : (s.put f u i x).shadow = s.shadow := rfl
@[simp] theorem State.put_latch (f : Fld) (u i x : Nat) : (s.put f u i x).latch = s.latch := rfl
@[simp] theorem State.put_cores (f : Fld) (u i x : Nat) : (s.put f u i x).cores = s.cores := rfl
@[simp] theorem State.put_dram (f : Fld) (u i x : Nat) : (s.put f u i x).dram = s.dram := rfl
@[simp] theorem State.put_reqs (f : Fld) (u i x : Nat) : (s.put f u i x).reqs = s.reqs := rfl
@[simp] theorem State.put_nextTag (f : Fld) (u i x : Nat) : (s.put f u i x).nextTag = s.nextTag := rfl
@[simp] theorem State.put_gateWait (f : Fld) (u i x : Nat) : (s.put f u i x).gateWait = s.gateWait := rfl
@[simp] theorem State.put_grants (f : Fld) (u i x : Nat) : (s.put f u i x).grants = s.grants := rfl
@[simp] theorem State.put_locks (f : Fld) (u i x : Nat) : (s.put f u i x).locks = s.locks := rfl
@[simp] theorem State.put_deaths (f : Fld) (u i x : Nat) : (s.put f u i x).deaths = s.deaths := rfl
@[simp] theorem State.put_fab (f : Fld) (u i x : Nat) : (s.put f u i x).fab = s.fab := rfl
@[simp] theorem State.put_host (f : Fld) (u i x : Nat) : (s.put f u i x).host = s.host := rfl
@[simp] theorem State.put_cams (f : Fld) (u i x : Nat) : (s.put f u i x).cams = s.cams := rfl
@[simp] theorem State.put_pipes (f : Fld) (u i x : Nat) : (s.put f u i x).pipes = s.pipes := rfl
@[simp] theorem State.put_msgs (f : Fld) (u i x : Nat) : (s.put f u i x).msgs = s.msgs := rfl
@[simp] theorem State.put_events (f : Fld) (u i x : Nat) : (s.put f u i x).events = s.events := rfl
@[simp] theorem State.put_ledger (f : Fld) (u i x : Nat) : (s.put f u i x).ledger = s.ledger := rfl
@[simp] theorem State.put_ticks (f : Fld) (u i x : Nat) : (s.put f u i x).ticks = s.ticks := rfl
@[simp] theorem State.put_mgmt (f : Fld) (u i x : Nat) : (s.put f u i x).mgmt = s.mgmt := rfl
@[simp] theorem State.put_sec (f : Fld) (u i x : Nat) : (s.put f u i x).sec = s.sec := rfl
@[simp] theorem State.put_assay (f : Fld) (u i x : Nat) : (s.put f u i x).assay = s.assay := rfl
@[simp] theorem State.put_flash (f : Fld) (u i x : Nat) : (s.put f u i x).flash = s.flash := rfl
@[simp] theorem State.put_idle (f : Fld) (u i x : Nat) : (s.put f u i x).idle = s.idle := rfl
@[simp] theorem State.put_draws (f : Fld) (u i x : Nat) : (s.put f u i x).draws = s.draws := rfl
@[simp] theorem State.put_outbox (f : Fld) (u i x : Nat) : (s.put f u i x).outbox = s.outbox := rfl
@[simp] theorem State.put_pending (f : Fld) (u i x : Nat) : (s.put f u i x).pending = s.pending := rfl

/-! ## State.bump -/

@[simp] theorem State.bump_shadow (f : Fld) (u i n : Nat) : (s.bump f u i n).shadow = s.shadow := rfl
@[simp] theorem State.bump_latch (f : Fld) (u i n : Nat) : (s.bump f u i n).latch = s.latch := rfl
@[simp] theorem State.bump_cores (f : Fld) (u i n : Nat) : (s.bump f u i n).cores = s.cores := rfl
@[simp] theorem State.bump_dram (f : Fld) (u i n : Nat) : (s.bump f u i n).dram = s.dram := rfl
@[simp] theorem State.bump_reqs (f : Fld) (u i n : Nat) : (s.bump f u i n).reqs = s.reqs := rfl
@[simp] theorem State.bump_nextTag (f : Fld) (u i n : Nat) : (s.bump f u i n).nextTag = s.nextTag := rfl
@[simp] theorem State.bump_gateWait (f : Fld) (u i n : Nat) : (s.bump f u i n).gateWait = s.gateWait := rfl
@[simp] theorem State.bump_grants (f : Fld) (u i n : Nat) : (s.bump f u i n).grants = s.grants := rfl
@[simp] theorem State.bump_locks (f : Fld) (u i n : Nat) : (s.bump f u i n).locks = s.locks := rfl
@[simp] theorem State.bump_deaths (f : Fld) (u i n : Nat) : (s.bump f u i n).deaths = s.deaths := rfl
@[simp] theorem State.bump_fab (f : Fld) (u i n : Nat) : (s.bump f u i n).fab = s.fab := rfl
@[simp] theorem State.bump_host (f : Fld) (u i n : Nat) : (s.bump f u i n).host = s.host := rfl
@[simp] theorem State.bump_cams (f : Fld) (u i n : Nat) : (s.bump f u i n).cams = s.cams := rfl
@[simp] theorem State.bump_pipes (f : Fld) (u i n : Nat) : (s.bump f u i n).pipes = s.pipes := rfl
@[simp] theorem State.bump_msgs (f : Fld) (u i n : Nat) : (s.bump f u i n).msgs = s.msgs := rfl
@[simp] theorem State.bump_events (f : Fld) (u i n : Nat) : (s.bump f u i n).events = s.events := rfl
@[simp] theorem State.bump_ledger (f : Fld) (u i n : Nat) : (s.bump f u i n).ledger = s.ledger := rfl
@[simp] theorem State.bump_ticks (f : Fld) (u i n : Nat) : (s.bump f u i n).ticks = s.ticks := rfl
@[simp] theorem State.bump_mgmt (f : Fld) (u i n : Nat) : (s.bump f u i n).mgmt = s.mgmt := rfl
@[simp] theorem State.bump_sec (f : Fld) (u i n : Nat) : (s.bump f u i n).sec = s.sec := rfl
@[simp] theorem State.bump_assay (f : Fld) (u i n : Nat) : (s.bump f u i n).assay = s.assay := rfl
@[simp] theorem State.bump_flash (f : Fld) (u i n : Nat) : (s.bump f u i n).flash = s.flash := rfl
@[simp] theorem State.bump_idle (f : Fld) (u i n : Nat) : (s.bump f u i n).idle = s.idle := rfl
@[simp] theorem State.bump_draws (f : Fld) (u i n : Nat) : (s.bump f u i n).draws = s.draws := rfl
@[simp] theorem State.bump_outbox (f : Fld) (u i n : Nat) : (s.bump f u i n).outbox = s.outbox := rfl
@[simp] theorem State.bump_pending (f : Fld) (u i n : Nat) : (s.bump f u i n).pending = s.pending := rfl

/-! ## State.setCore -/

@[simp] theorem State.setCore_csr (c : CoreId) (k : Core) : (s.setCore c k).csr = s.csr := rfl
@[simp] theorem State.setCore_shadow (c : CoreId) (k : Core) : (s.setCore c k).shadow = s.shadow := rfl
@[simp] theorem State.setCore_latch (c : CoreId) (k : Core) : (s.setCore c k).latch = s.latch := rfl
@[simp] theorem State.setCore_mirror (c : CoreId) (k : Core) : (s.setCore c k).mirror = s.mirror := rfl
@[simp] theorem State.setCore_dram (c : CoreId) (k : Core) : (s.setCore c k).dram = s.dram := rfl
@[simp] theorem State.setCore_reqs (c : CoreId) (k : Core) : (s.setCore c k).reqs = s.reqs := rfl
@[simp] theorem State.setCore_nextTag (c : CoreId) (k : Core) : (s.setCore c k).nextTag = s.nextTag := rfl
@[simp] theorem State.setCore_gateWait (c : CoreId) (k : Core) : (s.setCore c k).gateWait = s.gateWait := rfl
@[simp] theorem State.setCore_grants (c : CoreId) (k : Core) : (s.setCore c k).grants = s.grants := rfl
@[simp] theorem State.setCore_locks (c : CoreId) (k : Core) : (s.setCore c k).locks = s.locks := rfl
@[simp] theorem State.setCore_deaths (c : CoreId) (k : Core) : (s.setCore c k).deaths = s.deaths := rfl
@[simp] theorem State.setCore_fab (c : CoreId) (k : Core) : (s.setCore c k).fab = s.fab := rfl
@[simp] theorem State.setCore_host (c : CoreId) (k : Core) : (s.setCore c k).host = s.host := rfl
@[simp] theorem State.setCore_cams (c : CoreId) (k : Core) : (s.setCore c k).cams = s.cams := rfl
@[simp] theorem State.setCore_pipes (c : CoreId) (k : Core) : (s.setCore c k).pipes = s.pipes := rfl
@[simp] theorem State.setCore_msgs (c : CoreId) (k : Core) : (s.setCore c k).msgs = s.msgs := rfl
@[simp] theorem State.setCore_events (c : CoreId) (k : Core) : (s.setCore c k).events = s.events := rfl
@[simp] theorem State.setCore_ledger (c : CoreId) (k : Core) : (s.setCore c k).ledger = s.ledger := rfl
@[simp] theorem State.setCore_ticks (c : CoreId) (k : Core) : (s.setCore c k).ticks = s.ticks := rfl
@[simp] theorem State.setCore_mgmt (c : CoreId) (k : Core) : (s.setCore c k).mgmt = s.mgmt := rfl
@[simp] theorem State.setCore_sec (c : CoreId) (k : Core) : (s.setCore c k).sec = s.sec := rfl
@[simp] theorem State.setCore_assay (c : CoreId) (k : Core) : (s.setCore c k).assay = s.assay := rfl
@[simp] theorem State.setCore_flash (c : CoreId) (k : Core) : (s.setCore c k).flash = s.flash := rfl
@[simp] theorem State.setCore_idle (c : CoreId) (k : Core) : (s.setCore c k).idle = s.idle := rfl
@[simp] theorem State.setCore_draws (c : CoreId) (k : Core) : (s.setCore c k).draws = s.draws := rfl
@[simp] theorem State.setCore_outbox (c : CoreId) (k : Core) : (s.setCore c k).outbox = s.outbox := rfl
@[simp] theorem State.setCore_pending (c : CoreId) (k : Core) : (s.setCore c k).pending = s.pending := rfl

/-! ## State.modSeq -/

@[simp] theorem State.modSeq_csr (c : CoreId) (g : Seq → Seq) : (s.modSeq c g).csr = s.csr := rfl
@[simp] theorem State.modSeq_shadow (c : CoreId) (g : Seq → Seq) : (s.modSeq c g).shadow = s.shadow := rfl
@[simp] theorem State.modSeq_latch (c : CoreId) (g : Seq → Seq) : (s.modSeq c g).latch = s.latch := rfl
@[simp] theorem State.modSeq_mirror (c : CoreId) (g : Seq → Seq) : (s.modSeq c g).mirror = s.mirror := rfl
@[simp] theorem State.modSeq_dram (c : CoreId) (g : Seq → Seq) : (s.modSeq c g).dram = s.dram := rfl
@[simp] theorem State.modSeq_reqs (c : CoreId) (g : Seq → Seq) : (s.modSeq c g).reqs = s.reqs := rfl
@[simp] theorem State.modSeq_nextTag (c : CoreId) (g : Seq → Seq) : (s.modSeq c g).nextTag = s.nextTag := rfl
@[simp] theorem State.modSeq_gateWait (c : CoreId) (g : Seq → Seq) : (s.modSeq c g).gateWait = s.gateWait := rfl
@[simp] theorem State.modSeq_grants (c : CoreId) (g : Seq → Seq) : (s.modSeq c g).grants = s.grants := rfl
@[simp] theorem State.modSeq_locks (c : CoreId) (g : Seq → Seq) : (s.modSeq c g).locks = s.locks := rfl
@[simp] theorem State.modSeq_deaths (c : CoreId) (g : Seq → Seq) : (s.modSeq c g).deaths = s.deaths := rfl
@[simp] theorem State.modSeq_fab (c : CoreId) (g : Seq → Seq) : (s.modSeq c g).fab = s.fab := rfl
@[simp] theorem State.modSeq_host (c : CoreId) (g : Seq → Seq) : (s.modSeq c g).host = s.host := rfl
@[simp] theorem State.modSeq_cams (c : CoreId) (g : Seq → Seq) : (s.modSeq c g).cams = s.cams := rfl
@[simp] theorem State.modSeq_pipes (c : CoreId) (g : Seq → Seq) : (s.modSeq c g).pipes = s.pipes := rfl
@[simp] theorem State.modSeq_msgs (c : CoreId) (g : Seq → Seq) : (s.modSeq c g).msgs = s.msgs := rfl
@[simp] theorem State.modSeq_events (c : CoreId) (g : Seq → Seq) : (s.modSeq c g).events = s.events := rfl
@[simp] theorem State.modSeq_ledger (c : CoreId) (g : Seq → Seq) : (s.modSeq c g).ledger = s.ledger := rfl
@[simp] theorem State.modSeq_ticks (c : CoreId) (g : Seq → Seq) : (s.modSeq c g).ticks = s.ticks := rfl
@[simp] theorem State.modSeq_mgmt (c : CoreId) (g : Seq → Seq) : (s.modSeq c g).mgmt = s.mgmt := rfl
@[simp] theorem State.modSeq_sec (c : CoreId) (g : Seq → Seq) : (s.modSeq c g).sec = s.sec := rfl
@[simp] theorem State.modSeq_assay (c : CoreId) (g : Seq → Seq) : (s.modSeq c g).assay = s.assay := rfl
@[simp] theorem State.modSeq_flash (c : CoreId) (g : Seq → Seq) : (s.modSeq c g).flash = s.flash := rfl
@[simp] theorem State.modSeq_idle (c : CoreId) (g : Seq → Seq) : (s.modSeq c g).idle = s.idle := rfl
@[simp] theorem State.modSeq_draws (c : CoreId) (g : Seq → Seq) : (s.modSeq c g).draws = s.draws := rfl
@[simp] theorem State.modSeq_outbox (c : CoreId) (g : Seq → Seq) : (s.modSeq c g).outbox = s.outbox := rfl
@[simp] theorem State.modSeq_pending (c : CoreId) (g : Seq → Seq) : (s.modSeq c g).pending = s.pending := rfl

/-! ## State.modVec -/

@[simp] theorem State.modVec_csr (c : CoreId) (g : Vec → Vec) : (s.modVec c g).csr = s.csr := rfl
@[simp] theorem State.modVec_shadow (c : CoreId) (g : Vec → Vec) : (s.modVec c g).shadow = s.shadow := rfl
@[simp] theorem State.modVec_latch (c : CoreId) (g : Vec → Vec) : (s.modVec c g).latch = s.latch := rfl
@[simp] theorem State.modVec_mirror (c : CoreId) (g : Vec → Vec) : (s.modVec c g).mirror = s.mirror := rfl
@[simp] theorem State.modVec_dram (c : CoreId) (g : Vec → Vec) : (s.modVec c g).dram = s.dram := rfl
@[simp] theorem State.modVec_reqs (c : CoreId) (g : Vec → Vec) : (s.modVec c g).reqs = s.reqs := rfl
@[simp] theorem State.modVec_nextTag (c : CoreId) (g : Vec → Vec) : (s.modVec c g).nextTag = s.nextTag := rfl
@[simp] theorem State.modVec_gateWait (c : CoreId) (g : Vec → Vec) : (s.modVec c g).gateWait = s.gateWait := rfl
@[simp] theorem State.modVec_grants (c : CoreId) (g : Vec → Vec) : (s.modVec c g).grants = s.grants := rfl
@[simp] theorem State.modVec_locks (c : CoreId) (g : Vec → Vec) : (s.modVec c g).locks = s.locks := rfl
@[simp] theorem State.modVec_deaths (c : CoreId) (g : Vec → Vec) : (s.modVec c g).deaths = s.deaths := rfl
@[simp] theorem State.modVec_fab (c : CoreId) (g : Vec → Vec) : (s.modVec c g).fab = s.fab := rfl
@[simp] theorem State.modVec_host (c : CoreId) (g : Vec → Vec) : (s.modVec c g).host = s.host := rfl
@[simp] theorem State.modVec_cams (c : CoreId) (g : Vec → Vec) : (s.modVec c g).cams = s.cams := rfl
@[simp] theorem State.modVec_pipes (c : CoreId) (g : Vec → Vec) : (s.modVec c g).pipes = s.pipes := rfl
@[simp] theorem State.modVec_msgs (c : CoreId) (g : Vec → Vec) : (s.modVec c g).msgs = s.msgs := rfl
@[simp] theorem State.modVec_events (c : CoreId) (g : Vec → Vec) : (s.modVec c g).events = s.events := rfl
@[simp] theorem State.modVec_ledger (c : CoreId) (g : Vec → Vec) : (s.modVec c g).ledger = s.ledger := rfl
@[simp] theorem State.modVec_ticks (c : CoreId) (g : Vec → Vec) : (s.modVec c g).ticks = s.ticks := rfl
@[simp] theorem State.modVec_mgmt (c : CoreId) (g : Vec → Vec) : (s.modVec c g).mgmt = s.mgmt := rfl
@[simp] theorem State.modVec_sec (c : CoreId) (g : Vec → Vec) : (s.modVec c g).sec = s.sec := rfl
@[simp] theorem State.modVec_assay (c : CoreId) (g : Vec → Vec) : (s.modVec c g).assay = s.assay := rfl
@[simp] theorem State.modVec_flash (c : CoreId) (g : Vec → Vec) : (s.modVec c g).flash = s.flash := rfl
@[simp] theorem State.modVec_idle (c : CoreId) (g : Vec → Vec) : (s.modVec c g).idle = s.idle := rfl
@[simp] theorem State.modVec_draws (c : CoreId) (g : Vec → Vec) : (s.modVec c g).draws = s.draws := rfl
@[simp] theorem State.modVec_outbox (c : CoreId) (g : Vec → Vec) : (s.modVec c g).outbox = s.outbox := rfl
@[simp] theorem State.modVec_pending (c : CoreId) (g : Vec → Vec) : (s.modVec c g).pending = s.pending := rfl

/-! ## State.modGran -/

@[simp] theorem State.modGran_csr (c : CoreId) (g : Gran → Gran) : (s.modGran c g).csr = s.csr := rfl
@[simp] theorem State.modGran_shadow (c : CoreId) (g : Gran → Gran) : (s.modGran c g).shadow = s.shadow := rfl
@[simp] theorem State.modGran_latch (c : CoreId) (g : Gran → Gran) : (s.modGran c g).latch = s.latch := rfl
@[simp] theorem State.modGran_mirror (c : CoreId) (g : Gran → Gran) : (s.modGran c g).mirror = s.mirror := rfl
@[simp] theorem State.modGran_dram (c : CoreId) (g : Gran → Gran) : (s.modGran c g).dram = s.dram := rfl
@[simp] theorem State.modGran_reqs (c : CoreId) (g : Gran → Gran) : (s.modGran c g).reqs = s.reqs := rfl
@[simp] theorem State.modGran_nextTag (c : CoreId) (g : Gran → Gran) : (s.modGran c g).nextTag = s.nextTag := rfl
@[simp] theorem State.modGran_gateWait (c : CoreId) (g : Gran → Gran) : (s.modGran c g).gateWait = s.gateWait := rfl
@[simp] theorem State.modGran_grants (c : CoreId) (g : Gran → Gran) : (s.modGran c g).grants = s.grants := rfl
@[simp] theorem State.modGran_locks (c : CoreId) (g : Gran → Gran) : (s.modGran c g).locks = s.locks := rfl
@[simp] theorem State.modGran_deaths (c : CoreId) (g : Gran → Gran) : (s.modGran c g).deaths = s.deaths := rfl
@[simp] theorem State.modGran_fab (c : CoreId) (g : Gran → Gran) : (s.modGran c g).fab = s.fab := rfl
@[simp] theorem State.modGran_host (c : CoreId) (g : Gran → Gran) : (s.modGran c g).host = s.host := rfl
@[simp] theorem State.modGran_cams (c : CoreId) (g : Gran → Gran) : (s.modGran c g).cams = s.cams := rfl
@[simp] theorem State.modGran_pipes (c : CoreId) (g : Gran → Gran) : (s.modGran c g).pipes = s.pipes := rfl
@[simp] theorem State.modGran_msgs (c : CoreId) (g : Gran → Gran) : (s.modGran c g).msgs = s.msgs := rfl
@[simp] theorem State.modGran_events (c : CoreId) (g : Gran → Gran) : (s.modGran c g).events = s.events := rfl
@[simp] theorem State.modGran_ledger (c : CoreId) (g : Gran → Gran) : (s.modGran c g).ledger = s.ledger := rfl
@[simp] theorem State.modGran_ticks (c : CoreId) (g : Gran → Gran) : (s.modGran c g).ticks = s.ticks := rfl
@[simp] theorem State.modGran_mgmt (c : CoreId) (g : Gran → Gran) : (s.modGran c g).mgmt = s.mgmt := rfl
@[simp] theorem State.modGran_sec (c : CoreId) (g : Gran → Gran) : (s.modGran c g).sec = s.sec := rfl
@[simp] theorem State.modGran_assay (c : CoreId) (g : Gran → Gran) : (s.modGran c g).assay = s.assay := rfl
@[simp] theorem State.modGran_flash (c : CoreId) (g : Gran → Gran) : (s.modGran c g).flash = s.flash := rfl
@[simp] theorem State.modGran_idle (c : CoreId) (g : Gran → Gran) : (s.modGran c g).idle = s.idle := rfl
@[simp] theorem State.modGran_draws (c : CoreId) (g : Gran → Gran) : (s.modGran c g).draws = s.draws := rfl
@[simp] theorem State.modGran_outbox (c : CoreId) (g : Gran → Gran) : (s.modGran c g).outbox = s.outbox := rfl
@[simp] theorem State.modGran_pending (c : CoreId) (g : Gran → Gran) : (s.modGran c g).pending = s.pending := rfl

/-! ## State.modLoom -/

@[simp] theorem State.modLoom_csr (c : CoreId) (g : Loom → Loom) : (s.modLoom c g).csr = s.csr := rfl
@[simp] theorem State.modLoom_shadow (c : CoreId) (g : Loom → Loom) : (s.modLoom c g).shadow = s.shadow := rfl
@[simp] theorem State.modLoom_latch (c : CoreId) (g : Loom → Loom) : (s.modLoom c g).latch = s.latch := rfl
@[simp] theorem State.modLoom_mirror (c : CoreId) (g : Loom → Loom) : (s.modLoom c g).mirror = s.mirror := rfl
@[simp] theorem State.modLoom_dram (c : CoreId) (g : Loom → Loom) : (s.modLoom c g).dram = s.dram := rfl
@[simp] theorem State.modLoom_reqs (c : CoreId) (g : Loom → Loom) : (s.modLoom c g).reqs = s.reqs := rfl
@[simp] theorem State.modLoom_nextTag (c : CoreId) (g : Loom → Loom) : (s.modLoom c g).nextTag = s.nextTag := rfl
@[simp] theorem State.modLoom_gateWait (c : CoreId) (g : Loom → Loom) : (s.modLoom c g).gateWait = s.gateWait := rfl
@[simp] theorem State.modLoom_grants (c : CoreId) (g : Loom → Loom) : (s.modLoom c g).grants = s.grants := rfl
@[simp] theorem State.modLoom_locks (c : CoreId) (g : Loom → Loom) : (s.modLoom c g).locks = s.locks := rfl
@[simp] theorem State.modLoom_deaths (c : CoreId) (g : Loom → Loom) : (s.modLoom c g).deaths = s.deaths := rfl
@[simp] theorem State.modLoom_fab (c : CoreId) (g : Loom → Loom) : (s.modLoom c g).fab = s.fab := rfl
@[simp] theorem State.modLoom_host (c : CoreId) (g : Loom → Loom) : (s.modLoom c g).host = s.host := rfl
@[simp] theorem State.modLoom_cams (c : CoreId) (g : Loom → Loom) : (s.modLoom c g).cams = s.cams := rfl
@[simp] theorem State.modLoom_pipes (c : CoreId) (g : Loom → Loom) : (s.modLoom c g).pipes = s.pipes := rfl
@[simp] theorem State.modLoom_msgs (c : CoreId) (g : Loom → Loom) : (s.modLoom c g).msgs = s.msgs := rfl
@[simp] theorem State.modLoom_events (c : CoreId) (g : Loom → Loom) : (s.modLoom c g).events = s.events := rfl
@[simp] theorem State.modLoom_ledger (c : CoreId) (g : Loom → Loom) : (s.modLoom c g).ledger = s.ledger := rfl
@[simp] theorem State.modLoom_ticks (c : CoreId) (g : Loom → Loom) : (s.modLoom c g).ticks = s.ticks := rfl
@[simp] theorem State.modLoom_mgmt (c : CoreId) (g : Loom → Loom) : (s.modLoom c g).mgmt = s.mgmt := rfl
@[simp] theorem State.modLoom_sec (c : CoreId) (g : Loom → Loom) : (s.modLoom c g).sec = s.sec := rfl
@[simp] theorem State.modLoom_assay (c : CoreId) (g : Loom → Loom) : (s.modLoom c g).assay = s.assay := rfl
@[simp] theorem State.modLoom_flash (c : CoreId) (g : Loom → Loom) : (s.modLoom c g).flash = s.flash := rfl
@[simp] theorem State.modLoom_idle (c : CoreId) (g : Loom → Loom) : (s.modLoom c g).idle = s.idle := rfl
@[simp] theorem State.modLoom_draws (c : CoreId) (g : Loom → Loom) : (s.modLoom c g).draws = s.draws := rfl
@[simp] theorem State.modLoom_outbox (c : CoreId) (g : Loom → Loom) : (s.modLoom c g).outbox = s.outbox := rfl
@[simp] theorem State.modLoom_pending (c : CoreId) (g : Loom → Loom) : (s.modLoom c g).pending = s.pending := rfl

/-! ## State.modCarter -/

@[simp] theorem State.modCarter_csr (c : CoreId) (g : Carter → Carter) : (s.modCarter c g).csr = s.csr := rfl
@[simp] theorem State.modCarter_shadow (c : CoreId) (g : Carter → Carter) : (s.modCarter c g).shadow = s.shadow := rfl
@[simp] theorem State.modCarter_latch (c : CoreId) (g : Carter → Carter) : (s.modCarter c g).latch = s.latch := rfl
@[simp] theorem State.modCarter_mirror (c : CoreId) (g : Carter → Carter) : (s.modCarter c g).mirror = s.mirror := rfl
@[simp] theorem State.modCarter_dram (c : CoreId) (g : Carter → Carter) : (s.modCarter c g).dram = s.dram := rfl
@[simp] theorem State.modCarter_reqs (c : CoreId) (g : Carter → Carter) : (s.modCarter c g).reqs = s.reqs := rfl
@[simp] theorem State.modCarter_nextTag (c : CoreId) (g : Carter → Carter) : (s.modCarter c g).nextTag = s.nextTag := rfl
@[simp] theorem State.modCarter_gateWait (c : CoreId) (g : Carter → Carter) : (s.modCarter c g).gateWait = s.gateWait := rfl
@[simp] theorem State.modCarter_grants (c : CoreId) (g : Carter → Carter) : (s.modCarter c g).grants = s.grants := rfl
@[simp] theorem State.modCarter_locks (c : CoreId) (g : Carter → Carter) : (s.modCarter c g).locks = s.locks := rfl
@[simp] theorem State.modCarter_deaths (c : CoreId) (g : Carter → Carter) : (s.modCarter c g).deaths = s.deaths := rfl
@[simp] theorem State.modCarter_fab (c : CoreId) (g : Carter → Carter) : (s.modCarter c g).fab = s.fab := rfl
@[simp] theorem State.modCarter_host (c : CoreId) (g : Carter → Carter) : (s.modCarter c g).host = s.host := rfl
@[simp] theorem State.modCarter_cams (c : CoreId) (g : Carter → Carter) : (s.modCarter c g).cams = s.cams := rfl
@[simp] theorem State.modCarter_pipes (c : CoreId) (g : Carter → Carter) : (s.modCarter c g).pipes = s.pipes := rfl
@[simp] theorem State.modCarter_msgs (c : CoreId) (g : Carter → Carter) : (s.modCarter c g).msgs = s.msgs := rfl
@[simp] theorem State.modCarter_events (c : CoreId) (g : Carter → Carter) : (s.modCarter c g).events = s.events := rfl
@[simp] theorem State.modCarter_ledger (c : CoreId) (g : Carter → Carter) : (s.modCarter c g).ledger = s.ledger := rfl
@[simp] theorem State.modCarter_ticks (c : CoreId) (g : Carter → Carter) : (s.modCarter c g).ticks = s.ticks := rfl
@[simp] theorem State.modCarter_mgmt (c : CoreId) (g : Carter → Carter) : (s.modCarter c g).mgmt = s.mgmt := rfl
@[simp] theorem State.modCarter_sec (c : CoreId) (g : Carter → Carter) : (s.modCarter c g).sec = s.sec := rfl
@[simp] theorem State.modCarter_assay (c : CoreId) (g : Carter → Carter) : (s.modCarter c g).assay = s.assay := rfl
@[simp] theorem State.modCarter_flash (c : CoreId) (g : Carter → Carter) : (s.modCarter c g).flash = s.flash := rfl
@[simp] theorem State.modCarter_idle (c : CoreId) (g : Carter → Carter) : (s.modCarter c g).idle = s.idle := rfl
@[simp] theorem State.modCarter_draws (c : CoreId) (g : Carter → Carter) : (s.modCarter c g).draws = s.draws := rfl
@[simp] theorem State.modCarter_outbox (c : CoreId) (g : Carter → Carter) : (s.modCarter c g).outbox = s.outbox := rfl
@[simp] theorem State.modCarter_pending (c : CoreId) (g : Carter → Carter) : (s.modCarter c g).pending = s.pending := rfl

/-! ## State.modTask -/

@[simp] theorem State.modTask_csr (c : CoreId) (t : TaskId) (g : Task → Task) : (s.modTask c t g).csr = s.csr := rfl
@[simp] theorem State.modTask_shadow (c : CoreId) (t : TaskId) (g : Task → Task) : (s.modTask c t g).shadow = s.shadow := rfl
@[simp] theorem State.modTask_latch (c : CoreId) (t : TaskId) (g : Task → Task) : (s.modTask c t g).latch = s.latch := rfl
@[simp] theorem State.modTask_mirror (c : CoreId) (t : TaskId) (g : Task → Task) : (s.modTask c t g).mirror = s.mirror := rfl
@[simp] theorem State.modTask_dram (c : CoreId) (t : TaskId) (g : Task → Task) : (s.modTask c t g).dram = s.dram := rfl
@[simp] theorem State.modTask_reqs (c : CoreId) (t : TaskId) (g : Task → Task) : (s.modTask c t g).reqs = s.reqs := rfl
@[simp] theorem State.modTask_nextTag (c : CoreId) (t : TaskId) (g : Task → Task) : (s.modTask c t g).nextTag = s.nextTag := rfl
@[simp] theorem State.modTask_gateWait (c : CoreId) (t : TaskId) (g : Task → Task) : (s.modTask c t g).gateWait = s.gateWait := rfl
@[simp] theorem State.modTask_grants (c : CoreId) (t : TaskId) (g : Task → Task) : (s.modTask c t g).grants = s.grants := rfl
@[simp] theorem State.modTask_locks (c : CoreId) (t : TaskId) (g : Task → Task) : (s.modTask c t g).locks = s.locks := rfl
@[simp] theorem State.modTask_deaths (c : CoreId) (t : TaskId) (g : Task → Task) : (s.modTask c t g).deaths = s.deaths := rfl
@[simp] theorem State.modTask_fab (c : CoreId) (t : TaskId) (g : Task → Task) : (s.modTask c t g).fab = s.fab := rfl
@[simp] theorem State.modTask_host (c : CoreId) (t : TaskId) (g : Task → Task) : (s.modTask c t g).host = s.host := rfl
@[simp] theorem State.modTask_cams (c : CoreId) (t : TaskId) (g : Task → Task) : (s.modTask c t g).cams = s.cams := rfl
@[simp] theorem State.modTask_pipes (c : CoreId) (t : TaskId) (g : Task → Task) : (s.modTask c t g).pipes = s.pipes := rfl
@[simp] theorem State.modTask_msgs (c : CoreId) (t : TaskId) (g : Task → Task) : (s.modTask c t g).msgs = s.msgs := rfl
@[simp] theorem State.modTask_events (c : CoreId) (t : TaskId) (g : Task → Task) : (s.modTask c t g).events = s.events := rfl
@[simp] theorem State.modTask_ledger (c : CoreId) (t : TaskId) (g : Task → Task) : (s.modTask c t g).ledger = s.ledger := rfl
@[simp] theorem State.modTask_ticks (c : CoreId) (t : TaskId) (g : Task → Task) : (s.modTask c t g).ticks = s.ticks := rfl
@[simp] theorem State.modTask_mgmt (c : CoreId) (t : TaskId) (g : Task → Task) : (s.modTask c t g).mgmt = s.mgmt := rfl
@[simp] theorem State.modTask_sec (c : CoreId) (t : TaskId) (g : Task → Task) : (s.modTask c t g).sec = s.sec := rfl
@[simp] theorem State.modTask_assay (c : CoreId) (t : TaskId) (g : Task → Task) : (s.modTask c t g).assay = s.assay := rfl
@[simp] theorem State.modTask_flash (c : CoreId) (t : TaskId) (g : Task → Task) : (s.modTask c t g).flash = s.flash := rfl
@[simp] theorem State.modTask_idle (c : CoreId) (t : TaskId) (g : Task → Task) : (s.modTask c t g).idle = s.idle := rfl
@[simp] theorem State.modTask_draws (c : CoreId) (t : TaskId) (g : Task → Task) : (s.modTask c t g).draws = s.draws := rfl
@[simp] theorem State.modTask_outbox (c : CoreId) (t : TaskId) (g : Task → Task) : (s.modTask c t g).outbox = s.outbox := rfl
@[simp] theorem State.modTask_pending (c : CoreId) (t : TaskId) (g : Task → Task) : (s.modTask c t g).pending = s.pending := rfl

/-! ## State.raise -/

@[simp] theorem State.raise_csr (code block unit dom input : Nat) (args : List Nat) : (s.raise code block unit dom input args).csr = s.csr := rfl
@[simp] theorem State.raise_shadow (code block unit dom input : Nat) (args : List Nat) : (s.raise code block unit dom input args).shadow = s.shadow := rfl
@[simp] theorem State.raise_latch (code block unit dom input : Nat) (args : List Nat) : (s.raise code block unit dom input args).latch = s.latch := rfl
@[simp] theorem State.raise_mirror (code block unit dom input : Nat) (args : List Nat) : (s.raise code block unit dom input args).mirror = s.mirror := rfl
@[simp] theorem State.raise_cores (code block unit dom input : Nat) (args : List Nat) : (s.raise code block unit dom input args).cores = s.cores := rfl
@[simp] theorem State.raise_dram (code block unit dom input : Nat) (args : List Nat) : (s.raise code block unit dom input args).dram = s.dram := rfl
@[simp] theorem State.raise_reqs (code block unit dom input : Nat) (args : List Nat) : (s.raise code block unit dom input args).reqs = s.reqs := rfl
@[simp] theorem State.raise_nextTag (code block unit dom input : Nat) (args : List Nat) : (s.raise code block unit dom input args).nextTag = s.nextTag := rfl
@[simp] theorem State.raise_gateWait (code block unit dom input : Nat) (args : List Nat) : (s.raise code block unit dom input args).gateWait = s.gateWait := rfl
@[simp] theorem State.raise_grants (code block unit dom input : Nat) (args : List Nat) : (s.raise code block unit dom input args).grants = s.grants := rfl
@[simp] theorem State.raise_locks (code block unit dom input : Nat) (args : List Nat) : (s.raise code block unit dom input args).locks = s.locks := rfl
@[simp] theorem State.raise_deaths (code block unit dom input : Nat) (args : List Nat) : (s.raise code block unit dom input args).deaths = s.deaths := rfl
@[simp] theorem State.raise_fab (code block unit dom input : Nat) (args : List Nat) : (s.raise code block unit dom input args).fab = s.fab := rfl
@[simp] theorem State.raise_host (code block unit dom input : Nat) (args : List Nat) : (s.raise code block unit dom input args).host = s.host := rfl
@[simp] theorem State.raise_cams (code block unit dom input : Nat) (args : List Nat) : (s.raise code block unit dom input args).cams = s.cams := rfl
@[simp] theorem State.raise_pipes (code block unit dom input : Nat) (args : List Nat) : (s.raise code block unit dom input args).pipes = s.pipes := rfl
@[simp] theorem State.raise_msgs (code block unit dom input : Nat) (args : List Nat) : (s.raise code block unit dom input args).msgs = s.msgs := rfl
@[simp] theorem State.raise_ledger (code block unit dom input : Nat) (args : List Nat) : (s.raise code block unit dom input args).ledger = s.ledger := rfl
@[simp] theorem State.raise_ticks (code block unit dom input : Nat) (args : List Nat) : (s.raise code block unit dom input args).ticks = s.ticks := rfl
@[simp] theorem State.raise_mgmt (code block unit dom input : Nat) (args : List Nat) : (s.raise code block unit dom input args).mgmt = s.mgmt := rfl
@[simp] theorem State.raise_sec (code block unit dom input : Nat) (args : List Nat) : (s.raise code block unit dom input args).sec = s.sec := rfl
@[simp] theorem State.raise_assay (code block unit dom input : Nat) (args : List Nat) : (s.raise code block unit dom input args).assay = s.assay := rfl
@[simp] theorem State.raise_flash (code block unit dom input : Nat) (args : List Nat) : (s.raise code block unit dom input args).flash = s.flash := rfl
@[simp] theorem State.raise_idle (code block unit dom input : Nat) (args : List Nat) : (s.raise code block unit dom input args).idle = s.idle := rfl
@[simp] theorem State.raise_draws (code block unit dom input : Nat) (args : List Nat) : (s.raise code block unit dom input args).draws = s.draws := rfl
@[simp] theorem State.raise_outbox (code block unit dom input : Nat) (args : List Nat) : (s.raise code block unit dom input args).outbox = s.outbox := rfl
@[simp] theorem State.raise_pending (code block unit dom input : Nat) (args : List Nat) : (s.raise code block unit dom input args).pending = s.pending := rfl

/-! ## State.coreEvent -/

@[simp] theorem State.coreEvent_csr (c : CoreId) (code : Nat) (args : List Nat) : (s.coreEvent c code args).csr = s.csr := rfl
@[simp] theorem State.coreEvent_shadow (c : CoreId) (code : Nat) (args : List Nat) : (s.coreEvent c code args).shadow = s.shadow := rfl
@[simp] theorem State.coreEvent_latch (c : CoreId) (code : Nat) (args : List Nat) : (s.coreEvent c code args).latch = s.latch := rfl
@[simp] theorem State.coreEvent_mirror (c : CoreId) (code : Nat) (args : List Nat) : (s.coreEvent c code args).mirror = s.mirror := rfl
@[simp] theorem State.coreEvent_cores (c : CoreId) (code : Nat) (args : List Nat) : (s.coreEvent c code args).cores = s.cores := rfl
@[simp] theorem State.coreEvent_dram (c : CoreId) (code : Nat) (args : List Nat) : (s.coreEvent c code args).dram = s.dram := rfl
@[simp] theorem State.coreEvent_reqs (c : CoreId) (code : Nat) (args : List Nat) : (s.coreEvent c code args).reqs = s.reqs := rfl
@[simp] theorem State.coreEvent_nextTag (c : CoreId) (code : Nat) (args : List Nat) : (s.coreEvent c code args).nextTag = s.nextTag := rfl
@[simp] theorem State.coreEvent_gateWait (c : CoreId) (code : Nat) (args : List Nat) : (s.coreEvent c code args).gateWait = s.gateWait := rfl
@[simp] theorem State.coreEvent_grants (c : CoreId) (code : Nat) (args : List Nat) : (s.coreEvent c code args).grants = s.grants := rfl
@[simp] theorem State.coreEvent_locks (c : CoreId) (code : Nat) (args : List Nat) : (s.coreEvent c code args).locks = s.locks := rfl
@[simp] theorem State.coreEvent_deaths (c : CoreId) (code : Nat) (args : List Nat) : (s.coreEvent c code args).deaths = s.deaths := rfl
@[simp] theorem State.coreEvent_fab (c : CoreId) (code : Nat) (args : List Nat) : (s.coreEvent c code args).fab = s.fab := rfl
@[simp] theorem State.coreEvent_host (c : CoreId) (code : Nat) (args : List Nat) : (s.coreEvent c code args).host = s.host := rfl
@[simp] theorem State.coreEvent_cams (c : CoreId) (code : Nat) (args : List Nat) : (s.coreEvent c code args).cams = s.cams := rfl
@[simp] theorem State.coreEvent_pipes (c : CoreId) (code : Nat) (args : List Nat) : (s.coreEvent c code args).pipes = s.pipes := rfl
@[simp] theorem State.coreEvent_msgs (c : CoreId) (code : Nat) (args : List Nat) : (s.coreEvent c code args).msgs = s.msgs := rfl
@[simp] theorem State.coreEvent_ledger (c : CoreId) (code : Nat) (args : List Nat) : (s.coreEvent c code args).ledger = s.ledger := rfl
@[simp] theorem State.coreEvent_ticks (c : CoreId) (code : Nat) (args : List Nat) : (s.coreEvent c code args).ticks = s.ticks := rfl
@[simp] theorem State.coreEvent_mgmt (c : CoreId) (code : Nat) (args : List Nat) : (s.coreEvent c code args).mgmt = s.mgmt := rfl
@[simp] theorem State.coreEvent_sec (c : CoreId) (code : Nat) (args : List Nat) : (s.coreEvent c code args).sec = s.sec := rfl
@[simp] theorem State.coreEvent_assay (c : CoreId) (code : Nat) (args : List Nat) : (s.coreEvent c code args).assay = s.assay := rfl
@[simp] theorem State.coreEvent_flash (c : CoreId) (code : Nat) (args : List Nat) : (s.coreEvent c code args).flash = s.flash := rfl
@[simp] theorem State.coreEvent_idle (c : CoreId) (code : Nat) (args : List Nat) : (s.coreEvent c code args).idle = s.idle := rfl
@[simp] theorem State.coreEvent_draws (c : CoreId) (code : Nat) (args : List Nat) : (s.coreEvent c code args).draws = s.draws := rfl
@[simp] theorem State.coreEvent_outbox (c : CoreId) (code : Nat) (args : List Nat) : (s.coreEvent c code args).outbox = s.outbox := rfl
@[simp] theorem State.coreEvent_pending (c : CoreId) (code : Nat) (args : List Nat) : (s.coreEvent c code args).pending = s.pending := rfl

/-! ## State.emit -/

@[simp] theorem State.emit_csr (o : Out) : (s.emit o).csr = s.csr := rfl
@[simp] theorem State.emit_shadow (o : Out) : (s.emit o).shadow = s.shadow := rfl
@[simp] theorem State.emit_latch (o : Out) : (s.emit o).latch = s.latch := rfl
@[simp] theorem State.emit_mirror (o : Out) : (s.emit o).mirror = s.mirror := rfl
@[simp] theorem State.emit_cores (o : Out) : (s.emit o).cores = s.cores := rfl
@[simp] theorem State.emit_dram (o : Out) : (s.emit o).dram = s.dram := rfl
@[simp] theorem State.emit_reqs (o : Out) : (s.emit o).reqs = s.reqs := rfl
@[simp] theorem State.emit_nextTag (o : Out) : (s.emit o).nextTag = s.nextTag := rfl
@[simp] theorem State.emit_gateWait (o : Out) : (s.emit o).gateWait = s.gateWait := rfl
@[simp] theorem State.emit_grants (o : Out) : (s.emit o).grants = s.grants := rfl
@[simp] theorem State.emit_locks (o : Out) : (s.emit o).locks = s.locks := rfl
@[simp] theorem State.emit_deaths (o : Out) : (s.emit o).deaths = s.deaths := rfl
@[simp] theorem State.emit_fab (o : Out) : (s.emit o).fab = s.fab := rfl
@[simp] theorem State.emit_host (o : Out) : (s.emit o).host = s.host := rfl
@[simp] theorem State.emit_cams (o : Out) : (s.emit o).cams = s.cams := rfl
@[simp] theorem State.emit_pipes (o : Out) : (s.emit o).pipes = s.pipes := rfl
@[simp] theorem State.emit_msgs (o : Out) : (s.emit o).msgs = s.msgs := rfl
@[simp] theorem State.emit_events (o : Out) : (s.emit o).events = s.events := rfl
@[simp] theorem State.emit_ledger (o : Out) : (s.emit o).ledger = s.ledger := rfl
@[simp] theorem State.emit_ticks (o : Out) : (s.emit o).ticks = s.ticks := rfl
@[simp] theorem State.emit_mgmt (o : Out) : (s.emit o).mgmt = s.mgmt := rfl
@[simp] theorem State.emit_sec (o : Out) : (s.emit o).sec = s.sec := rfl
@[simp] theorem State.emit_assay (o : Out) : (s.emit o).assay = s.assay := rfl
@[simp] theorem State.emit_flash (o : Out) : (s.emit o).flash = s.flash := rfl
@[simp] theorem State.emit_idle (o : Out) : (s.emit o).idle = s.idle := rfl
@[simp] theorem State.emit_draws (o : Out) : (s.emit o).draws = s.draws := rfl
@[simp] theorem State.emit_pending (o : Out) : (s.emit o).pending = s.pending := rfl

/-! ## State.deathNotice -/

@[simp] theorem State.deathNotice_csr (o : Owner) : (s.deathNotice o).csr = s.csr := rfl
@[simp] theorem State.deathNotice_shadow (o : Owner) : (s.deathNotice o).shadow = s.shadow := rfl
@[simp] theorem State.deathNotice_latch (o : Owner) : (s.deathNotice o).latch = s.latch := rfl
@[simp] theorem State.deathNotice_mirror (o : Owner) : (s.deathNotice o).mirror = s.mirror := rfl
@[simp] theorem State.deathNotice_cores (o : Owner) : (s.deathNotice o).cores = s.cores := rfl
@[simp] theorem State.deathNotice_dram (o : Owner) : (s.deathNotice o).dram = s.dram := rfl
@[simp] theorem State.deathNotice_reqs (o : Owner) : (s.deathNotice o).reqs = s.reqs := rfl
@[simp] theorem State.deathNotice_nextTag (o : Owner) : (s.deathNotice o).nextTag = s.nextTag := rfl
@[simp] theorem State.deathNotice_gateWait (o : Owner) : (s.deathNotice o).gateWait = s.gateWait := rfl
@[simp] theorem State.deathNotice_grants (o : Owner) : (s.deathNotice o).grants = s.grants := rfl
@[simp] theorem State.deathNotice_locks (o : Owner) : (s.deathNotice o).locks = s.locks := rfl
@[simp] theorem State.deathNotice_fab (o : Owner) : (s.deathNotice o).fab = s.fab := rfl
@[simp] theorem State.deathNotice_host (o : Owner) : (s.deathNotice o).host = s.host := rfl
@[simp] theorem State.deathNotice_cams (o : Owner) : (s.deathNotice o).cams = s.cams := rfl
@[simp] theorem State.deathNotice_pipes (o : Owner) : (s.deathNotice o).pipes = s.pipes := rfl
@[simp] theorem State.deathNotice_msgs (o : Owner) : (s.deathNotice o).msgs = s.msgs := rfl
@[simp] theorem State.deathNotice_events (o : Owner) : (s.deathNotice o).events = s.events := rfl
@[simp] theorem State.deathNotice_ledger (o : Owner) : (s.deathNotice o).ledger = s.ledger := rfl
@[simp] theorem State.deathNotice_ticks (o : Owner) : (s.deathNotice o).ticks = s.ticks := rfl
@[simp] theorem State.deathNotice_mgmt (o : Owner) : (s.deathNotice o).mgmt = s.mgmt := rfl
@[simp] theorem State.deathNotice_sec (o : Owner) : (s.deathNotice o).sec = s.sec := rfl
@[simp] theorem State.deathNotice_assay (o : Owner) : (s.deathNotice o).assay = s.assay := rfl
@[simp] theorem State.deathNotice_flash (o : Owner) : (s.deathNotice o).flash = s.flash := rfl
@[simp] theorem State.deathNotice_idle (o : Owner) : (s.deathNotice o).idle = s.idle := rfl
@[simp] theorem State.deathNotice_draws (o : Owner) : (s.deathNotice o).draws = s.draws := rfl
@[simp] theorem State.deathNotice_outbox (o : Owner) : (s.deathNotice o).outbox = s.outbox := rfl
@[simp] theorem State.deathNotice_pending (o : Owner) : (s.deathNotice o).pending = s.pending := rfl

/-! ## State.draw -/

@[simp] theorem State.draw_csr (w : Nat) : (s.draw w).2.csr = s.csr := rfl
@[simp] theorem State.draw_shadow (w : Nat) : (s.draw w).2.shadow = s.shadow := rfl
@[simp] theorem State.draw_latch (w : Nat) : (s.draw w).2.latch = s.latch := rfl
@[simp] theorem State.draw_mirror (w : Nat) : (s.draw w).2.mirror = s.mirror := rfl
@[simp] theorem State.draw_cores (w : Nat) : (s.draw w).2.cores = s.cores := rfl
@[simp] theorem State.draw_dram (w : Nat) : (s.draw w).2.dram = s.dram := rfl
@[simp] theorem State.draw_reqs (w : Nat) : (s.draw w).2.reqs = s.reqs := rfl
@[simp] theorem State.draw_nextTag (w : Nat) : (s.draw w).2.nextTag = s.nextTag := rfl
@[simp] theorem State.draw_gateWait (w : Nat) : (s.draw w).2.gateWait = s.gateWait := rfl
@[simp] theorem State.draw_grants (w : Nat) : (s.draw w).2.grants = s.grants := rfl
@[simp] theorem State.draw_locks (w : Nat) : (s.draw w).2.locks = s.locks := rfl
@[simp] theorem State.draw_deaths (w : Nat) : (s.draw w).2.deaths = s.deaths := rfl
@[simp] theorem State.draw_fab (w : Nat) : (s.draw w).2.fab = s.fab := rfl
@[simp] theorem State.draw_host (w : Nat) : (s.draw w).2.host = s.host := rfl
@[simp] theorem State.draw_cams (w : Nat) : (s.draw w).2.cams = s.cams := rfl
@[simp] theorem State.draw_pipes (w : Nat) : (s.draw w).2.pipes = s.pipes := rfl
@[simp] theorem State.draw_msgs (w : Nat) : (s.draw w).2.msgs = s.msgs := rfl
@[simp] theorem State.draw_events (w : Nat) : (s.draw w).2.events = s.events := rfl
@[simp] theorem State.draw_ledger (w : Nat) : (s.draw w).2.ledger = s.ledger := rfl
@[simp] theorem State.draw_ticks (w : Nat) : (s.draw w).2.ticks = s.ticks := rfl
@[simp] theorem State.draw_mgmt (w : Nat) : (s.draw w).2.mgmt = s.mgmt := rfl
@[simp] theorem State.draw_sec (w : Nat) : (s.draw w).2.sec = s.sec := rfl
@[simp] theorem State.draw_assay (w : Nat) : (s.draw w).2.assay = s.assay := rfl
@[simp] theorem State.draw_flash (w : Nat) : (s.draw w).2.flash = s.flash := rfl
@[simp] theorem State.draw_idle (w : Nat) : (s.draw w).2.idle = s.idle := rfl
@[simp] theorem State.draw_outbox (w : Nat) : (s.draw w).2.outbox = s.outbox := rfl
@[simp] theorem State.draw_pending (w : Nat) : (s.draw w).2.pending = s.pending := rfl

/-! ## Cores and tasks -/

theorem vector_get_set_same {α : Type} {n : Nat} (v : Vector α n) (i : Fin n) (x : α) : (v.set i x).get i = x := by
  show (v.set i x)[i.val] = x
  simp

theorem vector_get_set_ne {α : Type} {n : Nat} (v : Vector α n) (i j : Fin n) (x : α) (h : j ≠ i) :
    (v.set i x).get j = v.get j := by
  show (v.set i x)[j.val] = v[j.val]
  have h' : i.val ≠ j.val := fun e => h (Fin.ext e.symm)
  simp [h']

@[simp] theorem State.core_setCore_same (c : CoreId) (k : Core) : (s.setCore c k).core c = k :=
  vector_get_set_same _ _ _

theorem State.core_setCore_ne (c d : CoreId) (k : Core) (h : d ≠ c) : (s.setCore c k).core d = s.core d :=
  vector_get_set_ne _ _ _ _ h

@[simp] theorem State.core_modSeq_same (c : CoreId) (g : Seq → Seq) :
    (s.modSeq c g).core c = { s.core c with seq := g (s.core c).seq } := by simp [State.modSeq]

theorem State.core_modSeq_ne (c d : CoreId) (g : Seq → Seq) (h : d ≠ c) : (s.modSeq c g).core d = s.core d :=
  s.core_setCore_ne c d _ h

@[simp] theorem State.core_modVec_same (c : CoreId) (g : Vec → Vec) :
    (s.modVec c g).core c = { s.core c with vec := g (s.core c).vec } := by simp [State.modVec]

theorem State.core_modVec_ne (c d : CoreId) (g : Vec → Vec) (h : d ≠ c) : (s.modVec c g).core d = s.core d :=
  s.core_setCore_ne c d _ h

@[simp] theorem State.core_modGran_same (c : CoreId) (g : Gran → Gran) :
    (s.modGran c g).core c = { s.core c with gran := g (s.core c).gran } := by simp [State.modGran]

theorem State.core_modGran_ne (c d : CoreId) (g : Gran → Gran) (h : d ≠ c) : (s.modGran c g).core d = s.core d :=
  s.core_setCore_ne c d _ h

@[simp] theorem State.core_modLoom_same (c : CoreId) (g : Loom → Loom) :
    (s.modLoom c g).core c = { s.core c with loom := g (s.core c).loom } := by simp [State.modLoom]

theorem State.core_modLoom_ne (c d : CoreId) (g : Loom → Loom) (h : d ≠ c) : (s.modLoom c g).core d = s.core d :=
  s.core_setCore_ne c d _ h

@[simp] theorem State.core_modCarter_same (c : CoreId) (g : Carter → Carter) :
    (s.modCarter c g).core c = { s.core c with carter := g (s.core c).carter } := by simp [State.modCarter]

theorem State.core_modCarter_ne (c d : CoreId) (g : Carter → Carter) (h : d ≠ c) : (s.modCarter c g).core d = s.core d :=
  s.core_setCore_ne c d _ h

@[simp] theorem State.core_modTask_same (c : CoreId) (t : TaskId) (g : Task → Task) :
    (s.modTask c t g).core c = { s.core c with seq :=
      { (s.core c).seq with tasks := (s.core c).seq.tasks.set t (g (s.task c t)) } } := by
  simp [State.modTask, State.task]

theorem State.core_modTask_ne (c d : CoreId) (t : TaskId) (g : Task → Task) (h : d ≠ c) :
    (s.modTask c t g).core d = s.core d := s.core_setCore_ne c d _ h

@[simp] theorem State.task_modTask_same (c : CoreId) (t : TaskId) (g : Task → Task) :
    (s.modTask c t g).task c t = g (s.task c t) := by
  show ((s.modTask c t g).core c).seq.tasks.get t = _
  rw [State.core_modTask_same]
  exact vector_get_set_same _ _ _

theorem State.task_modTask_ne (c : CoreId) (t u : TaskId) (g : Task → Task) (h : u ≠ t) :
    (s.modTask c t g).task c u = s.task c u := by
  show ((s.modTask c t g).core c).seq.tasks.get u = _
  rw [State.core_modTask_same]
  exact vector_get_set_ne _ _ _ _ h

theorem State.task_modTask_otherCore (c d : CoreId) (t u : TaskId) (g : Task → Task) (h : d ≠ c) :
    (s.modTask c t g).task d u = s.task d u := by
  show ((s.modTask c t g).core d).seq.tasks.get u = _
  rw [s.core_modTask_ne c d t g h]
  rfl

@[simp] theorem State.core_csrPut (r : RegFam) (u i : Nat) (x : BitVec 64) (c : CoreId) : (s.csrPut r u i x).core c = s.core c := rfl
@[simp] theorem State.task_csrPut (r : RegFam) (u i : Nat) (x : BitVec 64) (c : CoreId) (t : TaskId) : (s.csrPut r u i x).task c t = s.task c t := rfl
@[simp] theorem State.core_put (f : Fld) (u i x : Nat) (c : CoreId) : (s.put f u i x).core c = s.core c := rfl
@[simp] theorem State.task_put (f : Fld) (u i x : Nat) (c : CoreId) (t : TaskId) : (s.put f u i x).task c t = s.task c t := rfl
@[simp] theorem State.core_bump (f : Fld) (u i n : Nat) (c : CoreId) : (s.bump f u i n).core c = s.core c := rfl
@[simp] theorem State.task_bump (f : Fld) (u i n : Nat) (c : CoreId) (t : TaskId) : (s.bump f u i n).task c t = s.task c t := rfl
@[simp] theorem State.core_raise (code block unit dom input : Nat) (args : List Nat) (c : CoreId) : (s.raise code block unit dom input args).core c = s.core c := rfl
@[simp] theorem State.task_raise (code block unit dom input : Nat) (args : List Nat) (c : CoreId) (t : TaskId) : (s.raise code block unit dom input args).task c t = s.task c t := rfl
@[simp] theorem State.core_coreEvent (d : CoreId) (code : Nat) (args : List Nat) (c : CoreId) : (s.coreEvent d code args).core c = s.core c := rfl
@[simp] theorem State.task_coreEvent (d : CoreId) (code : Nat) (args : List Nat) (c : CoreId) (t : TaskId) : (s.coreEvent d code args).task c t = s.task c t := rfl
@[simp] theorem State.core_emit (o : Out) (c : CoreId) : (s.emit o).core c = s.core c := rfl
@[simp] theorem State.task_emit (o : Out) (c : CoreId) (t : TaskId) : (s.emit o).task c t = s.task c t := rfl
@[simp] theorem State.core_deathNotice (o : Owner) (c : CoreId) : (s.deathNotice o).core c = s.core c := rfl
@[simp] theorem State.task_deathNotice (o : Owner) (c : CoreId) (t : TaskId) : (s.deathNotice o).task c t = s.task c t := rfl

/-! ## Reads of registers after updates of something else -/

@[simp] theorem State.csrGet_setCore (c : CoreId) (k : Core) (r : RegFam) (v j : Nat) : (s.setCore c k).csrGet r v j = s.csrGet r v j := rfl
@[simp] theorem State.rd_setCore (c : CoreId) (k : Core) (q : Fld) (v j : Nat) : (s.setCore c k).rd q v j = s.rd q v j := rfl
@[simp] theorem State.on_setCore (c : CoreId) (k : Core) (q : Fld) (v j : Nat) : (s.setCore c k).on q v j = s.on q v j := rfl
@[simp] theorem State.csrGet_modSeq (c : CoreId) (g : Seq → Seq) (r : RegFam) (v j : Nat) : (s.modSeq c g).csrGet r v j = s.csrGet r v j := rfl
@[simp] theorem State.rd_modSeq (c : CoreId) (g : Seq → Seq) (q : Fld) (v j : Nat) : (s.modSeq c g).rd q v j = s.rd q v j := rfl
@[simp] theorem State.on_modSeq (c : CoreId) (g : Seq → Seq) (q : Fld) (v j : Nat) : (s.modSeq c g).on q v j = s.on q v j := rfl
@[simp] theorem State.csrGet_modVec (c : CoreId) (g : Vec → Vec) (r : RegFam) (v j : Nat) : (s.modVec c g).csrGet r v j = s.csrGet r v j := rfl
@[simp] theorem State.rd_modVec (c : CoreId) (g : Vec → Vec) (q : Fld) (v j : Nat) : (s.modVec c g).rd q v j = s.rd q v j := rfl
@[simp] theorem State.on_modVec (c : CoreId) (g : Vec → Vec) (q : Fld) (v j : Nat) : (s.modVec c g).on q v j = s.on q v j := rfl
@[simp] theorem State.csrGet_modGran (c : CoreId) (g : Gran → Gran) (r : RegFam) (v j : Nat) : (s.modGran c g).csrGet r v j = s.csrGet r v j := rfl
@[simp] theorem State.rd_modGran (c : CoreId) (g : Gran → Gran) (q : Fld) (v j : Nat) : (s.modGran c g).rd q v j = s.rd q v j := rfl
@[simp] theorem State.on_modGran (c : CoreId) (g : Gran → Gran) (q : Fld) (v j : Nat) : (s.modGran c g).on q v j = s.on q v j := rfl
@[simp] theorem State.csrGet_modLoom (c : CoreId) (g : Loom → Loom) (r : RegFam) (v j : Nat) : (s.modLoom c g).csrGet r v j = s.csrGet r v j := rfl
@[simp] theorem State.rd_modLoom (c : CoreId) (g : Loom → Loom) (q : Fld) (v j : Nat) : (s.modLoom c g).rd q v j = s.rd q v j := rfl
@[simp] theorem State.on_modLoom (c : CoreId) (g : Loom → Loom) (q : Fld) (v j : Nat) : (s.modLoom c g).on q v j = s.on q v j := rfl
@[simp] theorem State.csrGet_modCarter (c : CoreId) (g : Carter → Carter) (r : RegFam) (v j : Nat) : (s.modCarter c g).csrGet r v j = s.csrGet r v j := rfl
@[simp] theorem State.rd_modCarter (c : CoreId) (g : Carter → Carter) (q : Fld) (v j : Nat) : (s.modCarter c g).rd q v j = s.rd q v j := rfl
@[simp] theorem State.on_modCarter (c : CoreId) (g : Carter → Carter) (q : Fld) (v j : Nat) : (s.modCarter c g).on q v j = s.on q v j := rfl
@[simp] theorem State.csrGet_modTask (c : CoreId) (t : TaskId) (g : Task → Task) (r : RegFam) (v j : Nat) : (s.modTask c t g).csrGet r v j = s.csrGet r v j := rfl
@[simp] theorem State.rd_modTask (c : CoreId) (t : TaskId) (g : Task → Task) (q : Fld) (v j : Nat) : (s.modTask c t g).rd q v j = s.rd q v j := rfl
@[simp] theorem State.on_modTask (c : CoreId) (t : TaskId) (g : Task → Task) (q : Fld) (v j : Nat) : (s.modTask c t g).on q v j = s.on q v j := rfl
@[simp] theorem State.csrGet_raise (code block unit dom input : Nat) (args : List Nat) (r : RegFam) (v j : Nat) : (s.raise code block unit dom input args).csrGet r v j = s.csrGet r v j := rfl
@[simp] theorem State.rd_raise (code block unit dom input : Nat) (args : List Nat) (q : Fld) (v j : Nat) : (s.raise code block unit dom input args).rd q v j = s.rd q v j := rfl
@[simp] theorem State.on_raise (code block unit dom input : Nat) (args : List Nat) (q : Fld) (v j : Nat) : (s.raise code block unit dom input args).on q v j = s.on q v j := rfl
@[simp] theorem State.csrGet_coreEvent (c : CoreId) (code : Nat) (args : List Nat) (r : RegFam) (v j : Nat) : (s.coreEvent c code args).csrGet r v j = s.csrGet r v j := rfl
@[simp] theorem State.rd_coreEvent (c : CoreId) (code : Nat) (args : List Nat) (q : Fld) (v j : Nat) : (s.coreEvent c code args).rd q v j = s.rd q v j := rfl
@[simp] theorem State.on_coreEvent (c : CoreId) (code : Nat) (args : List Nat) (q : Fld) (v j : Nat) : (s.coreEvent c code args).on q v j = s.on q v j := rfl
@[simp] theorem State.csrGet_emit (o : Out) (r : RegFam) (v j : Nat) : (s.emit o).csrGet r v j = s.csrGet r v j := rfl
@[simp] theorem State.rd_emit (o : Out) (q : Fld) (v j : Nat) : (s.emit o).rd q v j = s.rd q v j := rfl
@[simp] theorem State.on_emit (o : Out) (q : Fld) (v j : Nat) : (s.emit o).on q v j = s.on q v j := rfl
@[simp] theorem State.csrGet_deathNotice (o : Owner) (r : RegFam) (v j : Nat) : (s.deathNotice o).csrGet r v j = s.csrGet r v j := rfl
@[simp] theorem State.rd_deathNotice (o : Owner) (q : Fld) (v j : Nat) : (s.deathNotice o).rd q v j = s.rd q v j := rfl
@[simp] theorem State.on_deathNotice (o : Owner) (q : Fld) (v j : Nat) : (s.deathNotice o).on q v j = s.on q v j := rfl
@[simp] theorem State.rd_draw (w : Nat) (q : Fld) (v j : Nat) : (s.draw w).2.rd q v j = s.rd q v j := rfl
@[simp] theorem State.csrGet_draw (w : Nat) (r : RegFam) (v j : Nat) : (s.draw w).2.csrGet r v j = s.csrGet r v j := rfl

end Sys2Proof.Machine
end

