-- ==== Sys2Proof/Laws/Csr.lean ====
section
/-! SUPPORT. Laws of the register file: what a register or a field reads as after a write of it or of another. -/

namespace Sys2Proof.Machine

variable (s : State)

@[simp] theorem voted_zero (x : BitVec 64) : voted x (0, 0) = x := by
  unfold voted
  simp

@[simp] theorem State.csrGet_csrPut_same (r : RegFam) (u i : Nat) (x : BitVec 64) :
    (s.csrPut r u i x).csrGet r u i = x := by
  simp [State.csrGet, State.csrPut, voted]

/-- A write to a register leaves every other one alone. -/
theorem State.csrGet_csrPut_ne (r q : RegFam) (u i v j : Nat) (x : BitVec 64) (h : q.addr v j ≠ r.addr u i) :
    (s.csrPut r u i x).csrGet q v j = s.csrGet q v j := by
  simp only [State.csrGet, State.csrPut]
  rw [cellGet_cellPut_other _ _ _ _ _ _ h, cellGet_cellPut_other _ _ _ _ _ _ h]

theorem State.csrGet_put_same (f : Fld) (u i x : Nat) :
    (s.put f u i x).csrGet f.reg u i = BitVec.ofNat 64 (setBits (s.csrGet f.reg u i).toNat f.lsb f.width x) := by
  simp [State.put]

theorem State.csrGet_put_ne (f : Fld) (q : RegFam) (u i v j x : Nat) (h : q.addr v j ≠ f.reg.addr u i) :
    (s.put f u i x).csrGet q v j = s.csrGet q v j := State.csrGet_csrPut_ne s _ _ _ _ _ _ _ h

theorem State.csrGet_bump_ne (f : Fld) (q : RegFam) (u i v j n : Nat) (h : q.addr v j ≠ f.reg.addr u i) :
    (s.bump f u i n).csrGet q v j = s.csrGet q v j := State.csrGet_put_ne s _ _ _ _ _ _ _ h

/-- A field reads as written. -/
theorem State.rd_put_same (f : Fld) (u i x : Nat) (h : f.lsb + f.width ≤ 64) : (s.put f u i x).rd f u i = x % 2 ^ f.width := by
  unfold State.rd
  rw [State.csrGet_put_same, BitVec.toNat_ofNat, Nat.mod_eq_of_lt, bitsOf_setBits_same]
  exact setBits_lt _ _ _ _ _ (s.csrGet f.reg u i).isLt h

/-- A write to a field leaves the other fields of its register alone. -/
theorem State.rd_put_field (f g : Fld) (u i x : Nat) (hr : g.reg = f.reg) (hf : f.lsb + f.width ≤ 64)
    (h : g.lsb + g.width ≤ f.lsb ∨ f.lsb + f.width ≤ g.lsb) : (s.put f u i x).rd g u i = s.rd g u i := by
  unfold State.rd
  rw [hr, State.csrGet_put_same, BitVec.toNat_ofNat, Nat.mod_eq_of_lt, bitsOf_setBits_other _ _ _ _ _ _ h]
  exact setBits_lt _ _ _ _ _ (s.csrGet f.reg u i).isLt hf

/-- A write to a field leaves every other register alone. -/
theorem State.rd_put_ne (f g : Fld) (u i v j x : Nat) (h : g.reg.addr v j ≠ f.reg.addr u i) :
    (s.put f u i x).rd g v j = s.rd g v j := by
  unfold State.rd
  rw [State.csrGet_put_ne s f g.reg u i v j x h]

theorem State.on_put_ne (f g : Fld) (u i v j x : Nat) (h : g.reg.addr v j ≠ f.reg.addr u i) :
    (s.put f u i x).on g v j = s.on g v j := by
  unfold State.on
  rw [State.rd_put_ne s f g u i v j x h]

theorem State.on_put_field (f g : Fld) (u i x : Nat) (hr : g.reg = f.reg) (hf : f.lsb + f.width ≤ 64)
    (h : g.lsb + g.width ≤ f.lsb ∨ f.lsb + f.width ≤ g.lsb) : (s.put f u i x).on g u i = s.on g u i := by
  unfold State.on
  rw [State.rd_put_field s f g u i x hr hf h]

/-- A counter after an increment (R70). -/
theorem State.rd_bump_same (f : Fld) (u i n : Nat) (h : f.lsb + f.width ≤ 64) :
    (s.bump f u i n).rd f u i = min (s.rd f u i + n) (2 ^ f.width - 1) := by
  unfold State.bump
  rw [State.rd_put_same s f u i _ h, Nat.mod_eq_of_lt]
  have : 0 < 2 ^ f.width := by positivity
  omega

theorem State.rd_bump_ne (f g : Fld) (u i v j n : Nat) (h : g.reg.addr v j ≠ f.reg.addr u i) :
    (s.bump f u i n).rd g v j = s.rd g v j := State.rd_put_ne s f g u i v j _ h

theorem State.rd_bump_field (f g : Fld) (u i n : Nat) (hr : g.reg = f.reg) (hf : f.lsb + f.width ≤ 64)
    (h : g.lsb + g.width ≤ f.lsb ∨ f.lsb + f.width ≤ g.lsb) : (s.bump f u i n).rd g u i = s.rd g u i :=
  State.rd_put_field s f g u i _ hr hf h

theorem State.rd_lt (f : Fld) (u i : Nat) : s.rd f u i < 2 ^ f.width := bitsOf_lt _ _ _

/-- Bringing a staged register's shadow forward changes that register and its shadow, and nothing else. -/
theorem State.activate_eq (r : RegFam) (u i : Nat) :
    ∃ x m, s.activate r u i = { s.csrPut r u i x with shadow := m } := by
  unfold State.activate
  exact ⟨_, _, rfl⟩

theorem State.csrGet_activate_ne (r q : RegFam) (u i v j : Nat) (h : q.addr v j ≠ r.addr u i) :
    (s.activate r u i).csrGet q v j = s.csrGet q v j := by
  obtain ⟨x, m, e⟩ := s.activate_eq r u i
  rw [e]
  exact State.csrGet_csrPut_ne s r q u i v j x h

end Sys2Proof.Machine
end

