-- ==== Sys2Proof/Laws/Frames.lean ====
section
/-! SUPPORT. Frames: what updates leave alone, composed step by step. -/

namespace Sys2Proof.Machine

/-! ## Errors in the memory cells -/

@[simp] theorem State.struck_nil (s : State) : s.struck [] = s := rfl

@[simp] theorem State.struck_cons (s : State) (u : Upset) (errs : List Upset) : s.struck (u :: errs) = (s.upset u).struck errs := rfl

/-- An error changes the Granaries and the DRAM alone. -/
theorem State.upset_frame (s : State) (u : Upset) :
    s.upset u = { s with cores := (s.upset u).cores, dram := (s.upset u).dram } := by
  cases u <;> rfl

/-- Errors change the Granaries and the DRAM alone. -/
theorem State.struck_frame (s : State) (errs : List Upset) :
    s.struck errs = { s with cores := (s.struck errs).cores, dram := (s.struck errs).dram } := by
  induction errs generalizing s with
  | nil => rfl
  | cons u us ih =>
    rw [State.struck_cons, ih (s.upset u)]
    exact congrArg (fun x : State => { x with cores := ((s.upset u).struck us).cores, dram := ((s.upset u).struck us).dram })
      (State.upset_frame s u)

/-! ## Register fields -/

theorem FieldsBut.refl (s : State) (F : List (Fld × Nat × Nat)) : FieldsBut s s F := fun _ _ _ _ => rfl

theorem FieldsBut.trans {s s' s'' : State} {F G : List (Fld × Nat × Nat)} (h : FieldsBut s s' F) (k : FieldsBut s' s'' G) :
    FieldsBut s s'' (F ++ G) := by
  intro g u i hg
  rw [k g u i (fun e he => hg e (List.mem_append_right F he)), h g u i (fun e he => hg e (List.mem_append_left G he))]

theorem FieldsBut.mono {s s' : State} {F G : List (Fld × Nat × Nat)} (h : FieldsBut s s' F) (k : ∀ e ∈ F, e ∈ G) :
    FieldsBut s s' G := fun g u i hg => h g u i (fun e he => hg e (k e he))

/-- A write to a field changes that field alone. -/
theorem FieldsBut.put (s : State) (f : Fld) (u i x : Nat) (hf : f.lsb + f.width ≤ 64) :
    FieldsBut s (s.put f u i x) [(f, u, i)] := by
  intro g v j hg
  by_cases ha : g.reg.addr v j = f.reg.addr u i
  · obtain ⟨hr, hd⟩ := hg (f, u, i) (List.mem_singleton_self _) ha
    have hgu : ∀ t : State, t.rd g v j = t.rd g u i := by
      intro t; unfold State.rd State.csrGet; rw [ha, hr]
    rw [hgu, hgu s]
    exact State.rd_put_field s f g u i x hr hf hd
  · exact State.rd_put_ne s f g u i v j x ha

theorem FieldsBut.bump (s : State) (f : Fld) (u i n : Nat) (hf : f.lsb + f.width ≤ 64) :
    FieldsBut s (s.bump f u i n) [(f, u, i)] := FieldsBut.put s f u i _ hf

/-- Whatever does not touch the register file keeps every field. -/
theorem FieldsBut.of_eq {s s' : State} (h : s'.csr = s.csr) (m : s'.mirror = s.mirror) (F : List (Fld × Nat × Nat)) :
    FieldsBut s s' F := by
  intro g u i _
  unfold State.rd State.csrGet
  rw [h, m]

/-- A whole register outside a frame's fields reads as before. -/
theorem FieldsBut.csrGet {s s' : State} {F : List (Fld × Nat × Nat)} (h : FieldsBut s s' F) (r : RegFam) (u i : Nat)
    (hr : ∀ e ∈ F, r.addr u i ≠ e.1.reg.addr e.2.1 e.2.2) : s'.csrGet r u i = s.csrGet r u i := by
  have := h ⟨r, 0, 64, .ro, .live⟩ u i (fun e he ha => absurd ha (hr e he))
  apply BitVec.eq_of_toNat_eq
  simpa [State.rd, bitsOf, Nat.mod_eq_of_lt (BitVec.isLt _)] using this

theorem FieldsBut.csrPut (s : State) (f : Fld) (u i : Nat) (x : BitVec 64) (hl : f.lsb = 0) (hw : f.width = 64) :
    FieldsBut s (s.csrPut f.reg u i x) [(f, u, i)] := by
  intro g v j hg
  by_cases ha : g.reg.addr v j = f.reg.addr u i
  · obtain ⟨hr, hd⟩ := hg (f, u, i) (List.mem_singleton_self _) ha
    rw [hl, hw] at hd
    rcases hd with hd | hd
    · have hg0 : g.width = 0 := by omega
      unfold State.rd bitsOf
      simp [hg0, Nat.mod_one]
    · unfold State.rd bitsOf
      have e1 : ∀ y : BitVec 64, y.toNat / 2 ^ g.lsb = 0 := by
        intro y
        apply Nat.div_eq_of_lt
        exact lt_of_lt_of_le y.isLt (Nat.pow_le_pow_right (by norm_num) (by omega))
      rw [e1, e1]
  · unfold State.rd
    rw [State.csrGet_csrPut_ne s _ _ _ _ _ _ _ ha]

/-! ## One core and the registers -/

/-- Only core `c`, which is now `C`, the GLOBAL_TICK counter of its clock and fields of `F` have changed. -/
def Was (s s' : State) (c : CoreId) (C : Core) (F : List (Fld × Nat × Nat)) : Prop :=
  (∃ T, s' = { s with csr := s'.csr, mirror := s'.mirror, cores := s.cores.set c C, ticks := s.ticks.set 0 T }) ∧ FieldsBut s s' F

theorem vector_set_get {α : Type} {n : Nat} (v : Vector α n) (i : Fin n) : v.set i (v.get i) = v := by
  apply Vector.ext
  intro j hj
  by_cases h : i.val = j
  · subst h; simp [Vector.get]
  · simp [h]

theorem vector_set_set {α : Type} {n : Nat} (v : Vector α n) (i : Fin n) (x y : α) : (v.set i x).set i y = v.set i y := by
  apply Vector.ext
  intro j hj
  by_cases h : i.val = j
  · subst h; simp
  · simp [h]

theorem Was.refl (s : State) (c : CoreId) (F : List (Fld × Nat × Nat)) : Was s s c (s.core c) F := by
  refine ⟨⟨s.ticks.get 0, ?_⟩, FieldsBut.refl s F⟩
  show s = { s with cores := s.cores.set c (s.cores.get c), ticks := s.ticks.set 0 (s.ticks.get 0) }
  rw [vector_set_get]
  have : s.ticks.set 0 (s.ticks.get 0) = s.ticks := vector_set_get s.ticks (0 : Fin 7)
  rw [this]

theorem Was.core {s s' : State} {c : CoreId} {C : Core} {F : List (Fld × Nat × Nat)} (h : Was s s' c C F) : s'.core c = C := by
  obtain ⟨T, h1⟩ := h.1
  have := congrArg State.cores h1
  show s'.cores.get c = C
  rw [this]
  exact vector_get_set_same _ _ _

theorem Was.mono {s s' : State} {c : CoreId} {C : Core} {F G : List (Fld × Nat × Nat)} (h : Was s s' c C F)
    (k : ∀ e ∈ F, e ∈ G) : Was s s' c C G := ⟨h.1, h.2.mono k⟩

theorem Was.congr {s s' : State} {c : CoreId} {C D : Core} {F : List (Fld × Nat × Nat)} (h : Was s s' c C F) (e : C = D) :
    Was s s' c D F := e ▸ h

theorem Was.put {s s' : State} {c : CoreId} {C : Core} {F : List (Fld × Nat × Nat)} (h : Was s s' c C F) (f : Fld) (u i x : Nat)
    (hf : f.lsb + f.width ≤ 64) (hm : (f, u, i) ∈ F) : Was s (s'.put f u i x) c C F := by
  refine ⟨?_, ?_⟩
  · obtain ⟨T, h1⟩ := h.1
    refine ⟨T, ?_⟩
    generalize hs : s' = q at *
    show { q with csr := _, mirror := _ } = _
    rw [h1]
    rfl
  · refine (h.2.trans (FieldsBut.put s' f u i x hf)).mono ?_
    intro e he
    rcases List.mem_append.mp he with he | he
    · exact he
    · rw [List.mem_singleton.mp he]; exact hm

theorem Was.bump {s s' : State} {c : CoreId} {C : Core} {F : List (Fld × Nat × Nat)} (h : Was s s' c C F) (f : Fld) (u i n : Nat)
    (hf : f.lsb + f.width ≤ 64) (hm : (f, u, i) ∈ F) : Was s (s'.bump f u i n) c C F := h.put f u i _ hf hm

theorem Was.csrPut {s s' : State} {c : CoreId} {C : Core} {F : List (Fld × Nat × Nat)} (h : Was s s' c C F) (f : Fld) (u i : Nat)
    (x : BitVec 64) (hl : f.lsb = 0) (hw : f.width = 64) (hm : (f, u, i) ∈ F) : Was s (s'.csrPut f.reg u i x) c C F := by
  refine ⟨?_, ?_⟩
  · obtain ⟨T, h1⟩ := h.1
    refine ⟨T, ?_⟩
    generalize hs : s' = q at *
    show { q with csr := _, mirror := _ } = _
    rw [h1]
    rfl
  · refine (h.2.trans (FieldsBut.csrPut s' f u i x hl hw)).mono ?_
    intro e he
    rcases List.mem_append.mp he with he | he
    · exact he
    · rw [List.mem_singleton.mp he]; exact hm

theorem Was.setCore {s s' : State} {c : CoreId} {C : Core} {F : List (Fld × Nat × Nat)} (h : Was s s' c C F) (D : Core) :
    Was s (s'.setCore c D) c D F := by
  refine ⟨?_, ?_⟩
  · obtain ⟨T, h1⟩ := h.1
    refine ⟨T, ?_⟩
    generalize hs : s' = q at *
    show { q with cores := q.cores.set c D } = _
    rw [h1]
    show _ = { s with csr := q.csr, mirror := q.mirror, cores := s.cores.set c D, ticks := s.ticks.set 0 T }
    simp only [vector_set_set]
  · intro g u i hg
    exact h.2 g u i hg

theorem Was.modSeq {s s' : State} {c : CoreId} {C : Core} {F : List (Fld × Nat × Nat)} (h : Was s s' c C F) (g : Seq → Seq) :
    Was s (s'.modSeq c g) c { C with seq := g C.seq } F := by
  have := h.setCore { s'.core c with seq := g (s'.core c).seq }
  rw [h.core] at this
  rw [State.modSeq, h.core]
  exact this

theorem Was.modVec {s s' : State} {c : CoreId} {C : Core} {F : List (Fld × Nat × Nat)} (h : Was s s' c C F) (g : Vec → Vec) :
    Was s (s'.modVec c g) c { C with vec := g C.vec } F := by
  have := h.setCore { s'.core c with vec := g (s'.core c).vec }
  rw [h.core] at this
  rw [State.modVec, h.core]
  exact this

theorem Was.modGran {s s' : State} {c : CoreId} {C : Core} {F : List (Fld × Nat × Nat)} (h : Was s s' c C F) (g : Gran → Gran) :
    Was s (s'.modGran c g) c { C with gran := g C.gran } F := by
  have := h.setCore { s'.core c with gran := g (s'.core c).gran }
  rw [h.core] at this
  rw [State.modGran, h.core]
  exact this

theorem Was.modTask {s s' : State} {c : CoreId} {C : Core} {F : List (Fld × Nat × Nat)} (h : Was s s' c C F) (t : TaskId)
    (g : Task → Task) :
    Was s (s'.modTask c t g) c { C with seq := { C.seq with tasks := C.seq.tasks.set t (g (C.seq.tasks.get t)) } } F :=
  h.modSeq _

/-- GLOBAL_TICK_CC moves. -/
theorem Was.tick {s s' : State} {c : CoreId} {C : Core} {F : List (Fld × Nat × Nat)} (h : Was s s' c C F) (x : BitVec 64) :
    Was s { s' with ticks := s'.ticks.set 0 x } c C F := by
  obtain ⟨T, h1⟩ := h.1
  refine ⟨⟨x, ?_⟩, h.2⟩
  have e : s'.ticks.set 0 x = s.ticks.set 0 x := by
    rw [congrArg State.ticks h1]
    exact vector_set_set s.ticks (0 : Fin 7) T x
  rw [e]
  clear e
  generalize hs : s' = r at *
  rw [h1]

/-- Cc of the core's clock pass. -/
theorem Was.coreTime {s s' : State} {c : CoreId} {C : Core} {F : List (Fld × Nat × Nat)} (h : Was s s' c C F) (n : Nat)
    (hm : (Reg.CORE_VEC_ON_CC_COUNT, c.val, 0) ∈ F) :
    Was s (s'.coreTime c n) c { C with seq := { C.seq with cc := C.seq.cc + n } } F := by
  have w1 : Was s (s'.modSeq c (fun q => { q with cc := (s'.core c).seq.cc + n })) c
      { C with seq := { C.seq with cc := C.seq.cc + n } } F := by
    have := h.modSeq (fun q => { q with cc := (s'.core c).seq.cc + n })
    rw [h.core] at this ⊢
    exact this
  refine Was.tick (s' := if ((s'.modSeq c (fun q => { q with cc := (s'.core c).seq.cc + n })).core c).vec.pwr = .down then _
    else _) ?_ _
  split
  · exact w1
  · exact w1.bump _ _ _ _ (by decide) hm

end Sys2Proof.Machine
end

