-- ==== Sys2Proof/Laws/Issue.lean ====
section
/-! SUPPORT. The bundle cycle: how an operation of a ready core issues, and what its bundle's W edge leaves. -/

namespace Sys2Proof.Machine

/-! ## Issue -/

theorem Ready.mayIssue {s : State} {c : CoreId} {t : TaskId} (r : Ready s c t) : s.mayIssue c t = true := by
  simp [State.mayIssue, r.double, r.run, r.line, r.turn]

/-- The vector unit of a ready core is free from the next X edge on. -/
theorem Ready.unitFree {s : State} {c : CoreId} {t : TaskId} (r : Ready s c t) {x : Nat} (h : (s.core c).seq.cc + 2 ≤ x) (u : VUnit) :
    s.unitFree c x u = true := by
  simp only [State.unitFree, List.all_eq_true, Bool.or_eq_true, decide_eq_true_eq]
  exact fun e he => Or.inr (le_trans (r.units e he) h)

theorem opsIllegal_one {s : State} {c : CoreId} {t : TaskId} (r : Ready s c t) (o : Op) (ho : o.illegal = false)
    (hw : hasTwice o.writes = false) : s.opsIllegal c t [o] = false := by
  have h1 : ∀ x : Slot, ¬ slotLimit x < 1 := by intro x; cases x <;> decide
  have h2 : ¬ (0 < srLDEPTH (s.task c t).sr ∧ (s.task c t).le.get (Fin.ofNat 4 (srLDEPTH (s.task c t).sr - 1)) = (s.task c t).pc) :=
    fun ⟨a, b⟩ => r.inner (by omega) b
  unfold State.opsIllegal
  simp [ho, hw, h1]
  intro _ h3 h4
  exact h2 ⟨h3, h4⟩

/-- The counters of a bundle in D (R122, R161). -/
def stallCounters (c : Nat) : List (Fld × Nat × Nat) :=
  [(Reg.CORE_STALL_SCB_COUNT, c, 0), (Reg.CORE_STALL_SB_COUNT, c, 0), (Reg.CORE_STALL_VWAKE_COUNT, c, 0),
   (Reg.CORE_STALL_WAIT_COUNT, c, 0), (Reg.CORE_VEC_ON_CC_COUNT, c, 0)]

theorem stall_mem {c : Nat} : ∀ e ∈ stallCounters c, e ∈ bundleCounters c := by
  simp [stallCounters, bundleCounters]

/-- The counts of a bundle in D change the core's clock and those counters. -/
theorem charge_was (s : State) (c : CoreId) (h : Hd) (o : Op) (hr : ∀ v k, o.wait ≠ some (.row v k)) :
    Was s (s.charge c h [o]) c { s.core c with seq := { (s.core c).seq with cc := (s.core c).seq.cc + (h.scb + h.sb + h.vwake + h.wait) } }
      (stallCounters c) := by
  have w := ((((Was.refl s c (stallCounters c)).bump Reg.CORE_STALL_SCB_COUNT c 0 h.scb (by decide) (by simp [stallCounters])).bump
    Reg.CORE_STALL_SB_COUNT c 0 h.sb (by decide) (by simp [stallCounters])).bump Reg.CORE_STALL_VWAKE_COUNT c 0 h.vwake (by decide)
    (by simp [stallCounters])).bump Reg.CORE_STALL_WAIT_COUNT c 0 h.wait (by decide) (by simp [stallCounters])
  have w' := w.coreTime (h.scb + h.sb + h.vwake + h.wait) (by simp [stallCounters])
  unfold State.charge
  dsimp only
  split
  · rename_i ctr away e
    exfalso
    cases hw : o.wait with
    | none => simp [hw] at e
    | some w => cases w <;> simp [hw] at e ; exact hr _ _ hw
  · exact w'

theorem addr_core_ne (r q : RegFam) (c i j : Nat) (hr : r.blk = .core) (hq : q.blk = .core) (hi : r.stride = 0) (hj : q.stride = 0)
    (h : r.off ≠ q.off) : r.addr c i ≠ q.addr c j := by
  unfold RegFam.addr
  rw [hr, hq, hi, hj]
  omega

/-- A bundle is not counted before it leaves D. -/
theorem charge_bundles (s : State) (c : CoreId) (h : Hd) (o : Op) (hr : ∀ v k, o.wait ≠ some (.row v k)) :
    (s.charge c h [o]).rd Reg.CORE_SEQ_BUNDLES_COUNT c 0 = s.rd Reg.CORE_SEQ_BUNDLES_COUNT c 0 := by
  refine (charge_was s c h o hr).2 _ _ _ (fun e he ha => absurd ha ?_)
  simp only [stallCounters, List.mem_cons, List.not_mem_nil, or_false] at he
  rcases he with rfl | rfl | rfl | rfl | rfl <;> exact addr_core_ne _ _ _ _ _ rfl rfl rfl rfl (by dsimp only; decide)

/-- What a ready core has counted before its bundle leaves D. -/
theorem charge_core (s : State) (c : CoreId) (h : Hd) (o : Op) (hr : ∀ v k, o.wait ≠ some (.row v k)) :
    (s.charge c h [o]).core c = { s.core c with seq := { (s.core c).seq with cc := (s.core c).seq.cc + (h.scb + h.sb + h.vwake + h.wait) } } :=
  (charge_was s c h o hr).core

theorem assignUnits_one (free : VUnit → Bool) (hf : ∀ u, free u = true) (o : Op) :
    ∃ us, assignUnits free [o] [] = some us ∧ ∀ e ∈ us, e.1 = o := by
  by_cases hv : slotVector o.slot = true
  · have hu : ∃ u us, o.units = u :: us := by
      unfold Op.units
      revert hv
      cases o.slot <;> simp [slotVector]; split <;> simp
    obtain ⟨u, us, hu⟩ := hu
    exact ⟨[(o, u)], by simp [assignUnits, hv, hu, hf], by simp⟩
  · exact ⟨[], by simp [assignUnits, hv], by simp⟩

/-- A legal bundle of one operation that nothing holds leaves D. -/
theorem judge_one {s : State} {c : CoreId} {t : TaskId} (h : Hd) (o : Op) (fx : List Fx) (us : List (Op × VUnit))
    (hi : s.opsIllegal c t [o] = false) (hp : slotVector o.slot = true → ((s.charge c h [o]).core c).vec.pwr = .on)
    (hf : ∀ u, (s.charge c h [o]).unitFree c (((s.charge c h [o]).core c).seq.cc + 2) u = true)
    (hu : (s.charge c h [o]).bundleUnits c (((s.charge c h [o]).core c).seq.cc + 2) [o] = some us)
    (hw : ∀ w, o.wait = some w → (s.charge c h [o]).waitMet c w = true) (ho : o.out = .ok fx) :
    s.judge c t h { ops := [o], held := false } = (s.charge c h [o]).commit c t [o] us := by
  unfold State.judge
  rw [hi]
  dsimp only
  have hv : [o].any (fun o => slotVector o.slot) = slotVector o.slot := by simp
  have e2 : (if slotVector o.slot = true then (s.charge c h [o]).beginWake c else s.charge c h [o]) = s.charge c h [o] := by
    split
    · rename_i hs
      unfold State.beginWake
      rw [hp hs, if_neg (by decide)]
    · rfl
  have hvp : (slotVector o.slot && ((s.charge c h [o]).core c).vec.pwr != .on) = false := by
    cases hs : slotVector o.slot
    · rfl
    · simp [hp hs]
  have hid : [o].all (fun p => p.after.all ((s.charge c h [o]).unitFree c (((s.charge c h [o]).core c).seq.cc + 2))) = true := by
    simp only [List.all_cons, List.all_nil, Bool.and_true, List.all_eq_true]
    exact fun u _ => hf u
  rw [if_neg (by simp), hv, e2, hid, hvp, hu]
  have hff : firstFault [o] = none := by simp [firstFault, ho]
  rw [if_neg (by simp), hff]
  dsimp only
  split
  · rename_i w e
    exfalso
    cases hwt : o.wait with
    | none => simp [hwt] at e
    | some v => simp [hwt, Option.filter, hw v hwt] at e
  · rfl

/-- A legal operation that nothing holds, alone in its bundle, leaves D. -/
theorem issue_ok {s : State} {h : Hd} {t : TaskId} (r : Ready s h.core t) (hl : h.last = true)
    (mk : State → CoreId → TaskId → Op) (o : Op) (fx : List Fx) (hm : mk s h.core t = o) (h1 : o.illegal = false)
    (hw : hasTwice o.writes = false) (h2 : o.hold = false) (h3 : slotVector o.slot = true → (s.core h.core).vec.pwr = .on)
    (h4 : ∀ w, o.wait = some w → (s.charge h.core h [o]).waitMet h.core w = true) (hr : ∀ v k, o.wait ≠ some (.row v k))
    (h5 : o.out = .ok fx) :
    ∃ us, (∀ e ∈ us, e.1 = o) ∧ s.issue h mk = (s.charge h.core h [o]).commit h.core t [o] us := by
  have hc := charge_core s h.core h o hr
  have huf : ∀ u, (s.charge h.core h [o]).unitFree h.core (((s.charge h.core h [o]).core h.core).seq.cc + 2) u = true := by
    intro u
    have := r.unitFree (x := (s.core h.core).seq.cc + (h.scb + h.sb + h.vwake + h.wait) + 2) (by omega) u
    unfold State.unitFree at this ⊢
    rw [hc]
    exact this
  obtain ⟨us, hus, huo⟩ := assignUnits_one
    ((s.charge h.core h [o]).unitFree h.core (((s.charge h.core h [o]).core h.core).seq.cc + 2)) huf o
  refine ⟨us, huo, ?_⟩
  have hbu : (s.charge h.core h [o]).bundleUnits h.core (((s.charge h.core h [o]).core h.core).seq.cc + 2) [o] = some us := by
    have hsort : [o].filter (fun o => o.indexed) ++ [o].filter (fun o => !o.indexed) = [o] := by
      cases hi : o.indexed <;> simp [hi]
    unfold State.bundleUnits
    rw [hsort]
    exact hus
  have hheld : s.opHeld h.core t o = false := by simp [State.opHeld, r.scb, h2]
  rw [← judge_one (t := t) h o fx us (opsIllegal_one r o h1 hw) (fun hs => by rw [hc]; exact h3 hs) huf hbu h4 h5]
  have hb : (s.core h.core).seq.bundle = none := r.bundle
  have hi : s.issueOp h.core t h o = s.judge h.core t h { ops := [o], held := false } := by
    unfold State.issueOp
    rw [hb]
    simp [Bundle.empty, hheld, hl]
  unfold State.issue
  simp only [r.running, r.mayIssue, hb, r.inD, r.fetched, hm, hi, if_true, Option.isNone_none, Bool.not_false, Bool.and_self, r.fetch, Bool.not_true,
    Bool.and_false, Bool.false_eq_true, if_false]

theorem State.task_modSeq_same (s : State) (c : CoreId) (t : TaskId) (g : Seq → Seq) :
    (s.modSeq c g).task c t = (g (s.core c).seq).tasks.get t := by
  show ((s.modSeq c g).core c).seq.tasks.get t = _
  rw [State.core_modSeq_same]

/-! ## The W edge -/

theorem advancePc_inner (s : State) (c : CoreId) (t : TaskId) (h : srLDEPTH (s.task c t).sr ≠ 0 →
    (s.task c t).le.get (Fin.ofNat 4 (srLDEPTH (s.task c t).sr - 1)) ≠ (s.task c t).pc) :
    s.advancePc c t = s.modTask c t (fun k => { k with pc := (s.task c t).pc + 32 }) := by
  unfold State.advancePc
  by_cases hd : srLDEPTH (s.task c t).sr = 0
  · simp [State.loopEnd, hd]
  · simp only [State.loopEnd, hd, if_false, if_pos (h hd)]
    simp

theorem foldl_zero {α : Type} (l : List α) (g : Nat → α → Nat) (hg : ∀ x ∈ l, g 0 x = 0) : l.foldl g 0 = 0 := by
  induction l with
  | nil => rfl
  | cons x l ih =>
    simp only [List.foldl_cons, hg x (List.mem_cons_self)]
    exact ih (fun y hy => hg y (List.mem_cons_of_mem x hy))

theorem arithExc_off (s : State) (c : CoreId) (fx : List Fx) (h : s.csrGet Reg.CORE_EXC_EN c 0 = 0) : s.arithExc c fx = s := by
  unfold State.arithExc
  simp only [h]
  rw [if_pos]
  apply foldl_zero
  intro x _
  split <;> simp

/-- The core before a bundle's writes: its task goes on to `next`, its clock and its vector unit's beats are those of `q` and `v`. -/
def edgeCore (s : State) (c : CoreId) (t : TaskId) (next : Word) (cc : Nat) (v : Vec) : Core :=
  let k : Task := { s.task c t with wait := .none, longTold := false, pc := next }
  { s.core c with seq := { (s.core c).seq with cc := cc, tasks := (s.core c).seq.tasks.set t k }
                  vec := { (s.core c).vec with units := v.units, late := v.late, beats := v.beats } }

theorem atBoundary_quiet (s : State) (c : CoreId) (t : TaskId) (hc : (s.core c).seq.cinvReq = false)
    (hh : (s.task c t).haltReq = false) : s.atBoundary c t = s := by
  unfold State.atBoundary
  simp [hc, hh]

theorem applyStage_all (s0 : State) (x from_ : Nat) (c : CoreId) (t : TaskId) (fx : List Fx) (h : ∀ f ∈ fx, f.stage = 4) (s : State) :
    State.applyStage s0 x from_ c t fx 4 s = fx.foldl (State.applyFx s0 x from_ c t) s := by
  unfold State.applyStage
  rw [List.filter_eq_self.mpr]
  exact fun f hf => decide_eq_true (h f hf)

theorem applyStage_none (s0 : State) (x from_ : Nat) (c : CoreId) (t : TaskId) (fx : List Fx) (h : ∀ f ∈ fx, f.stage = 4) (k : Nat)
    (hk : k ≠ 4) (s : State) : State.applyStage s0 x from_ c t fx k s = s := by
  unfold State.applyStage
  rw [List.filter_eq_nil_iff.mpr]
  · rfl
  · intro f hf
    rw [h f hf]
    simpa using hk.symm

theorem settle_none (s : State) (c : CoreId) (x : Nat) (fx : List Fx) (h : ∀ f ∈ fx, f.stage = 4) : s.settle c x fx = fx := by
  unfold State.settle
  rw [if_neg]
  simp only [List.any_eq_true, not_exists, not_and]
  intro f hf
  have := h f hf
  cases f <;> simp [Fx.stage] at this ⊢

theorem coreTime_bundles (s : State) (c : CoreId) (n : Nat) :
    (s.coreTime c n).rd Reg.CORE_SEQ_BUNDLES_COUNT c 0 = s.rd Reg.CORE_SEQ_BUNDLES_COUNT c 0 := by
  have h : FieldsBut s (s.coreTime c n) [(Reg.CORE_VEC_ON_CC_COUNT, c.val, 0)] :=
    ((Was.refl s c [(Reg.CORE_VEC_ON_CC_COUNT, c.val, 0)]).coreTime n (by simp)).2
  refine h _ _ _ (fun e he ha => absurd ha ?_)
  rw [List.mem_singleton.mp he]
  exact addr_core_ne _ _ _ _ _ rfl rfl rfl rfl (by dsimp only; decide)

/-- The first part of the W edge, up to the writes. -/
theorem edge_start {s s1 : State} {c : CoreId} {t : TaskId} {n : Nat} (r : Ready s c t)
    (w : Was s s1 c { s.core c with seq := { (s.core c).seq with cc := n } } (bundleCounters c)) (x : Nat)
    (us : List (Op × VUnit)) (hi : ∀ e ∈ us, e.1.indexed = false) (fx : List Fx) (leaves : Bool) :
    let s0 := (s1.coreTime c 2).modTask c t (fun k => { k with wait := .none, longTold := false })
    let s2 := s0.occupy c x us fx
    (s0.task c t).pc = (s.task c t).pc
    ∧ ∃ cc v, Was s (if leaves then s2 else s2.advancePc c t) c
      (edgeCore s c t (if leaves then (s.task c t).pc else (s.task c t).pc + 32) cc v) (bundleCounters c)
        ∧ (if leaves then s2 else s2.advancePc c t).rd Reg.CORE_SEQ_BUNDLES_COUNT c 0 = s1.rd Reg.CORE_SEQ_BUNDLES_COUNT c 0 := by
  intro s0 s2
  have w0 : Was s s0 c (edgeCore s c t (s.task c t).pc (n + 2) (s.core c).vec) (bundleCounters c) := by
    refine ((w.coreTime 2 (by simp [bundleCounters])).modTask t (fun k => { k with wait := .none, longTold := false })).congr ?_
    clear w
    simp only [edgeCore, State.task]
  have h0 : (s0.task c t).pc = (s.task c t).pc := by
    show ((s0.core c).seq.tasks.get t).pc = _
    rw [w0.core]
    unfold edgeCore
    dsimp only
    rw [vector_get_set_same]
  refine ⟨h0, ?_⟩
  have hany : us.any (fun e => e.1.indexed) = false := by
    simp only [List.any_eq_false]
    exact fun e he => by simp [hi e he]
  have w2 : ∃ v : Vec, Was s s2 c (edgeCore s c t (s.task c t).pc (n + 2) v) (bundleCounters c) := by
    show ∃ v : Vec, Was s (s0.occupy c x us fx) c _ _
    unfold State.occupy
    dsimp only
    rw [hany]
    simp only [Bool.false_eq_true, if_false]
    exact ⟨⟨(s.core c).vec.v, (s.core c).vec.a, 0, 0, .down, [], _, _, _⟩, (w0.modVec _).congr rfl⟩
  obtain ⟨v, w2⟩ := w2
  have hb : s2.rd Reg.CORE_SEQ_BUNDLES_COUNT c 0 = s1.rd Reg.CORE_SEQ_BUNDLES_COUNT c 0 := by
    show (s0.occupy c x us fx).rd _ _ _ = _
    unfold State.occupy
    dsimp only
    rw [hany]
    simp only [Bool.false_eq_true, if_false]
    rw [State.rd_modVec]
    show ((s1.coreTime c 2).modTask c t _).rd _ _ _ = _
    rw [State.rd_modTask, coreTime_bundles]
  have ht : s2.task c t = { s.task c t with wait := .none, longTold := false } := by
    show (s2.core c).seq.tasks.get t = _
    rw [w2.core]
    exact vector_get_set_same _ _ _
  cases leaves
  · have hd : srLDEPTH (s2.task c t).sr ≠ 0 →
        (s2.task c t).le.get (Fin.ofNat 4 (srLDEPTH (s2.task c t).sr - 1)) ≠ (s2.task c t).pc := by rw [ht]; exact r.inner
    simp only [Bool.false_eq_true, if_false]
    have hpc : (s2.task c t).pc = (s.task c t).pc := by rw [ht]
    rw [advancePc_inner s2 c t hd, hpc]
    refine ⟨n + 2, v, (w2.modTask t _).congr ?_, by rw [State.rd_modTask]; exact hb⟩
    clear w w0 w2 hb
    simp only [edgeCore, vector_set_set, vector_get_set_same, State.task]
  · simp only [if_true]
    exact ⟨n + 2, v, w2, hb⟩

/-- The counts of a bundle's end. -/
theorem count_fields (s : State) (c : CoreId) (n : Nat) :
    FieldsBut s ((s.bump Reg.CORE_SEQ_BUNDLES_COUNT c 0 1).bump Reg.CORE_STALL_LONG_COUNT c 0 n) (bundleCounters c) :=
  ((FieldsBut.bump s _ c 0 1 (by decide)).trans (FieldsBut.bump _ _ c 0 n (by decide))).mono (by
    intro e he
    simp only [List.mem_append, List.mem_singleton] at he
    rcases he with rfl | rfl <;> simp [bundleCounters])

theorem coreTime_fields (s : State) (c : CoreId) (n : Nat) : FieldsBut s (s.coreTime c n) (bundleCounters c) :=
  ((Was.refl s c (bundleCounters c)).coreTime n (by simp [bundleCounters])).2

/-- What no later bundle can meet is kept in the prefetch buffer and the vector unit alone. -/
theorem forget_was {s s' : State} {c : CoreId} {C : Core} {F : List (Fld × Nat × Nat)} (w : Was s s' c C F) (t : TaskId) :
    ∃ pre us late beats, Was s (s'.forget c t) c { C with seq := { C.seq with pre := pre }
                                                          vec := { C.vec with units := us, late := late, beats := beats } } F := by
  unfold State.forget
  dsimp only
  exact ⟨_, _, _, _, (w.modSeq _).modVec _⟩

@[simp] theorem State.rd_forget (s : State) (c : CoreId) (t : TaskId) (f : Fld) (u i : Nat) : (s.forget c t).rd f u i = s.rd f u i := rfl

/-- The state after a bundle's counts. -/
def counted (s : State) (c : CoreId) (n : Nat) : State :=
  ((s.bump Reg.CORE_SEQ_BUNDLES_COUNT c 0 1).bump Reg.CORE_STALL_LONG_COUNT c 0 (n - 1)).coreTime c (1 + n)

theorem counted_was {s s' : State} {c : CoreId} {C : Core} {F : List (Fld × Nat × Nat)} (w : Was s s' c C (bundleCounters c ++ F)) (n : Nat) :
    Was s (counted s' c n) c { C with seq := { C.seq with cc := C.seq.cc + (1 + n) } } (bundleCounters c ++ F) :=
  ((w.bump _ _ _ _ (by decide) (by simp [bundleCounters])).bump _ _ _ _ (by decide) (by simp [bundleCounters])).coreTime _
    (by simp [bundleCounters])

theorem counted_bundles (s : State) (c : CoreId) (n : Nat) : (counted s c n).rd Reg.CORE_SEQ_BUNDLES_COUNT c 0
    = min (s.rd Reg.CORE_SEQ_BUNDLES_COUNT c 0 + 1) (2 ^ Reg.CORE_SEQ_BUNDLES_COUNT.width - 1) := by
  unfold counted
  rw [coreTime_bundles, State.rd_bump_ne, State.rd_bump_same _ _ _ _ _ (by decide)]
  exact addr_core_ne _ _ _ _ _ rfl rfl rfl rfl (by decide)

theorem counted_fields (s : State) (c : CoreId) (n : Nat) : FieldsBut s (counted s c n) (bundleCounters c) :=
  ((count_fields s c (n - 1)).trans (coreTime_fields _ c (1 + n))).mono (by simp)

/-- The end of a bundle, from the state its writes leave. -/
theorem edge_end {s s3 : State} {c : CoreId} {t : TaskId} {C : Core} {F : List (Fld × Nat × Nat)} (fx : List Fx) (n : Nat)
    (w : Was s s3 c C (bundleCounters c ++ F)) (hx : s3.csrGet Reg.CORE_EXC_EN c 0 = 0) (hc : C.seq.cinvReq = false)
    (hh : (C.seq.tasks.get t).haltReq = false) :
    let s6 := (((counted (s3.arithExc c fx) c n).forget c t).modSeq c (fun q => { q with bundle := none, inD := false })).atBoundary c t
    ∃ cc pre us late beats, Was s s6 c
        { C with seq := { C.seq with cc := cc, pre := pre, bundle := none, inD := false }
                 vec := { C.vec with units := us, late := late, beats := beats } } (bundleCounters c ++ F)
      ∧ s6.rd Reg.CORE_SEQ_BUNDLES_COUNT c 0
        = min (s3.rd Reg.CORE_SEQ_BUNDLES_COUNT c 0 + 1) (2 ^ Reg.CORE_SEQ_BUNDLES_COUNT.width - 1)
      ∧ FieldsBut s3 s6 (bundleCounters c) := by
  intro s6
  obtain ⟨pre, us, late, beats, w5⟩ := forget_was (counted_was w n) t
  have w6 := w5.modSeq (fun q => { q with bundle := none, inD := false })
  have e6 : s6 = ((counted s3 c n).forget c t).modSeq c (fun q => { q with bundle := none, inD := false }) := by
    show State.atBoundary _ c t = _
    rw [arithExc_off s3 c fx hx]
    apply atBoundary_quiet
    · rw [w6.core]
      exact hc
    · unfold State.task
      rw [w6.core]
      exact hh
  rw [e6]
  refine ⟨_, pre, us, late, beats, w6, ?_, ?_⟩
  · rw [State.rd_modSeq, State.rd_forget]
    exact counted_bundles s3 c n
  · intro g u i hg
    rw [State.rd_modSeq, State.rd_forget]
    exact counted_fields s3 c n g u i hg

/-- A core that has changed as a bundle's W edge changes it: `Retires` from the whole description. -/
theorem Retires.of_was {s s' : State} {c : CoreId} {t : TaskId} {C : Core} {F : List (Fld × Nat × Nat)} {k : Task} {q : Seq} {v : Vec}
    (w : Was s s' c (edgeTo C t k q v) (bundleCounters c ++ F))
    (hc : s'.rd Reg.CORE_SEQ_BUNDLES_COUNT c 0
      = min (s.rd Reg.CORE_SEQ_BUNDLES_COUNT c 0 + 1) (2 ^ Reg.CORE_SEQ_BUNDLES_COUNT.width - 1))
    (ht : ∀ u, u ≠ t → C.seq.tasks.get u = s.task c u) : Retires s s' c t k C F where
  task := by
    show (s'.core c).seq.tasks.get t = _
    rw [w.core]; exact vector_get_set_same _ _ _
  tasks := by
    intro u hu
    show (s'.core c).seq.tasks.get u = _
    rw [w.core, ← ht u hu]; exact vector_get_set_ne _ _ _ _ hu
  core := ⟨C.seq.tasks, by rw [w.core]; rfl⟩
  cores := by
    intro d hd
    obtain ⟨T, h1⟩ := w.1
    have := congrArg State.cores h1
    show s'.cores.get d = _
    rw [this]; exact vector_get_set_ne _ _ _ _ hd
  rest := by
    obtain ⟨T, h1⟩ := w.1
    have h2 : s'.cores = s.cores.set c (edgeTo C t k q v) := congrArg State.cores h1
    have h3 : s'.ticks = s.ticks.set 0 T := congrArg State.ticks h1
    have h4 : s'.ticks.get 0 = T := by rw [h3]; exact vector_get_set_same s.ticks (0 : Fin 7) T
    rw [h2, h4]
    exact h1
  count := hc
  regs := w.2

/-- The W edge of a bundle of one operation whose writes take place at W and do not choose the next PC, as its parts. -/
theorem commit_eq (s1 : State) (c : CoreId) (t : TaskId) (o : Op) (us : List (Op × VUnit)) (fx : List Fx) (ho : o.out = .ok fx)
    (hs : ∀ f ∈ fx, f.stage = 4) (hl : fx.any fxLeaves = false) :
    let x := (s1.core c).seq.cc + 2
    let s0 := (s1.coreTime c 2).modTask c t (fun k => { k with wait := .none, longTold := false })
    let s3 := fx.foldl (State.applyFx s0 x (if o.slot == .vl then 0 else 4) c t) ((s0.occupy c x us fx).advancePc c t)
    s1.commit c t [o] us = (((counted (s3.arithExc c fx) c (max 1 o.long)).forget c t).modSeq c
      (fun q => { q with bundle := none, inD := false })).atBoundary c t := by
  intro x s0 s3
  have e1 : [o].flatMap Op.fx = fx := by simp [Op.fx, ho]
  have e2 : s0.settle c x fx = fx := settle_none _ _ _ _ hs
  have e3 : [o].any (fun o => o.slot == .vl) = (o.slot == .vl) := by simp
  have e4 : [o].foldl (fun m o => max m o.long) 1 = max 1 o.long := rfl
  have e5 : s3 = State.applyStage s0 x (if o.slot == .vl then 0 else 4) c t fx 4 ((s0.occupy c x us fx).advancePc c t) :=
    (applyStage_all _ _ _ _ _ _ hs _).symm
  unfold State.commit
  dsimp only
  rw [e1, e2, e3, e4, hl, applyStage_none _ _ _ _ _ _ hs 0 (by decide), applyStage_none _ _ _ _ _ _ hs 1 (by decide),
    applyStage_none _ _ _ _ _ _ hs 2 (by decide), applyStage_none _ _ _ _ _ _ hs 3 (by decide)]
  simp only [Bool.false_eq_true, if_false]
  rw [e5]
  rfl

/-- A bundle of one operation whose writes take place at W and do not choose the next PC: if they leave core `C` with task `k` from the
core at the W edge, the bundle retires so. -/
theorem commit_falls {s s1 : State} {c : CoreId} {t : TaskId} {o : Op} {fx : List Fx} {n : Nat} {F : List (Fld × Nat × Nat)}
    (r : Ready s c t) (w1 : Was s s1 c { s.core c with seq := { (s.core c).seq with cc := n } } (bundleCounters c))
    (hn : s1.rd Reg.CORE_SEQ_BUNDLES_COUNT c 0 = s.rd Reg.CORE_SEQ_BUNDLES_COUNT c 0)
    (us : List (Op × VUnit)) (hus : ∀ e ∈ us, e.1.indexed = false) (ho : o.out = .ok fx)
    (hs : ∀ f ∈ fx, f.stage = 4) (hl : fx.any fxLeaves = false) (k : Task) (C : Core)
    (hC : ∀ u, u ≠ t → C.seq.tasks.get u = s.task c u) (hci : C.seq.cinvReq = false) (hkh : k.haltReq = false)
    (hw : ∀ (s0 s2 : State) (x from_ cc : Nat) (v : Vec), (s0.task c t).pc = (s.task c t).pc →
      Was s s2 c (edgeCore s c t ((s.task c t).pc + 32) cc v) (bundleCounters c) →
      ∃ q v', Was s (fx.foldl (State.applyFx s0 x from_ c t) s2) c (edgeTo C t k q v') (bundleCounters c ++ F)
        ∧ (fx.foldl (State.applyFx s0 x from_ c t) s2).csrGet Reg.CORE_EXC_EN c 0 = 0
        ∧ (fx.foldl (State.applyFx s0 x from_ c t) s2).rd Reg.CORE_SEQ_BUNDLES_COUNT c 0 = s2.rd Reg.CORE_SEQ_BUNDLES_COUNT c 0) :
    ∃ s0 s2 x from_ cc v, (s0.task c t).pc = (s.task c t).pc
      ∧ Was s s2 c (edgeCore s c t ((s.task c t).pc + 32) cc v) (bundleCounters c)
      ∧ Retires s (s1.commit c t [o] us) c t k C F
      ∧ FieldsBut (fx.foldl (State.applyFx s0 x from_ c t) s2) (s1.commit c t [o] us) (bundleCounters c) := by
  obtain ⟨hp, cc, v, w2, hb2⟩ := edge_start r w1 ((s1.core c).seq.cc + 2) us hus fx false
  rw [commit_eq s1 c t o us fx ho hs hl]
  simp only [Bool.false_eq_true, if_false] at w2 hb2
  obtain ⟨q, v', w3, hx, hb⟩ := hw _ _ ((s1.core c).seq.cc + 2) (if o.slot == .vl then 0 else 4) cc v hp w2
  obtain ⟨cc', pre, un, late, beats, w6, hb6, hf6⟩ := edge_end (t := t) fx (max 1 o.long) w3 hx hci
    (by show ((C.seq.tasks.set t { k with wait := .none, longTold := false }).get t).haltReq = false
        rw [vector_get_set_same]; exact hkh)
  refine ⟨_, _, _, _, cc, v, hp, w2, ?_, hf6⟩
  refine Retires.of_was (q := { q with cc := cc', pre := pre })
    (v := { C.vec with units := un, late := late, beats := beats }) (w6.congr rfl) ?_ hC
  rw [hb6, hb, hb2, hn]

end Sys2Proof.Machine
end

