-- ==== Sys2Proof/Laws/Scalar.lean ====
section
/-! SUPPORT. Scalar operations of a ready core: what a bundle of one SX operation leaves. -/

namespace Sys2Proof.Machine

/-- A register of a core that is no bundle counter reads as the W edge's writes left it. -/
theorem not_counter {s s' : State} {c : CoreId} (f : FieldsBut s s' (bundleCounters c)) (r : RegFam) (hb : r.blk = .core)
    (hs : r.stride = 0) (ho : r.off ∉ [Reg.CORE_SEQ_BUNDLES.off, Reg.CORE_STALL_SCB.off, Reg.CORE_STALL_SB.off,
      Reg.CORE_STALL_VWAKE.off, Reg.CORE_STALL_WAIT.off, Reg.CORE_STALL_LONG.off, Reg.CORE_STALL_FETCH.off,
      Reg.CORE_VEC_ON_CC.off]) :
    s'.csrGet r c 0 = s.csrGet r c 0 := by
  apply f.csrGet
  simp only [List.mem_cons, List.not_mem_nil, or_false, not_or] at ho
  obtain ⟨h1, h2, h3, h4, h5, h6, h7, h8⟩ := ho
  simp only [bundleCounters, List.mem_cons, List.not_mem_nil, or_false]
  rintro e (rfl | rfl | rfl | rfl | rfl | rfl | rfl | rfl)
  · exact addr_core_ne _ _ _ _ _ hb rfl hs rfl h1
  · exact addr_core_ne _ _ _ _ _ hb rfl hs rfl h2
  · exact addr_core_ne _ _ _ _ _ hb rfl hs rfl h3
  · exact addr_core_ne _ _ _ _ _ hb rfl hs rfl h4
  · exact addr_core_ne _ _ _ _ _ hb rfl hs rfl h5
  · exact addr_core_ne _ _ _ _ _ hb rfl hs rfl h6
  · exact addr_core_ne _ _ _ _ _ hb rfl hs rfl h7
  · exact addr_core_ne _ _ _ _ _ hb rfl hs rfl h8

/-- A write of one scalar register at the W edge. -/
theorem fx_s_was {s s2 : State} {c : CoreId} {t : TaskId} {next : Word} {cc : Nat} {v : Vec} {F : List (Fld × Nat × Nat)}
    (s0 : State) (x from_ : Nat) (w : Was s s2 c (edgeCore s c t next cc v) F) (hb : (s.core c).seq.bundle = none)
    (hi : (s.core c).seq.inD = false) (sd : SReg) (y : Word) :
    Was s (s0.applyFx x from_ c t s2 (.s sd y)) c
      (edgeTo (s.core c) t { s.task c t with s := (s.task c t).s.set sd y, pc := next } { (s.core c).seq with cc := cc } v) F := by
  have := w.modTask t (fun k => { k with s := k.s.set sd y })
  refine this.congr ?_
  simp only [edgeCore, edgeTo, vector_set_set, vector_get_set_same, State.task, ← hb, ← hi]

/-- What an SX operation's result leaves at the W edge, flags included (R60, R65, R68, R69). -/
theorem sx_effect {s : State} {c : CoreId} {t : TaskId} (r : Ready s c t) (s0 s2 : State) (x0 from_ cc : Nat) (v : Vec)
    (w : Was s s2 c (edgeCore s c t ((s.task c t).pc + 32) cc v) (bundleCounters c)) (sd : SReg) (x : IRes) :
    let fx := Fx.s sd (BitVec.ofNat 32 x.code) :: arithFx .seq x
    let s3 := fx.foldl (State.applyFx s0 x0 from_ c t) s2
    (∃ q v', Was s s3 c
      (edgeTo (s.core c) t { s.task c t with s := (s.task c t).s.set sd (BitVec.ofNat 32 x.code), pc := (s.task c t).pc + 32 } q v')
      (bundleCounters c ++ (if x.ov || x.dz || x.sat then seqFlags c else [])))
    ∧ s3.csrGet Reg.CORE_EXC_EN c 0 = 0
    ∧ s3.rd Reg.CORE_SEQ_BUNDLES_COUNT c 0 = s2.rd Reg.CORE_SEQ_BUNDLES_COUNT c 0
    ∧ s3.csrGet Reg.CORE_ARITH_FLAGS c 0 = s.csrGet Reg.CORE_ARITH_FLAGS c 0
        ||| BitVec.ofNat 64 (bit01 x.ov + 2 * bit01 x.dz + 4 * bit01 x.sat)
    ∧ s3.rd Reg.CORE_SAT_CNT_SEQ_COUNT c 0 = min (s.rd Reg.CORE_SAT_CNT_SEQ_COUNT c 0 + bit01 x.sat) (2 ^ 32 - 1) := by
  intro fx s3
  have hfit : s.rd Reg.CORE_SAT_CNT_SEQ_COUNT c 0 < 2 ^ 32 := State.rd_lt s _ _ _
  have w1 := fx_s_was s0 x0 from_ w r.bundle r.inD sd (BitVec.ofNat 32 x.code)
  have hs : ∀ g, (s0.applyFx x0 from_ c t s2 (.s sd (BitVec.ofNat 32 x.code))).csrGet g c 0 = s2.csrGet g c 0 := fun _ => rfl
  have hrd : ∀ f, (s0.applyFx x0 from_ c t s2 (.s sd (BitVec.ofNat 32 x.code))).rd f c 0 = s2.rd f c 0 := fun _ => rfl
  have hx : s2.csrGet Reg.CORE_EXC_EN c 0 = 0 := by rw [not_counter w.2 _ rfl rfl (by decide), r.exc]
  have ha : s2.csrGet Reg.CORE_ARITH_FLAGS c 0 = s.csrGet Reg.CORE_ARITH_FLAGS c 0 := not_counter w.2 _ rfl rfl (by decide)
  have hn : s2.rd Reg.CORE_SAT_CNT_SEQ_COUNT c 0 = s.rd Reg.CORE_SAT_CNT_SEQ_COUNT c 0 := by
    unfold State.rd
    rw [not_counter w.2 _ rfl rfl (by decide)]
  by_cases hf : (x.ov || x.dz || x.sat) = true
  · have e3 : s3 = ((s0.applyFx x0 from_ c t s2 (.s sd (BitVec.ofNat 32 x.code))).csrPut Reg.CORE_ARITH_FLAGS c 0
        ((s0.applyFx x0 from_ c t s2 (.s sd (BitVec.ofNat 32 x.code))).csrGet Reg.CORE_ARITH_FLAGS c 0
          ||| BitVec.ofNat 64 (bit01 x.ov + 2 * bit01 x.dz + 4 * bit01 (bit01 x.sat != 0) + 8 * bit01 (0 != 0)))).bump
        Reg.CORE_SAT_CNT_SEQ_COUNT c 0 (bit01 x.sat) := by
      show fx.foldl _ s2 = _
      simp only [fx, arithFx, hf, if_true, List.foldl_cons, List.foldl_nil]
      rfl
    have hb : bit01 (bit01 x.sat != 0) = bit01 x.sat := by cases x.sat <;> rfl
    rw [hb, show bit01 ((0 : Nat) != 0) = 0 from rfl] at e3
    rw [e3, hs]
    simp only [hf, if_true]
    refine ⟨⟨{ (s.core c).seq with cc := cc }, v, ?_⟩, ?_, ?_, ?_, ?_⟩
    · refine Was.bump (Was.csrPut (w1.mono (by simp +contextual)) (whole Reg.CORE_ARITH_FLAGS) c 0 _ rfl rfl (by simp [seqFlags])) _ _ _ _
        (by decide) (by simp [seqFlags])
    · unfold State.bump State.put
      rw [State.csrGet_csrPut_ne _ _ _ _ _ _ _ _ (addr_core_ne _ _ _ _ _ rfl rfl rfl rfl (by decide)),
        State.csrGet_csrPut_ne _ _ _ _ _ _ _ _ (addr_core_ne _ _ _ _ _ rfl rfl rfl rfl (by decide)), hs, hx]
    · rw [State.rd_bump_ne _ _ _ _ _ _ _ _ (addr_core_ne _ _ _ _ _ rfl rfl rfl rfl (by decide))]
      unfold State.rd
      rw [State.csrGet_csrPut_ne _ _ _ _ _ _ _ _ (addr_core_ne _ _ _ _ _ rfl rfl rfl rfl (by decide)), hs]
    · unfold State.bump State.put
      rw [State.csrGet_csrPut_ne _ _ _ _ _ _ _ _ (addr_core_ne _ _ _ _ _ rfl rfl rfl rfl (by decide)),
        State.csrGet_csrPut_same, ha]
      rfl
    · rw [State.rd_bump_same _ _ _ _ _ (by decide)]
      have : ∀ y, ((s0.applyFx x0 from_ c t s2 (.s sd (BitVec.ofNat 32 x.code))).csrPut Reg.CORE_ARITH_FLAGS c 0 y).rd
          Reg.CORE_SAT_CNT_SEQ_COUNT c 0 = s.rd Reg.CORE_SAT_CNT_SEQ_COUNT c 0 := by
        intro y
        rw [← hn, ← hrd]
        unfold State.rd
        rw [State.csrGet_csrPut_ne _ _ _ _ _ _ _ _ (addr_core_ne _ _ _ _ _ rfl rfl rfl rfl (by decide))]
      rw [this]
      rfl
  · have hf' : (x.ov || x.dz || x.sat) = false := by simpa using hf
    have e3 : s3 = s0.applyFx x0 from_ c t s2 (.s sd (BitVec.ofNat 32 x.code)) := by
      show fx.foldl _ s2 = _
      simp only [fx, arithFx, hf', Bool.false_eq_true, if_false, List.foldl_cons, List.foldl_nil]
    simp only [Bool.or_eq_false_iff] at hf'
    obtain ⟨⟨h1, h2⟩, h3⟩ := hf'
    rw [e3, hs, hs, hrd, hrd, hx, ha, hn]
    refine ⟨⟨_, _, w1.mono (by simp +contextual)⟩, rfl, rfl, ?_, ?_⟩
    · simp [h1, h2, h3, bit01]
    · simp only [h3, bit01]
      show _ = min (_ + 0) _
      omega

/-- An SX operation alone in its bundle writes its result and advances the PC; an edge case shows in its flags. -/
theorem sx_retires {s : State} {h : Hd} {t : TaskId} (r : Ready s h.core t) (hl : h.last = true)
    (mk : State → CoreId → TaskId → Op) (reads : List RName) (sd : SReg) (long : Nat) (x : IRes)
    (hm : mk s h.core t = sxOp reads sd long x) :
    Retires s (s.issue h mk) h.core t
      { s.task h.core t with s := (s.task h.core t).s.set sd (BitVec.ofNat 32 x.code), pc := (s.task h.core t).pc + 32 }
      (s.core h.core) (if x.ov || x.dz || x.sat then seqFlags h.core else [])
    ∧ (s.issue h mk).csrGet Reg.CORE_ARITH_FLAGS h.core 0 = s.csrGet Reg.CORE_ARITH_FLAGS h.core 0
        ||| BitVec.ofNat 64 (bit01 x.ov + 2 * bit01 x.dz + 4 * bit01 x.sat)
    ∧ (s.issue h mk).rd Reg.CORE_SAT_CNT_SEQ_COUNT h.core 0
        = min (s.rd Reg.CORE_SAT_CNT_SEQ_COUNT h.core 0 + bit01 x.sat) (2 ^ 32 - 1) := by
  have hr : ∀ v k, (sxOp reads sd long x).wait ≠ some (.row v k) := by intro v k h; cases h
  obtain ⟨us, hus, e⟩ := issue_ok r hl mk (sxOp reads sd long x) _ hm rfl rfl rfl (by intro h; cases h) (by intro w h; cases h) hr rfl
  rw [e]
  have hleaf : (Fx.s sd (BitVec.ofNat 32 x.code) :: arithFx .seq x).any fxLeaves = false := by
    unfold arithFx
    split <;> rfl
  have hst : ∀ f ∈ Fx.s sd (BitVec.ofNat 32 x.code) :: arithFx .seq x, f.stage = 4 := by
    unfold arithFx
    split <;> simp [Fx.stage]
  obtain ⟨s0, s2, x0, from_, cc, v, hp, w, ret, fb⟩ := commit_falls (o := sxOp reads sd long x)
    (F := if x.ov || x.dz || x.sat then seqFlags h.core else []) r
    ((charge_was s h.core h (sxOp reads sd long x) hr).mono stall_mem)
    (charge_bundles s h.core h _ hr) us (fun e he => by rw [hus e he]; rfl) rfl hst hleaf
    { s.task h.core t with s := (s.task h.core t).s.set sd (BitVec.ofNat 32 x.code), pc := (s.task h.core t).pc + 32 }
    (s.core h.core) (fun u _ => rfl) r.cinv r.halt (by
      intro s0 s2 x0 from_ cc v hp w
      obtain ⟨⟨q, v', w'⟩, h1, h2, _, _⟩ := sx_effect r s0 s2 x0 from_ cc v w sd x
      exact ⟨q, v', w', h1, h2⟩)
  obtain ⟨_, _, _, h3, h4⟩ := sx_effect r s0 s2 x0 from_ cc v w sd x
  refine ⟨ret, ?_, ?_⟩
  · rw [not_counter fb _ rfl rfl (by decide)]
    exact h3
  · rw [← h4]
    unfold State.rd
    rw [not_counter fb _ rfl rfl (by decide)]

/-- The forms of a register and a last source. -/
theorem sx2_retires {s : State} {h : Hd} {t : TaskId} (r : Ready s h.core t) (hl : h.last = true) (sd sa : SReg) (b : Src)
    (long : Nat) (f : Nat → Nat → IRes) :
    let k := s.task h.core t
    let x := f (k.s.get sa).toNat (srcVal k b).toNat
    ∃ s', sx2 h sd sa b long f s = .next s'
      ∧ Retires s s' h.core t { k with s := k.s.set sd (BitVec.ofNat 32 x.code), pc := k.pc + 32 } (s.core h.core)
          (if x.ov || x.dz || x.sat then seqFlags h.core else [])
      ∧ s'.csrGet Reg.CORE_ARITH_FLAGS h.core 0 = s.csrGet Reg.CORE_ARITH_FLAGS h.core 0
          ||| BitVec.ofNat 64 (bit01 x.ov + 2 * bit01 x.dz + 4 * bit01 x.sat)
      ∧ s'.rd Reg.CORE_SAT_CNT_SEQ_COUNT h.core 0
          = min (s.rd Reg.CORE_SAT_CNT_SEQ_COUNT h.core 0 + bit01 x.sat) (2 ^ 32 - 1) := by
  intro k x
  exact ⟨_, rfl, sx_retires r hl _ _ sd long x rfl⟩

/-- The forms of one register. -/
theorem sx1_retires {s : State} {h : Hd} {t : TaskId} (r : Ready s h.core t) (hl : h.last = true) (sd sa : SReg) (long : Nat)
    (f : Nat → IRes) :
    let k := s.task h.core t
    let x := f (k.s.get sa).toNat
    ∃ s', sx1 h sd sa long f s = .next s'
      ∧ Retires s s' h.core t { k with s := k.s.set sd (BitVec.ofNat 32 x.code), pc := k.pc + 32 } (s.core h.core)
          (if x.ov || x.dz || x.sat then seqFlags h.core else [])
      ∧ s'.csrGet Reg.CORE_ARITH_FLAGS h.core 0 = s.csrGet Reg.CORE_ARITH_FLAGS h.core 0
          ||| BitVec.ofNat 64 (bit01 x.ov + 2 * bit01 x.dz + 4 * bit01 x.sat)
      ∧ s'.rd Reg.CORE_SAT_CNT_SEQ_COUNT h.core 0
          = min (s.rd Reg.CORE_SAT_CNT_SEQ_COUNT h.core 0 + bit01 x.sat) (2 ^ 32 - 1) := by
  intro k x
  exact ⟨_, rfl, sx_retires r hl _ _ sd long x rfl⟩

end Sys2Proof.Machine
end

