-- ==== Sys2Proof/WellFormed.lean ====
section
/-! DEFINITION. Well-formed commands: those whose operands the part could be given. What the spec bounds by a width is bounded
by its type; here stand the other bounds. -/

namespace Sys2Proof

/-- A packet's data as its TYPE carries it (R400, R401): `n` lines at most, and at least one where `need`. -/
def Packet.fits (k : Packet) (need : Bool) : Bool := decide (k.data.length ≤ 4) && (!need || !k.data.isEmpty)

/-- Whether a command is well formed: BREV's field lies in the word (R117), the page buffer has 256 B (R451), a power sample reads
the 20 sensors (R530), and data packets carry 1 to 4 lines (R401). -/
def Instr.wf : Instr → Bool
  | .brev _ _ _ lsb w => decide (1 ≤ w) && decide (lsb.val + w ≤ 32)
  | .flashAccess _ _ page => decide (page.length = 256)
  | .powerSample temps => decide (temps.length = 20)
  | .writePacket _ k => k.fits true
  | .readResp _ k => k.fits false
  | .ringPut _ k _ => decide (k.data.length = 1)
  | _ => true

end Sys2Proof
end

