-- ==== Sys2Proof/Tests/Slice0.lean ====
section
/-! SUPPORT. The model's own tests: ill-formed commands, states that meet the hypotheses of each statement (the witnesses), and single
commands with results worked out from the spec by hand. -/

open Sys2Proof Sys2Proof.Machine

namespace Sys2Proof.Tests

set_option Elab.async false

/-! ## Ill-formed commands -/

def hd : Hd := ⟨0, true, 0, 0, 0, 0⟩
def pkt (n : Nat) : Packet :=
  { dst := 0, src := 0, ty := 1, vl := false, status := 0, tag := 0, win := 0, off := 0, data := List.replicate n 0, hchk := true }

theorem test_wf_brev : (Instr.brev hd 0 0 0 0).wf = false ∧ (Instr.brev hd 0 0 31 2).wf = false ∧ (Instr.brev hd 0 0 31 1).wf = true := by
  decide
theorem test_wf_flashAccess : (Instr.flashAccess 2 0 []).wf = false ∧ (Instr.flashAccess 2 0 (List.replicate 256 0)).wf = true := by decide +kernel
theorem test_wf_powerSample : (Instr.powerSample (List.replicate 19 0)).wf = false ∧ (Instr.powerSample (List.replicate 20 0)).wf = true := by
  decide
theorem test_wf_writePacket : (Instr.writePacket 0 (pkt 0)).wf = false ∧ (Instr.writePacket 0 (pkt 5)).wf = false
    ∧ (Instr.writePacket 0 (pkt 4)).wf = true := by decide
theorem test_wf_readResp : (Instr.readResp 0 (pkt 5)).wf = false ∧ (Instr.readResp 0 (pkt 0)).wf = true := by decide
theorem test_wf_ringPut : (Instr.ringPut 0 (pkt 0) 0).wf = false ∧ (Instr.ringPut 0 (pkt 2) 0).wf = false
    ∧ (Instr.ringPut 0 (pkt 1) 0).wf = true := by decide

/-! ## Small states -/

/-- The state after a command. -/
def after (i : Instr) (s : State) : State :=
  match exec i s with
  | .next s' => s'
  | _ => s

/-- The device out of reset with start-up in phase `n`. -/
def boot (n : Nat) : State :=
  let s := State.reset.put Reg.MGMT_BOOT_STAT_PHASE 0 0 n
  { s with mgmt := { s.mgmt with resetLow := false } }

/-- Task 0 of core 0 runs with a window of 16 KiB at 8 KiB of the Granary, DSP 0x800 and PC 0x100, whose line is fetched. -/
def base : State :=
  let s := (((boot 9).put Reg.CORE_SEQ_CTRL_RUN 0 0 1).put Reg.CORE_TASK_GLEN_LEN 0 0 4).put Reg.CORE_TASK_GBASE_BASE 0 0 2
  (s.modSeq 0 (fun q => { q with running := some 0, pre := [(0x84, 0, false, false)] })).modTask 0 0 (fun k => { k with st := .running, dsp := 0x800, pc := 0x100 })

/-- `base` with values in the scalar registers of the task. -/
def withS (l : List (SReg × Word)) : State :=
  base.modTask 0 0 (fun k => { k with s := l.foldl (fun v e => v.set e.1 e.2) k.s })

/-- The vector unit of core 0 on, with values in its registers. -/
def withV (l : List (VReg × VWord)) : State :=
  base.modVec 0 (fun v => { v with pwr := .on, v := l.foldl (fun v e => v.set e.1 e.2) v.v })

/-- A scalar register of the task after a command. -/
def sAfter (i : Instr) (s : State) (r : SReg) : Word := ((after i s).task 0 0).s.get r

/-- A line from values at bit positions. -/
def line (l : List (Nat × Nat)) : Line := BitVec.ofNat 512 ((l.map (fun e => e.2 * 2 ^ e.1)).foldl (· + ·) 0)

/-- Bytes put into the Granary of core 0. -/
def withG (s : State) (off : Nat) (bs : List Byte) : State := s.modGran 0 (fun g => { g with bytes := bytesPut 0 g.bytes off bs })

/-- Input `i` has won four decisions at every Tollgate of a memory. -/
def wins (i : Nat) (s : State) : State := { s with grants := (List.range 20).map (fun u => (u * 16 + i, 4)) }

/-! ## Witnesses: steps, scalar operations and control -/

/-- The conditions of `Ready`, evaluated. -/
def isReady (s : State) : Bool :=
  let k := s.core 0
  decide (k.seq.running = some 0 ∧ k.seq.double = false ∧ k.seq.bundle = none ∧ k.seq.inD = false ∧ s.on Reg.CORE_SEQ_CTRL_RUN 0 0 = true
    ∧ s.recognisable 0 (s.task 0 0).sr = none ∧ s.switchDue 0 0 = false ∧ s.fetchFault 0 0 = none ∧ s.fetchDone 0 0 = true
    ∧ s.busyRegs 0 0 = [] ∧ (∀ e ∈ k.vec.units, e.2 ≤ k.seq.cc + 2) ∧ (∀ e ∈ k.vec.late, e.cc < k.seq.cc + 2)
    ∧ (∀ e ∈ k.vec.beats, e.1 < k.seq.cc + 2)
    ∧ (srLDEPTH (s.task 0 0).sr ≠ 0 → (s.task 0 0).le.get (Fin.ofNat 4 (srLDEPTH (s.task 0 0).sr - 1)) ≠ (s.task 0 0).pc)
    ∧ (s.task 0 0).haltReq = false ∧ (s.core 0).seq.cinvReq = false ∧ s.csrGet Reg.CORE_EXC_EN 0 0 = 0)

theorem ready_of {s : State} (h : isReady s = true) : Ready s 0 0 := by
  obtain ⟨a, b, c, d, e, f, g, i, j, k, l, m, n, o, p, q, r⟩ := of_decide_eq_true h
  exact ⟨a, b, c, d, e, f, g, i, j, k, l, m, n, o, p, q, r⟩

theorem vecReady_of {s : State} (h : isReady s = true) (on : (s.core 0).vec.pwr = .on) : Claims.vecReady s hd 0 := ⟨ready_of h, rfl, on⟩

/-- `base` with its task changed. -/
def withT (f : Task → Task) : State := base.modTask 0 0 f

theorem witness_StepRunsFront : State.reset.pending = [] ∧ (({ base with pending := [.nop hd] } : State).pending) = [.nop hd] := ⟨rfl, rfl⟩
theorem witness_StepRunsFront_errors : (base.struck [.granUe 5 8388607]).wordBad 5 8388607 = true
    ∧ (base.struck [.granData 5 8388607 0x0807]).granBytes 5 67108856 2 = [7, 8] ∧ (base.struck [.granCe 5 0]).granBytes 5 0 2 = [0, 0]
    ∧ ((after (.lineFetch 0 0x100 [.granUe 0 (8192 / 8 + 32)]) (base.modSeq 0 (fun q => { q with pre := [] }))).core 0).seq.pre.map (fun e => e.2.2)
        = [(true, false)]
    ∧ (base.struck [.dramUe 2147483647]).dram.poison = [(2147483647, true)] := by decide +kernel
theorem witness_ready : Ready base 0 0 ∧ hd.last = true := ⟨ready_of (by decide +kernel), rfl⟩

/-- The largest sum that stays in the range, and the first that leaves it, both ways. -/
theorem witness_ScalarRangedResults : (Claims.ranged true false (2 ^ 31 - 1)).2 = false ∧ Claims.ranged true false (2 ^ 31) = (0x80000000, true)
    ∧ Claims.ranged true true (-2 ^ 31 - 1) = (0x80000000, true) ∧ Claims.ranged false true (-1) = (0, true)
    ∧ Claims.signedShift true true 0x40000000 1 = (0x7FFFFFFF, true) ∧ Claims.signedShift true false 0x80000000 0x80000000 = (0xFFFFFFFF, false) := by
  decide +kernel
theorem witness_ScalarDivisionResults : Ready (withS [(1, 0x80000000), (2, 0xFFFFFFFF), (3, 0)]) 0 0
    ∧ sAfter (.div hd 4 1 (.reg 3)) (withS [(1, 0x80000000), (2, 0xFFFFFFFF), (3, 0)]) 4 = 0x80000000
    ∧ sAfter (.divs hd 4 1 (.reg 2)) (withS [(1, 0x80000000), (2, 0xFFFFFFFF), (3, 0)]) 4 = 0x7FFFFFFF
    ∧ sAfter (.rem hd 4 1 (.imm 7)) (withS [(1, 0x80000000), (2, 0xFFFFFFFF), (3, 0)]) 4 = 0xFFFFFFFE := by
  refine ⟨ready_of ?_, ?_⟩ <;> decide +kernel
theorem witness_BitInstructions : (0 : Nat) < 1 ∧ (31 : Fin 32).val + 1 ≤ 32 ∧ 32 < (31 : Fin 32).val + 2 ∧ (base.task 0 0).st = .running
    ∧ srINH (base.task 0 0).sr = false ∧ sAfter (.brev hd 2 1 31 1) (withS [(1, 0x80000001)]) 2 = 0x80000001 := by decide +kernel
theorem witness_ScalarMoves : movReg 0 ≠ none ∧ movReg 127 = none ∧ Claims.rshr (-3) 1 .rna = -2 ∧ Claims.rshr (-3) 1 .rne = -2 ∧ Claims.rshr 5 1 .rne = 2 := by
  decide +kernel
theorem witness_RunningExtremes : (30 : SReg).val % 2 = 0 ∧ (31 : SReg).val % 2 = 1
    ∧ sAfter (.mini hd 30 1 2) (withS [(1, 0xFFFFFFFF), (2, 9), (30, 0)]) 31 = 9 ∧ sAfter (.miniu hd 30 1 2) (withS [(1, 5), (2, 9), (30, 5)]) 31 = 0 := by
  decide +kernel
/-- An exception of class OV is enabled and the operation overflows. -/
theorem witness_BundlesAndExceptions : let s := (withS [(1, 0x7FFFFFFF)]).put Reg.CORE_EXC_EN_OV 0 0 1
    Ready (s.csrPut Reg.CORE_EXC_EN 0 0 0) 0 0 ∧ s.rd Reg.CORE_EXC_EN_OV 0 0 = 1
    ∧ BitVec.saddOverflow ((s.task 0 0).s.get 1) (srcVal (s.task 0 0) (.imm 1)) = true
    ∧ (after (.add hd 2 1 (.imm 1)) s).rd Reg.CORE_EXC_CAUSE_VALID 0 0 = 1
    ∧ (({ hd with last := false } : Hd).last = false) ∧ (1 : SReg) ≠ 2 := by
  refine ⟨ready_of ?_, ?_⟩ <;> decide +kernel

/-- A return stack as given. -/
def stacked (l : List RetEntry) : State := withT (fun k => { k with rstk := l })
def entry (i : Bool) : RetEntry := { addr := 0x200, sr := 0, intr := i }
theorem witness_ReturnStack : Ready (stacked (List.replicate 56 (entry false))) 0 0 ∧ Ready (stacked [entry true]) 0 0
    ∧ ((stacked (List.replicate 55 (entry false))).task 0 0).rstk.length < 56
    ∧ ((after (.call hd 0x30) (stacked (List.replicate 55 (entry false)))).task 0 0).rstk.length = 56
    ∧ srTASK (entry true).sr = 0 ∧ ((stacked [entry true]).task 0 0).dsp.toNat + 128 ≤ (stacked [entry true]).winLen 0 0
    ∧ (∀ i : Fin 17, (stacked [entry true]).wordBad 0 (((stacked [entry true]).winBase 0 0 + 0x800) / 8 + i) = false)
    ∧ ((after (.reti hd []) (stacked [entry true])).task 0 0).pc = 0x200 := by
  refine ⟨ready_of ?_, ready_of ?_, ?_⟩ <;> decide +kernel

/-- One loop level around the bundle that runs: `n` passes, and the same task below that level. -/
def looping (n : Word) (depth : Nat) : State :=
  withT (fun k => { k with sr := srSetDepth k.sr depth, lc := k.lc.set 0 n, le := k.le.set 0 k.pc, ls := k.ls.set 0 0x80 })
theorem witness_TransfersAndLoops : Ready (looping 2 0) 0 0 ∧ srLDEPTH ((looping 2 1).task 0 0).sr = 1
    ∧ ((looping 2 1).task 0 0).le.get (Fin.ofNat 4 0) = ((looping 2 1).task 0 0).pc
    ∧ ((after (.nop hd) (looping 2 1)).task 0 0).pc = 0x80 ∧ ((after (.nop hd) (looping 1 1)).task 0 0).pc = 0x120
    ∧ srLDEPTH (base.task 0 0).sr < 4 ∧ ((3 : BitVec 3).toNat ≤ min 4 (srLDEPTH (withT (fun k => { k with sr := srSetDepth k.sr 3 }) |>.task 0 0).sr)) := by
  refine ⟨ready_of ?_, ?_⟩ <;> decide +kernel

/-- `base` with task 5 READY and of the same PRIO. -/
def second : State := base.modTask 0 5 (fun k => { k with st := .ready })
theorem witness_ControlAndWaits : Ready second 0 0 ∧ second.waitMet 0 .irq = false ∧ second.otherReady 0 = true ∧ base.otherReady 0 = false
    ∧ base.waitMet 0 .irq = false ∧ base.waitMet 0 (.carter 63) = true ∧ base.waitMet 0 (.loom false 7) = true
    ∧ (base.put Reg.PIPE_RING_STAT_END 0 15 1).rowMet 0 0 15 = true ∧ base.rowMet 0 0 191 = false ∧ (base.task 0 0).job = none
    ∧ (∀ u : TaskId, (base.task 0 u).st ≠ .waiting) ∧ (base.core 0).seq.sbuf = []
    ∧ ((after (.wfi hd) second).task 0 0).st = .waiting ∧ ((after (.tend hd) base).task 0 0).st = .free := by
  refine ⟨ready_of ?_, ?_⟩ <;> decide +kernel
/-- A line pending and enabled under IE 0; a store buffered; and the job of entry 1 of ring 3, at line 4 of the Granary. -/
theorem witness_ControlAndWaits_more : let irq := (base.put Reg.CORE_IRQ_PEND_PEND 0 0 0x8000).put Reg.CORE_IRQ_EN_EN 0 0 0x800
    let held := base.modSeq 0 (fun q => { q with sbuf := [(8192, [1])] })
    let k := ((withT (fun k => { k with job := some (3, 1) })).put Reg.CARTER_RING_CFG_LOG2SZ 0 3 1).put Reg.CARTER_RING_BASE_ADDR 0 3 0x1_0000_0003
    Ready irq 0 0 ∧ Ready held 0 0 ∧ Ready k 0 0 ∧ irq.irqPending 0 &&& irq.irqEnabled 0 ≠ 0 ∧ ((after (.wfi hd) irq).task 0 0).pc = 0x120
    ∧ base.carterBusy 0 63 = false ∧ base.loomBusy 0 false 7 = false ∧ (held.core 0).seq.sbuf ≠ [] ∧ ((after (.fence hd) held).core 0).seq.inD = true
    ∧ placeOf (k.ringSlot 0 3 1) = .gran 0 256 ∧ (after (.tend hd) k).granBytes 0 312 2 = [0, 0x80] := by
  refine ⟨ready_of ?_, ready_of ?_, ready_of ?_, ?_⟩ <;> decide +kernel

/-- Line 15 of core 0 pending and enabled, with its handler in task 0 at 0x400. -/
def pendingLine : State :=
  let s := (withT (fun k => { k with sr := 1 })).put Reg.CORE_IRQ_PEND_PEND 0 0 0x8000
  (s.put Reg.CORE_IRQ_EN_EN 0 0 0x800).put Reg.CORE_IRQ_VEC_HANDLER 0 15 0x20
theorem witness_InterruptEntry : let s := pendingLine
    (s.core 0).seq.running = some 0 ∧ (s.core 0).seq.double = false ∧ s.on Reg.CORE_SEQ_CTRL_RUN 0 0 = true
    ∧ s.recognisable 0 (s.task 0 0).sr = some 15 ∧ s.rd Reg.CORE_IRQ_VEC_TASK 0 15 = 0 ∧ (s.task 0 0).rstk.length < 64 ∧ (s.core 0).seq.sbuf = []
    ∧ 128 + s.rd Reg.CORE_TASK_DSL_LIMIT 0 0 * 4 ≤ (s.task 0 0).dsp.toNat / 64 * 64 ∧ 0x780 + 128 ≤ s.winLen 0 0
    ∧ (∀ i : Fin 17, s.wordBad 0 ((s.winBase 0 0 + 0x780) / 8 + i) = false) ∧ srTASK (s.task 0 0).sr = 0
    ∧ ((after (.interruptEntry 0) s).task 0 0).pc = 0x400 ∧ ((after (.interruptEntry 0) s).task 0 0).dsp = 0x780
    ∧ srILVL ((after (.interruptEntry 0) s).task 0 0).sr = 15 := by decide +kernel
/-- `pendingLine` with a BOUND fault at 0x4000 and a lost load into s9; line 0 is pending. -/
def pendingFault : State :=
  (pendingLine.put Reg.CORE_IRQ_PEND_PEND 0 0 1).modSeq 0 (fun q => { q with
    fault := some { cause := 0x02, task := 0, deferred := false, half := false, addr := some 0x4000, pc := 0xE0 }
    loads := [{ task := 0, pc := 0xE0, dst := [(9, 5)], bad := false, failed := true }] })
theorem witness_FaultEntry : let s := pendingFault
    let s' := after (.interruptEntry 0) s
    (s.core 0).seq.running = some 0 ∧ (s.core 0).seq.double = false ∧ s.on Reg.CORE_SEQ_CTRL_RUN 0 0 = true
    ∧ s.recognisable 0 (s.task 0 0).sr = some 0 ∧ (s.core 0).seq.fault.map (fun f => f.task) = some 0 ∧ (s.task 0 0).rstk.length < 64
    ∧ (s.core 0).seq.sbuf = [] ∧ 128 + s.rd Reg.CORE_TASK_DSL_LIMIT 0 0 * 4 ≤ (s.task 0 0).dsp.toNat / 64 * 64 ∧ 0x780 + 128 ≤ s.winLen 0 0
    ∧ (∀ i : Fin 16, s.wordBad 0 ((s.winBase 0 0 + 0x780) / 8 + i) = false)
    ∧ s'.csrGet Reg.CORE_SEQ_FAULT 0 0 = 0x80000002 ∧ s'.csrGet Reg.CORE_SEQ_FADDR 0 0 = 0x4000 ∧ s'.csrGet Reg.CORE_SEQ_FPC 0 0 = 0xE0 ∧ (s'.core 0).seq.loads = []
    ∧ (s'.task 0 0).dsp = 0x780 ∧ (s'.task 0 0).s.get 8 = (s.task 0 0).s.get 8 := by decide +kernel
theorem witness_InterruptRoundTrip : (pendingLine.task 0 0).haltReq = false ∧ (pendingLine.task 0 0).st = .running
    ∧ Ready (after (.lineFetch 0 0x400 []) (after (.interruptEntry 0) pendingLine)) 0 0
    ∧ ((after (.reti hd []) (after (.lineFetch 0 0x400 []) (after (.interruptEntry 0) pendingLine))).task 0 0).pc = 0x100 := by
  refine ⟨?_, ?_, ready_of ?_, ?_⟩ <;> decide +kernel

/-- CORE_SEQ_BUNDLES reads without effects; CORE_SAT_CNT clears as it is read. -/
theorem witness_CsrAccess : base.held = false ∧ csrFind (Blk.base .core 0 + 0xFFFFC) = none
    ∧ sAfter (.csrr hd 3 (BitVec.ofNat 20 Reg.CORE_TASK_GLEN.off)) (withS [(3, 7)]) 3 = 4
    ∧ (after (.rcRead (.core 0) (BitVec.ofNat 28 (Reg.CORE_SAT_CNT_SEQ.addr 0 0))) (base.put Reg.CORE_SAT_CNT_SEQ_COUNT 0 0 9)).rd
        Reg.CORE_SAT_CNT_SEQ_COUNT 0 0 = 0
    ∧ (after (.csrw hd 3 (BitVec.ofNat 20 Reg.CORE_EXC_EN.off)) (withS [(3, 0x1F)])).csrGet Reg.CORE_EXC_EN 0 0 = 15 := by decide +kernel
/-- A read of an offset that holds no register changes nothing. -/
theorem witness_CsrReads_still : ∀ s2 : State, (s2.csrRead (.core 0) (Blk.base .core 0 + 0xFFFFC)).2 = s2 := by
  intro s2
  have h : csrFind (Blk.base .core 0 + 0xFFFFC) = none := by decide +kernel
  simp [State.csrRead, h]

/-- So is a read of CORE_IRQ_EN. -/
theorem witness_CsrReads_plain : ∀ s2 : State, (s2.csrRead (.core 0) (Blk.base .core 0 + Reg.CORE_IRQ_EN.off)).2 = s2 := by
  intro s2
  have h : csrFind (Blk.base .core 0 + Reg.CORE_IRQ_EN.off) = some ⟨Reg.CORE_IRQ_EN, [Reg.CORE_IRQ_EN_FIXED, Reg.CORE_IRQ_EN_EN], 0, 0, false⟩ := by decide +kernel
  unfold State.csrRead
  split
  · rfl
  · rename_i r hr
    split at hr
    · obtain rfl : (⟨Reg.CORE_IRQ_EN, [Reg.CORE_IRQ_EN_FIXED, Reg.CORE_IRQ_EN_EN], 0, 0, false⟩ : RegRef) = r := by rw [h] at hr; exact Option.some.inj hr
      rfl
    · cases hr

theorem witness_RegisterWrites : let a := Reg.GLOBAL_CFG_BUSY.addr 0 0
    base.csrOpen .host a = true ∧ (csrFind a).map (fun r => (r.fam.blk == Blk.global)) = some true
    ∧ (csrFind (Reg.DRAM_CH_STAT.addr 7 0)).map (fun r => r.fam.blk == Blk.dramCh) = some true
    ∧ base.csrOpen .host (Reg.CORE_TASK_DSL.addr 0 0) = true ∧ (base.task 0 0).st ∈ [TaskSt.ready, .running, .waiting]
    ∧ (after (.registerWrite .host (BitVec.ofNat 28 (Reg.CORE_TASK_DSL.addr 0 0)) 7) base).rd Reg.GLOBAL_CFG_BUSY_COUNT 0 0 = 1 := by decide +kernel
/-- The mirrored fabric address with its copies as given. -/
def mirrored (a b : Word) : State := { boot 9 with mirror := [(Reg.FAB_ADDR.addr 0 0, (a, b))] }
theorem witness_CheckerVotes : (mirrored 7 7).held = false ∧ cellGet ((0 : Word), (0 : Word)) (mirrored 7 7).mirror (Reg.FAB_ADDR.addr 0 0) = (7, 7)
    ∧ (after (.checkerVisit (BitVec.ofNat 28 (Reg.FAB_ADDR.addr 0 0))) (mirrored 7 7)).rd Reg.FAB_VOTE_FIX_CNT_COUNT 0 0 = 1
    ∧ (after (.checkerVisit (BitVec.ofNat 28 (Reg.FAB_ADDR.addr 0 0))) (mirrored 0 7)).rd Reg.FAB_VOTE_FIX_CNT_COUNT 0 0 = 1
    ∧ (after (.checkerVisit (BitVec.ofNat 28 (Reg.FAB_ADDR.addr 0 0))) (mirrored 3 7)).fab.stopped = true := by decide +kernel

theorem witness_BundleFaults : (base.task 0 0).st = .running ∧ srINH (base.task 0 0).sr = false ∧ movReg 127 = none
    ∧ srLDEPTH (base.task 0 0).sr < (1 : BitVec 3).toNat ∧ ((withS [(1, 0x41)]).task 0 0).s.get 1 = 0x41
    ∧ Ready (withT (fun k => { k with sr := srSetDepth k.sr 4, dsp := 0 })) 0 0
    ∧ ((withT (fun k => { k with dsp := 0 })).task 0 0).dsp.toNat < base.rd Reg.CORE_TASK_DSL_LIMIT 0 0 * 4 + 4
    ∧ base.winLen 0 0 ≤ (addrOf ((withT (fun k => { k with p := k.p.set 7 0x4000 })).task 0 0) ⟨7, .off 0⟩).toNat
    ∧ bundleReserved (BitVec.allOnes 256) = true
    ∧ ((after (.reservedEncoding 0 (BitVec.allOnes 256)) base).core 0).seq.fault.map (fun f => f.cause) = some 1 := by
  refine ⟨?_, ?_, ?_, ?_, ?_, ready_of ?_, ?_⟩ <;> decide +kernel

theorem witness_CoreControl : let s := base.modTask 0 5 (fun k => { k with st := .halted })
    let r := base.modTask 0 5 (fun k => { k with st := .ready })
    (s.core 0).seq.double = false ∧ s.rd Reg.MGMT_THERM_STAT_CRIT 0 0 = 0 ∧ (s.core 0).seq.bundle = none ∧ (s.task 0 5).st = .halted
    ∧ (r.task 0 5).job = none ∧ (r.core 0).seq.running ≠ some 5 ∧ ((after (.haltReq 0 5) r).task 0 5).st = .halted
    ∧ ((after (.releaseTask 0 5) s).task 0 5).st = .free ∧ (after (.irqSet 0 0xFFFF) s).rd Reg.CORE_IRQ_PEND_PEND 0 0 = 0xFFF0
    ∧ (s.core 0).vec.pwr = .down ∧ ((after (.vecCtrlWake 0) s).core 0).vec.pwr = .waking := by decide +kernel
theorem witness_CoreControl_timer : let s := (base.put Reg.CORE_TIMER_CMP_CMP 0 0 5).modSeq 0 (fun q => { q with timerArmed := true })
    let s := { s with ticks := s.ticks.set 0 5 }
    (s.core 0).seq.timerArmed = true ∧ s.rd Reg.CORE_TIMER_CMP_CMP 0 0 ≤ s.tick 0
    ∧ (after (.timerMatch 0) s).rd Reg.CORE_IRQ_PEND_PEND 0 0 = 16 := by decide +kernel
theorem witness_CoreControl_power : let s := withV []
    (s.core 0).vec.pwr = .on ∧ (s.put Reg.CORE_VEC_CTRL_PD_EN 0 0 1).rd Reg.CORE_VEC_CTRL_PD_EN 0 0 = 1 ∧ (s.core 0).vec.loads = []
    ∧ ((after (.vecPowerDown 0) (s.put Reg.CORE_VEC_CTRL_PD_EN 0 0 1)).core 0).vec.pwr = .down := by decide +kernel

def load (bad : Bool) : SLoad := { task := 0, pc := 0x100, dst := [(9, 7)], bad := bad, failed := false }
theorem witness_SequencerRows : let s := base.modSeq 0 (fun q => { q with loads := [load false], sbuf := [(8192, [1, 2])], pre := [] })
    let u := base.modSeq 0 (fun q => { q with loads := [load true] })
    0x100 + 64 ≤ base.winLen 0 0 ∧ (base.put Reg.CORE_SEQ_CTRL_LCACHE_EN 0 0 0).on Reg.CORE_SEQ_CTRL_LCACHE_EN 0 0 = false
    ∧ (∀ i : Fin 8, base.wordBad 0 ((8192 + 0x100) / 8 + i) = false)
    ∧ ((after (.lineFetch 0 0x100 []) (s.put Reg.CORE_SEQ_CTRL_LCACHE_EN 0 0 0)).core 0).seq.pre.map (fun e => e.1) = [(8192 + 0x100) / 64]
    ∧ (after (.storeBufferDrain 0 []) s).granBytes 0 8192 3 = [1, 2, 0] ∧ sAfter (.scalarLoadReturn 0 []) s 9 = 7
    ∧ ((after (.scalarLoadReturn 0 []) u).core 0).seq.fault.map (fun f => f.cause) = some 0x0A := by decide +kernel
theorem witness_SequencerRows_switch : let s := (second.modTask 0 6 (fun k => { k with st := .ready })).modSeq 0 (fun q => { q with running := none, last := 5 })
    (s.core 0).seq.double = false ∧ (s.core 0).seq.bundle = none ∧ s.on Reg.CORE_SEQ_CTRL_RUN 0 0 = true
    ∧ ((after (.taskSwitch 0) s).core 0).seq.running = some 6
    ∧ ((after (.taskSwitch 0) (second.put Reg.CORE_TASK_CFG_PRIO 0 5 1)).core 0).seq.running = some 5 := by decide +kernel
theorem witness_SequencerRows_long : let s := (withT (fun k => { k with wait := .row 9 191 })).put Reg.PIPE_CTRL_WAIT_LIMIT 0 0 1
    (s.task 0 0).wait = .row 9 191 ∧ (s.task 0 0).longTold = false ∧ s.rd Reg.PIPE_CTRL_WAIT_LIMIT 0 0 ≠ 0
    ∧ (after (.pipeWaitLong 0 0) s).events.map (fun e => e.args) = [[0, 191, 9]] := by decide +kernel

/-- A load at the last word of the window, and one from the store buffer; a store across a line. -/
theorem witness_ScalarMemory : let s := withG (withT (fun k => { k with p := k.p.set 7 0x3FFC })) (8192 + 0x3FFC) [1, 2, 3, 0x84]
    let buf := s.modSeq 0 (fun q => { q with sbuf := [(8192 + 0x3FF8, [8, 9, 10, 11, 12, 13, 14, 15])] })
    Ready s 0 0 ∧ Ready buf 0 0 ∧ (addrOf (s.task 0 0) ⟨7, .off 0⟩).toNat + 4 ≤ s.winLen 0 0 ∧ (s.core 0).seq.sbuf = [] ∧ s.granBad 0 (8192 + 0x3FFC) 4 = false
    ∧ ((after (.ldw hd 9 ⟨7, .off 0⟩) s).core 0).seq.loads.map (fun l => l.dst) = [[(9, 0x84030201)]]
    ∧ ((after (.ldh hd 9 ⟨7, .off 2⟩) s).core 0).seq.loads.map (fun l => l.dst) = [[(9, 0xFFFF8403)]]
    ∧ ((after (.ldw hd 9 ⟨7, .off 0⟩) buf).core 0).seq.loads.map (fun l => l.dst) = [[(9, 0x0F0E0D0C)]]
    ∧ (s.core 0).seq.sbuf.length ≤ 6 ∧ Claims.pieces 62 [1, 2, 3, 4] = [(62, [1, 2]), (64, [3, 4])]
    ∧ ((after (.push hd 9) base).core 0).seq.sbuf = [(8192 + 0x7FC, [0, 0, 0, 0])] := by
  refine ⟨ready_of ?_, ready_of ?_, ?_⟩ <;> decide +kernel

/-! ## Witnesses: vector operations -/

theorem witness_vecReady : Claims.vecReady (withV []) hd 0 := vecReady_of (by decide +kernel) (by decide +kernel)
theorem witness_vector_groups : Claims.dest false 24 8 ∧ Claims.dest true 16 8 ∧ Claims.dest true 30 1 ∧ Claims.srcOk 8 (.vec 24) ∧ Claims.apart 8 8 16 4
    ∧ Claims.act ((withV []).core 0) false 4095 = true ∧ Claims.act ((withV []).core 0) true 0 = false
    ∧ Claims.act ((withV [(31, 1)]).core 0) true 0 = true ∧ Fmt.u8 ∈ Claims.intFmts ∧ Fmt.fp32 ∈ Claims.laneFmts := by
  refine ⟨⟨by decide, by decide, by decide⟩, ⟨by decide, by decide, by decide⟩, ⟨by decide, by decide, by decide⟩, rfl, Or.inl (by decide), ?_⟩
  decide +kernel
theorem witness_VectorMemory : let s := withV [(31, 1)]
    let k := s.task 0 0
    let l : VLoad := { task := 0, pc := 0x100, regs := [(31, 5)], acc := some (3, 9), bad := none, failed := false }
    let r := s.modVec 0 (fun v => { v with loads := [l] })
    (addrOf k ⟨7, .off 0⟩).toNat + 4096 ≤ s.winLen 0 0 ∧ s.granBad 0 8192 (3072 + 63) = false ∧ l.failed = false ∧ l.bad = none
    ∧ ((after (.vectorLoadReturn 0 [] 0) r).core 0).vec.v.get 31 = 5
    ∧ ((after (.vectorLoadReturn 0 [] 0) (s.modVec 0 (fun v => { v with loads := [{ l with bad := some 4095 }] }))).core 0).vec.vfault = 0x80003FFF := by
  decide +kernel
/-- Of two loads in flight the later one may return first. -/
theorem witness_VectorMemory_later : let l : VLoad := { task := 0, pc := 0x100, regs := [(31, 5)], acc := none, bad := none, failed := false }
    let r := (withV []).modVec 0 (fun v => { v with loads := [{ l with regs := [(30, 7)] }, l] })
    ((after (.vectorLoadReturn 0 [] 1) r).core 0).vec.loads = [{ l with regs := [(30, 7)] }]
    ∧ ((after (.vectorLoadReturn 0 [] 1) r).core 0).vec.v.get 31 = 5 := by decide +kernel
theorem witness_sound : ∀ off n, Claims.sound ((withV []).core 0) off n := fun _ _ _ _ _ => ⟨rfl, rfl⟩
theorem witness_VectorIndexed : let s := withV [(8, 0x3FFC), (9, 2)]
    (∀ u, cellGet false (s.core 0).gran.poison u = false ∧ cellGet false (s.core 0).gran.flaws u = false) ∧ (Claims.elem (s.core 0).vec.v 8 32 0 + 4 ≤ s.winLen 0 0 ∧ Claims.elem (s.core 0).vec.v 8 32 0 % 4 = 0)
    ∧ Claims.elem (s.core 0).vec.v 9 32 0 % 4 ≠ 0 ∧ (8 : VReg).val % max 1 1 = 0 :=
  ⟨fun _ => ⟨rfl, rfl⟩, by decide +kernel⟩

/-! ## Witnesses: start-up, resets, flash and power -/

/-- Fuses with a life-cycle state by its bits, and no retirement. -/
def fused (n : Nat) (lc : BitVec 5) : State :=
  let s := boot n
  { s with sec := { s.sec with fuses := { s.sec.fuses with lc := Vector.replicate 3 lc, svn := 3, seg := 0, keyCheck := 0 } } }

theorem witness_BootPhases_order : ∀ n : Fin 10, 1 ≤ n.val → Claims.boots (boot n) n := by unfold Claims.boots; decide +kernel
theorem witness_BootPhases_first : (after .romStart (boot 1)).phase = 2 ∧ (after .links (boot 8)).phase = 9 := by decide +kernel
theorem witness_BootPhases_fuse : Claims.boots (fused 2 0x1F) 2 ∧ lcOf (fused 2 0x1F).sec.fuses.lcBits = lcEnded
    ∧ (after .fuse (fused 2 0x1F)).phase = 2 ∧ (after .fuse (fused 2 0x1F)).mgmt.halted = true := by
  unfold Claims.boots; decide +kernel
theorem witness_BootPhases_fuse_goes : lcOf (fused 2 0x03).sec.fuses.lcBits ≠ lcEnded ∧ (after .fuse (fused 2 0x03)).phase = 3
    ∧ (after .fuse (fused 2 0x03)).rd Reg.SEC_LC_STAT_STATE 0 0 = 2 ∧ (after .fuse (fused 2 0x03)).rd Reg.SEC_SVN_FLOOR 0 0 = 3 := by
  decide +kernel

/-- Phase 3 with a flash that holds the layout's magic. -/
def laidOut : State := { boot 3 with flash := bytesPut 0xFF [] 0 (leBytes 4 Config.layoutMagic.toNat) }

theorem witness_BootPhases_flash : Claims.boots laidOut 3 ∧ leNat (laidOut.flashBytes 0 4) = Config.layoutMagic.toNat := by
  refine ⟨?_, ?_⟩
  · unfold Claims.boots; decide +kernel
  · have h := bytesGet_bytesPut_self (0xFF : Byte) (leBytes 4 Config.layoutMagic.toNat) [] 0
    simp only [length_leBytes] at h
    show leNat (bytesGet 0xFF (bytesPut 0xFF [] 0 _) 0 4) = _
    rw [h, leNat_leBytes]
    exact Nat.mod_eq_of_lt (BitVec.isLt _)
theorem witness_BootPhases_flash_small : Claims.boots (boot 3) 3 ∧ ¬64 ≤ 63 ∧ (after (.flash 63) (boot 3)).mgmt.halted = true
    ∧ (after (.flash 63) (boot 3)).rd Reg.MGMT_BOOT_STAT_ERR 0 0 = 2 := by unfold Claims.boots; decide +kernel
theorem witness_BootPhases_image_none : Claims.boots (boot 4) 4 ∧ (boot 4).imgOrder = []
    ∧ (after .image (boot 4)).rd Reg.MGMT_BOOT_STAT_ERR 0 0 = 3 := by unfold Claims.boots; decide +kernel
theorem witness_BootPhases_cfg : Claims.boots (boot 5) 5 ∧ (boot 5).ledger.started = false := by unfold Claims.boots; decide +kernel
theorem witness_BootPhases_clocks : Claims.boots (boot 6) 6 ∧ (boot 6).rd Reg.MGMT_BOOT_STAT_ERR 0 0 ≠ 4
    ∧ ((boot 6).put Reg.MGMT_BOOT_STAT_ERR 0 0 4).rd Reg.MGMT_BOOT_STAT_ERR 0 0 = 4
    ∧ (after .clocks ((boot 6).put Reg.MGMT_BOOT_STAT_ERR 0 0 4)).mgmt.waiting = true := by unfold Claims.boots; decide +kernel
theorem witness_BootPhases_granary : (boot 6).held = false ∧ (boot 6).on Reg.GRAN_STAT_READY 5 0 = false
    ∧ (after (.granaryInit 5) (boot 6)).rd Reg.GRAN_STAT_READY 5 0 = 1 := by decide +kernel
theorem witness_BootPhases_dram : Claims.boots (boot 7) 7 ∧ (after .dramPgTimeout (boot 7)).rd Reg.MGMT_BOOT_STAT_ERR 0 0 = 1
    ∧ (after .dramPgTimeout (boot 7)).outbox = [.pin "DRAM_VPP_EN" true, .pin "DRAM_VDDQ_EN" true] := by unfold Claims.boots; decide +kernel
theorem witness_BootPhases_ready : Claims.boots (boot 9) 9 ∧ (boot 9).rd Reg.MGMT_BOOT_STAT_CONFIRMED 0 0 = 0
    ∧ (after (.ready 0x2_0000_0001) (boot 9)).events.map (fun e => (e.code, e.args)) = [(0x12A, [1, 2])] := by
  unfold Claims.boots; decide +kernel

/-- Phase 6 after a conflict, with the host asked to name a copy. -/
def asked : State := { boot 6 with mgmt := { (boot 6).mgmt with waiting := true } }

theorem witness_BootPhases_select : asked.held = false ∧ asked.mgmt.waiting = true ∧ ¬(BitVec.toNat (3 : BitVec 2) < 3)
    ∧ (after (.mgmtCfgSelGo 3) asked).rd Reg.MGMT_CFG_SEL_ERR 0 0 = 1 := by decide +kernel

theorem witness_Resets_release : State.reset.mgmt.resetLow = true ∧ State.reset.mgmt.railLow = [] ∧ State.reset.mgmt.tripped = false
    ∧ State.reset.mgmt.supplyFailed = false := by decide +kernel
theorem witness_Resets_fall : (boot 9).mgmt.resetLow = false := by decide +kernel
theorem witness_Resets_watchdog : 5 ≤ (boot 5).rd Reg.MGMT_BOOT_STAT_PHASE 0 0 ∧ (boot 5).held = false ∧ (boot 5).mgmt.waiting = false := by decide +kernel
theorem witness_Resets_trip : (boot 9).mgmt.tripped = false ∧ (boot 9).rd Reg.MGMT_CAL_STAT_FACTORY_BAD 0 0 = 0
    ∧ 880 ≤ BitVec.toInt (880 : BitVec 12)
    ∧ (after (.thermtrip 15 879) (boot 9)).phase = 9 ∧ (after (.thermtrip 16 880) (boot 9)).phase = 9 := by decide +kernel
theorem witness_Resets_rail : (boot 9).mgmt.railLow.contains 10 = false
    ∧ ({ boot 9 with mgmt := { (boot 9).mgmt with railLow := [10] } } : State).mgmt.railLow.contains 10 = true := by decide +kernel
theorem witness_Resets_supply : (boot 9).held = false ∧ (after .supplyFail (boot 9)).mgmt.supplyFailed = true := by decide +kernel

/-- The board of R467's worked example. -/
def board : State :=
  let s := ((boot 9).put Reg.MGMT_HOLDUP_CFG_CAP 0 0 1000).put Reg.MGMT_HOLDUP_CFG_VMIN 0 0 750
  (s.put Reg.MGMT_HOLDUP_PWR_RATIO 0 0 80).put Reg.MGMT_FLASH_TIME_T_ERASE 0 0 1000

/-- A store with flash commands under way. -/
def storing (cs : List FlashCmd) : State :=
  { (board.put Reg.SEC_LC_STAT_STATE 0 0 3).put Reg.SEC_LC_SHADOW_STATE 0 0 3 with
               sec := (fused 9 0x07).sec
               mgmt := { board.mgmt with stores := [{ area := 0, lines := 1, src := 0, begun := true, cmds := cs.map (fun c => (c, false)) }] } }

theorem witness_StoresAndFlash_request : (boot 9).fwRuns = true ∧ (boot 9).mgmt.resetLow = false ∧ areaLines 2 = 131072
    ∧ (after (.storeRequest 0 1024 0) (boot 9)).mgmt.stores.length = 1
    ∧ (after (.storeRequest 0 1025 0) (boot 9)).rd Reg.MGMT_STORE_STAT_CODE 0 0 = errBound := by decide +kernel
/-- R467's example: 8.0 J at 5.0 V suffice for an erase of 3.125 J, and 1.98 J at 3.6 V do not. -/
theorem witness_StoresAndFlash_issue : board.flashTime (.erase 0x10000) = 1000000 ∧ board.holdupOk 1000 1000000 = true
    ∧ board.holdupOk 720 1000000 = false ∧ board.holdupE 1000 = 8000 ∧ board.holdupNeed 1000000 = 3125
    ∧ (storing [.erase 0x10000]).flashRefused 0x10000 = false ∧ (storing []).rd Reg.MGMT_STORE_STAT_DEFERRED 0 0 = 0
    ∧ (after (.flashCommand 1000) (storing [.program 0x10000 [1, 2]])).flashBytes 0x10000 3 = [1, 2, 0xFF]
    ∧ (after (.flashCommand 720) (storing [.erase 0x10000])).rd Reg.MGMT_STORE_STAT_DEFERRED 0 0 = 1 := by decide +kernel
theorem witness_StoresAndFlash_refused : (storing [.erase 0x40000]).flashRefused 0x40000 = true
    ∧ (after (.flashCommand 1000) (storing [.erase 0x40000])).rd Reg.MGMT_STORE_STAT_CODE 0 0 = errBound := by decide +kernel
theorem witness_StoresAndFlash_deferred :
    (after (.flashCommand 720) (storing [.erase 0x10000])).rd Reg.MGMT_STORE_STAT_DEFERRED 0 0 = 1
    ∧ (after .storeTimeout (after (.flashCommand 720) (storing [.erase 0x10000]))).mgmt.stores = [] := by decide +kernel
theorem witness_StoresAndFlash_repair : let s := { storing [] with mgmt := { (storing []).mgmt with repair := [2], cfgBytes := [7] } }
    s.mgmt.repair = [2] ∧ s.lcFailed = false ∧ s.rd Reg.MGMT_BOOT_STAT_PHASE 0 0 = 9 ∧ (after .cfgRepaired s).flashBytes 0x30000 1 = [7] := by
  decide +kernel

/-- The ROM halted in phase IMAGE. -/
def halted : State :=
  let s := (fused 4 0x01).put Reg.MGMT_BOOT_STAT_ERR 0 0 3
  { s with mgmt := { s.mgmt with halted := true } }

theorem witness_StoresAndFlash_rom : halted.mgmt.halted = true ∧ halted.rd Reg.MGMT_BOOT_STAT_ERR 0 0 = 3 ∧ halted.held = false
    ∧ halted.flashRefused 0x80100 = false
    ∧ (after (.flashAccess 1 0x80123 (List.replicate 256 9)) halted).flashBytes 0x80100 1 = [0xFF] := by decide +kernel

/-- Twenty sensors, number 3 the hottest of the first sixteen, in eighths of a degree. -/
def temps (x : BitVec 12) : List (BitVec 12) := (List.range 20).map (fun j => if j = 3 then x else 200)

theorem witness_PowerAndSmbus_sample : (boot 9).fwRuns = true ∧ (boot 9).held = false ∧ (temps 840).length = 20
    ∧ (∀ i : Fin 16, ((temps 840).getD i 0).toInt < ((temps 840).getD 3 0).toInt
        ∨ (((temps 840).getD i 0).toInt = ((temps 840).getD 3 0).toInt ∧ 3 ≤ i.val))
    ∧ (after (.powerSample (temps 840)) (boot 9)).rd Reg.MGMT_THERM_STAT_HOT_SENS 0 0 = 3 := by decide +kernel
theorem witness_PowerAndSmbus_vcore : 6 ≤ (boot 9).rd Reg.MGMT_BOOT_STAT_PHASE 0 0 ∧ (boot 9).held = false
    ∧ ((boot 9).put Reg.MGMT_PWR_STAT_VCORE_MV 0 0 745).rd Reg.MGMT_PWR_STAT_VCORE_MV 0 0 = 745
    ∧ (after (.vcoreStep true) ((boot 9).put Reg.MGMT_PWR_STAT_VCORE_MV 0 0 745)).rd Reg.MGMT_PWR_STAT_VCORE_MV 0 0 = 750
    ∧ (after (.vcoreStep false) ((boot 9).put Reg.MGMT_PWR_STAT_VCORE_MV 0 0 555)).rd Reg.MGMT_PWR_STAT_VCORE_MV 0 0 = 550 := by decide +kernel
theorem witness_PowerAndSmbus_monitor : (3 : Fin 12).val ∉ [0, 1, 2, 10] ∧ (boot 9).held = false ∧ (boot 9).mgmt.alert = false
    ∧ (after (.railMonitorFlag 3 true 1234) (boot 9)).mgmt.alert = true
    ∧ (after .smbAlertResponse (after (.railMonitorFlag 3 true 1234) (boot 9))).mgmt.alert = false := by decide +kernel
theorem witness_PowerAndSmbus_smb : 2 ≤ (boot 2).rd Reg.MGMT_BOOT_STAT_PHASE 0 0
    ∧ (after .smbReadLcState (storing [])).outbox = [.smb (some [3])] ∧ (after (.smbOtherCommand 8) (boot 9)).outbox = [.smb none] := by
  decide +kernel

/-! ## Witnesses: security, Assay, events and the Ledger -/

/-- A device in a life-cycle state with known fuses, on the board of R467's example. -/
def cycle (n : Nat) : State :=
  { board.put Reg.SEC_LC_SHADOW_STATE 0 0 n with
    sec := { (fused 9 (BitVec.ofNat 5 (2 ^ n - 1))).sec with fuses := { (fused 9 (BitVec.ofNat 5 (2 ^ n - 1))).sec.fuses with fwPk := 1, secret := 0 } } }

/-- `cycle` with operations of the fuse banks waiting. -/
def fusing (n : Nat) (ops : List FuseOp) : State := { cycle n with sec := { (cycle n).sec with ops := ops } }

theorem witness_LifeCycleAndFuses_up : (cycle 0).lcState = 0 ∧ (cycle 0).sec.fuses.fwPk ≠ 0 ∧ (cycle 0).sec.target = none
    ∧ (cycle 0).lcFailed = false ∧ (after (.secLcReq 1 .host) (cycle 0)).sec.target = some 1
    ∧ (after (.secLcReq 1 .host) (cycle 0)).sec.ops.length = 3 := by decide +kernel
theorem witness_LifeCycleAndFuses_end : (cycle 4).lcState = 4 ∧ (after (.secLcReq 5 (.carter 0 0)) (cycle 4)).sec.target = some 5
    ∧ (after (.secLcReq 5 .host) (cycle 4)).sec.ops = [] := by decide +kernel
/-- In TEST no transition leads to PROVISION. -/
theorem witness_LifeCycleAndFuses_refused : (cycle 2).lcState = 2 ∧ (∀ e ∈ [(0, 1), (1, 2), (2, 3), (3, 4), (0, 5), (1, 5), (2, 5), (3, 5), (4, 5)],
      2 = e.1 → 1 ≠ e.2)
    ∧ (after (.secLcReq 1 .host) (cycle 2)).rd Reg.SEC_LC_STAT_REQ_CODE 0 0 = errBound := by decide +kernel
theorem witness_LifeCycleAndFuses_floor : let s := { (cycle 3) with mgmt := { (cycle 3).mgmt with imgSvn := 64 } }
    s.rd Reg.SEC_SVN_FLOOR 0 0 < 64 ∧ 64 ≤ s.mgmt.imgSvn ∧ s.lcState ≠ lcEnded ∧ (after (.secSvnRaise 64) s).sec.ops = [.svn 64]
    ∧ (after (.secSvnRaise 65) s).rd Reg.SEC_LC_STAT_REQ_CODE 0 0 = errBound := by decide +kernel
theorem witness_LifeCycleAndFuses_program : (fusing 3 [.svn 5]).sec.ops = [.svn 5] ∧ (fusing 3 []).mgmt.resetLow = false
    ∧ (fusing 3 []).holdupOk 1000 5000 = true ∧ (fusing 3 []).holdupOk 600 5000 = false
    ∧ (after (.fuseProgram 1000) (fusing 3 [.svn 5])).sec.fuses.svn = 5
    ∧ (after (.fuseProgram 1000) (fusing 3 [.lc 2 4])).sec.fuses.lc.get 2 = 0x0F
    ∧ 0 ∈ (after (.fuseProgram 600) (fusing 3 [.svn 5])).sec.deferred := by decide +kernel
theorem witness_LifeCycleAndFuses_ended : ({ cycle 3 with sec := { (cycle 3).sec with target := some 5 } } : State).sec.target = some 5 := by
  decide +kernel

theorem witness_KeysAndLeaves_keygen : (cycle 1).lcState = lcProvision ∧ (cycle 1).rd Reg.SEC_KEY_STAT_PRESENT 0 0 ≠ 1
    ∧ (cycle 1).holdupOk 1000 400000 = true ∧ (cycle 2).lcState ≠ lcProvision
    ∧ (after (.secKeygen 1000) (cycle 2)).rd Reg.SEC_LC_STAT_REQ_CODE 0 0 = errBound := by decide +kernel

/-- A deployed device with its key in use: next leaf and the reservation's mark. -/
def keyed (next mark : Nat) : State :=
  let s := ((cycle 3).put Reg.SEC_KEY_STAT_PRESENT 0 0 1).put Reg.SEC_KEY_STAT_READY 0 0 1
  let s := (s.put Reg.SEC_XMSS_NEXT_LEAF 0 0 next).put Reg.SEC_XMSS_RSV_NEXT_LEAF 0 0 mark
  { s with sec := { s.sec with resumed := true, signQ := [{ tag := 1, session := 0, report := [], tail := [] }] } }

theorem witness_KeysAndLeaves_rebuild : (keyed 0 1024).fwRuns = true ∧ (keyed 0 1024).rd Reg.SEC_KEY_STAT_PRESENT 0 0 = 1
    ∧ (keyed 0 1024).rd Reg.SEC_KEY_STAT_BAD 0 0 ≠ 1 := by decide +kernel
theorem witness_KeysAndLeaves_rebuild_good : ∃ s : State, Config.shake256 s.sec.fuses.secretBytes = s.sec.fuses.keyCheck :=
  ⟨{ keyed 0 1024 with sec := { (keyed 0 1024).sec with fuses := { (keyed 0 1024).sec.fuses with
      keyCheck := Config.shake256 (keyed 0 1024).sec.fuses.secretBytes } } }, rfl⟩
theorem witness_KeysAndLeaves_sign : (keyed 1023 1024).sec.signQ.length = 1 ∧ (keyed 1023 1024).signDisabled = false
    ∧ (keyed 1023 1024).rd Reg.SEC_KEY_STAT_READY 0 0 = 1 ∧ (keyed 1023 1024).sec.resumed = true
    ∧ (keyed 1023 1024).rd Reg.SEC_XMSS_NEXT_LEAF 0 0 < (keyed 1023 1024).rd Reg.SEC_XMSS_RSV_NEXT_LEAF 0 0
    ∧ (keyed 1023 1024).nextRsv ≤ 2 ^ 40 := by decide +kernel
theorem witness_KeysAndLeaves_reserve : let s := { keyed 5 1024 with sec := { (keyed 5 1024).sec with reserve := true } }
    s.sec.reserve = true ∧ s.mgmt.resetLow = false ∧ s.nextRsv ≤ 2 ^ 40 ∧ s.holdupOk 1000 (max (s.flashTime (.erase 0)) 5000) = true := by decide +kernel
theorem witness_KeysAndLeaves_disabled : ((keyed 0 1024).put Reg.SEC_KEY_STAT_EXHAUSTED 0 0 1).signDisabled = true
    ∧ (after .signature ((keyed 0 1024).put Reg.SEC_KEY_STAT_EXHAUSTED 0 0 1)).sec.signQ = [] := by decide +kernel
theorem witness_KeysAndLeaves_resume : let s := { keyed 0 0 with sec := { (keyed 0 0).sec with resumed := false } }
    s.fwRuns = true ∧ s.sec.resumed = false ∧ (after .secLeafResume s).sec.resumed = true := by decide +kernel

/-- READY with the Assay engine scheduling all cores. -/
def assayed : State := ((cycle 3).put Reg.ASSAY_CTRL_EN 0 0 1).put Reg.ASSAY_SCHED_CORE_MASK 0 0 0x3F

theorem witness_AssaySlices_notice : assayed.rd Reg.ASSAY_CTRL_EN 0 0 = 1 ∧ assayed.coreOk 5 = true
    ∧ (assayed.rd Reg.ASSAY_SCHED_CORE_MASK 0 0).testBit 5 = true ∧ assayed.rd Reg.MGMT_BOOT_STAT_PHASE 0 0 = 9
    ∧ (5 : CoreId).val ∉ assayed.assay.noticed
    ∧ (after (.assayNotice 5 7) assayed).rd Reg.ASSAY_STAT_STATE 0 0 = 1
    ∧ (after (.assayStartTime 5) (after (.assayNotice 5 7) assayed)).rd Reg.ASSAY_STAT_STATE 0 0 = 2 := by decide +kernel

/-- A slice of core 5 that waits for its start, and one that runs. -/
def slice (n : Nat) : State := (assayed.put Reg.ASSAY_STAT_STATE 0 0 n).put Reg.ASSAY_STAT_CORE 0 0 5

theorem witness_AssaySlices_start : (slice 2).rd Reg.ASSAY_STAT_STATE 0 0 = 2 ∧ (slice 2).coreIdle 5 = true
    ∧ (slice 2).rd Reg.ASSAY_PWR_NEED 0 0 ≤ ((slice 2).put Reg.ASSAY_PWR_HEADROOM 0 0 1000).rd Reg.ASSAY_PWR_HEADROOM 0 0
    ∧ (after .assayStart ((slice 2).put Reg.ASSAY_PWR_HEADROOM 0 0 1000)).rd Reg.ASSAY_STAT_STATE 0 0 = 3 := by decide +kernel
theorem witness_AssaySlices_skip : ¬((slice 2).rd Reg.ASSAY_PWR_NEED 0 0 ≤ (slice 2).rd Reg.ASSAY_PWR_HEADROOM 0 0)
    ∧ (after .assaySkipped (slice 2)).rd Reg.ASSAY_STAT_RESULT 0 0 = 3
    ∧ (after .assaySkipped (slice 2)).rd Reg.ASSAY_CORE_SKIPS 0 5 = 1 := by decide +kernel
theorem witness_AssaySlices_end : (slice 3).rd Reg.ASSAY_STAT_STATE 0 0 = 3 ∧ (slice 3).rd Reg.ASSAY_STAT_CORE 0 0 = 5
    ∧ (slice 3).coreOk 5 = true ∧ (after (.assaySliceEnd (.clean [])) (slice 3)).rd Reg.ASSAY_STAT_RESULT 0 0 = 1
    ∧ (after (.assaySliceEnd (.logic 1 2 3)) (slice 3)).coreOk 5 = false := by decide +kernel
theorem witness_AssaySlices_request : (cycle 2).lcState ∈ [lcBlank, lcTest, lcReturned] ∧ (cycle 2).lcFailed = false
    ∧ (cycle 2).rd Reg.ASSAY_STAT_STATE 0 0 < 2 ∧ (after (.assayReq .jtag 5) (cycle 2)).rd Reg.ASSAY_STAT_CORE 0 0 = 5
    ∧ (after (.assayReq .jtag 5) (cycle 3)).rd Reg.ASSAY_STAT_REQ_ERR 0 0 = 1 := by decide +kernel
theorem witness_AssaySlices_retire : (cycle 3).coreOk 5 = true ∧ (after (.assayRetire 5) (cycle 3)).coreOk 5 = false
    ∧ (after (.assayRetire 5) (cycle 3)).coreOk 4 = true := by decide +kernel
theorem witness_AssaySlices_window : let s := (cycle 3).put Reg.ASSAY_FUSE_BUSY 0 0 1
    s.fwRuns = true ∧ s.mgmt.resetLow = false ∧ s.lcState ≠ lcEnded ∧ s.rd Reg.ASSAY_FUSE_BUSY 0 0 = 1 ∧ s.holdupOk 1000 5000 = true
    ∧ s.holdupOk 600 5000 = false ∧ (after (.fuseWindow 1000) s).rd Reg.ASSAY_FUSE_BUSY 0 0 = 0
    ∧ (after (.fuseWindow 600) s).rd Reg.ASSAY_FUSE_BUSY 0 0 = 1 ∧ (cycle 5).lcState = lcEnded := by decide +kernel

/-- An event waits at the arbiter. -/
def waiting : State :=
  { boot 9 with events := [{ code := 0x12A, source := 3, dom := 6, tick := 5, args := [1], input := 6 }],
                ledger := { Ledger.reset with started := true } }

theorem witness_EventsAndLedger_grant : waiting.ledger.started = true ∧ waiting.events.length = 1
    ∧ (waiting.events.map (fun e => e.input)) = [6] ∧ waiting.ledger.ring.length < 8192
    ∧ (after .eventGrant waiting).ledger.next = 1 ∧ (after .eventGrant waiting).events = []
    ∧ (after .eventGrant waiting).ledger.ring.length = 1 := by decide +kernel

/-- One record in the Ledger's ring, and the host event ring 2 of four slots at line 16 of the DRAM. -/
def copying : State :=
  let s := ((((boot 9).put Reg.HOST_EVT_CFG_EN 0 0 1).put Reg.HOST_EVT_CFG_RING 0 0 2).put Reg.HOST_RING_BASE_ADDR 0 2 16).put
    Reg.HOST_RING_CFG_LOG2SZ 0 2 2
  wins 8 { s with ledger := { Ledger.reset with started := true, next := 1, ring := [{ seq := 0, sev := 0, line := 0xAB }] } }

theorem witness_EventsAndLedger_copy : (copying.ledger.ring.map (fun r => r.seq)) = [copying.ledger.copyNext]
    ∧ copying.ledger.copyNext < copying.ledger.next ∧ copying.rd Reg.HOST_EVT_CFG_EN 0 0 = 1 ∧ 1 ≤ (copying.ringIdx (.host 2)).free
    ∧ copying.useGrants 8 (copying.transfers true 0x400 64) ≠ none ∧ (copying.dramReach 8 0x400).1 = codeOk
    ∧ (after .ledgerCopy copying).dramBytes 0x400 2 = [0xAB, 0] ∧ (after .ledgerCopy copying).rd Reg.HOST_RING_TAIL_TAIL 0 2 = 1 := by
  decide +kernel
theorem witness_EventsAndLedger_spill : let j : JEntry := { kind := .retire 1, line := 5, spilled := false, fused := false }
    let s := { boot 9 with ledger := { Ledger.reset with started := true, journal := [j] } }
    s.ledger.journal.filter (fun x => !x.spilled) = [j] ∧ s.ledger.pseq % 256 = 0 := by decide +kernel
theorem witness_EventsAndLedger_dump : BitVec.toNat (1 : BitVec 12) ≠ 0 ∧ (boot 9).rangeOk 0 256 = true
    ∧ BitVec.toNat (192511 : BitVec 18) + 1 ≤ 192512
    ∧ (∀ i : Fin 4, ((boot 9).dramReach 9 (i.val * 64)).1 = codeOk)
    ∧ (after (.ledgerDump 0 0) (boot 9)).rd Reg.LEDGER_STAT_DUMP_CODE 0 0 = errBound := by decide +kernel

/-! ## Witnesses: the Loom, the Tally and the Granary -/

theorem witness_LoomRuns_issue : Ready base 0 0 ∧ hd.last = true ∧ 0x3FC0 / 64 * 64 + 64 ≤ base.winLen 0 0 ∧ (base.core 0).seq.sbuf = []
    ∧ (base.core 0).loom.jobs.countP (fun j => j.phase == .queued) < 4
    ∧ ((after (.ljob hd 0 0x3FFF) base).core 0).loom.jobs.map (fun j => (j.addr, j.tile)) = [(8192 + 0x3FC0, false)]
    ∧ ((after (.ltile hd 0 0x3FFF) base).core 0).loom.jobs.map (fun j => (j.addr, j.tile)) = [(8192 + 0x3FC0, true)] := by
  refine ⟨ready_of ?_, ?_⟩ <;> decide +kernel

/-- A job of one S8 tile of one row and one column: weights at 0x100, activation descriptor at 0x40, one output row at 0x200. -/
def jobDesc : Line := line [(16, 0x33), (24, 3), (48, 1), (96, 1), (128, 0x100), (160, 0x40), (192, 0x40), (224, 0x200), (256, 64)]

def unit_ : Qsf := ⟨0, 0, 0, 0x3F800000⟩

/-- That job, queued or further on. -/
def job (ph : LoomPhase) (loaded swapped streamed drained : Nat) : LoomJob :=
  { id := 7, tile := false, task := 0, addr := 8192, arith := 0, phase := ph, winBase := 8192, winLen := 0x4000, desc := jobDesc, act := 0,
    qsfA := unit_, qsfW := [unit_], qsfO := [unit_], skip := false, observes := false, latched := false, loaded := loaded,
    swapped := swapped, streamed := streamed, drained := drained, code := 0, sat := 0, nan := 0, bad := false, zcRow := none, flags := 0 }

/-- Core 0 with one job and the planes as given; the job's descriptor and weight lie in its window. -/
def loomed (j : LoomJob) (back front : Option (Nat × Nat)) : State :=
  let s := withG (withG base 8192 (lineBytes jobDesc)) (8192 + 0x100) [5]
  s.setCore 0 { s.core 0 with loom := { (s.core 0).loom with jobs := [j], back := back, front := front, backW := [(0, 0x81400)] } }

theorem witness_LoomRuns_setup : let s := loomed (job .queued 0 0 0 0) none none
    Claims.first s 0 (fun j => j.phase == .queued) (job .queued 0 0 0 0) ∧ s.rd Reg.LOOM_CTRL_EN 0 0 = 1
    ∧ s.granBad 0 8192 64 = false ∧ s.granBad 0 (8192 + 0x40) 64 = false
    ∧ (((after (.loomSetup 0) s).core 0).loom.jobs.map (fun j => j.desc)) = [jobDesc] := by
  unfold Claims.first; decide +kernel
/-- 5 with zero point 0 and scale 1 is the C21 code of 5.0. -/
theorem witness_LoomRuns_load : let s := loomed (job .active 0 0 0 0) none none
    Claims.first s 0 (fun j => j.phase == .active && decide (j.loaded < jobKT j.desc)) (job .active 0 0 0 0)
    ∧ (job .active 0 0 0 0).runs = true ∧ jobSplit jobDesc = false ∧ s.granBad 0 (8192 + 0x100) 128 = false
    ∧ ((after (.weightLoad 0 0) s).core 0).loom.back = some (7, 0)
    ∧ cellGet 0 ((after (.weightLoad 0 0) s).core 0).loom.backW 0 = 0x81400 := by
  unfold Claims.first; decide +kernel
theorem witness_LoomRuns_swap : let s := loomed (job .active 1 0 0 0) (some (7, 0)) none
    Claims.first s 0 (fun j => j.runs && decide (j.swapped < j.loaded)) (job .active 1 0 0 0) ∧ s.accHeld 0 (job .active 1 0 0 0) = false
    ∧ (s.core 0).loom.back = some (7, 0) ∧ ((after (.planeSwap 0 0 0) s).core 0).loom.front = some (7, 0)
    ∧ ((after (.planeSwap 0 0 0) s).core 0).loom.frontW = [(0, 0x81400)] := by
  unfold Claims.first; decide +kernel
theorem witness_LoomRuns_stream : let s := loomed (job .active 1 1 0 0) none (some (7, 0))
    Claims.first s 0 (fun j => j.runs && decide (j.streamed < j.swapped)) (job .active 1 1 0 0) ∧ (s.core 0).loom.front = some (7, 0)
    ∧ (∀ f ∈ s.tileElems { core := 0, base := 8192, d := jobDesc, a := 0, qsf := unit_ } 0 0,
        f.beyond = none ∧ ∀ r ∈ f.reads, s.granBad 0 r.1 r.2 = false)
    ∧ ((after (.tileStream 0 1 0 0 0) s).core 0).loom.front = none := by
  unfold Claims.first; decide +kernel
theorem witness_LoomRuns_drain : let s := loomed (job .active 1 1 1 0) none none
    Claims.first s 0 (fun j => j.phase == .active && decide (j.drained < j.streamed)) (job .active 1 1 1 0)
    ∧ jobOutEn jobDesc = false ∧ ((after (.loomDrain 0) s).core 0).loom.jobs.map (fun j => (j.phase, j.code)) = [(.ended, codeOk)] := by
  unfold Claims.first; decide +kernel

/-- The drained job with its output enabled. -/
def outJob : LoomJob := { job .active 1 1 1 1 with desc := jobDesc ||| line [(28, 1)] }

theorem witness_LoomEnds_output : let s := loomed outJob none none
    Claims.first s 0 (fun j => j.phase == .active && jobOutEn j.desc) outJob ∧ outJob.runs = true ∧ outJob.drained = jobKT outJob.desc
    ∧ jobOsc outJob.desc ≠ 2 ∧ jobM outJob.desc = 1
    ∧ ((after (.outputStage 0 0 0) s).core 0).loom.jobs.map (fun j => j.phase) = [.ended] := by
  unfold Claims.first; decide +kernel
theorem witness_LoomEnds_complete : let s := loomed (job .ended 1 1 1 1) none none
    ((s.core 0).loom.jobs.map (fun j => j.id)).Nodup ∧ ((after (.loomJobComplete 0) s).core 0).loom.jobs = []
    ∧ (after (.loomJobComplete 0) s).granBytes 0 (8192 + 56) 4 = [BitVec.ofNat 8 codeOk, 0x80, 1, 0] := by decide +kernel
theorem witness_LoomEnds_poison : let j := { job .active 0 0 0 0 with bad := true }
    Claims.first (loomed j none none) 0 (fun j => j.phase == .active && j.bad) j
    ∧ ((after (.loomEccUncorr 0) (loomed j none none)).core 0).loom.jobs.map (fun j => j.code) = [errEcc] := by
  unfold Claims.first; decide +kernel
theorem witness_LoomEnds_over : let j := { job .active 0 0 0 0 with zcRow := some 9 }
    Claims.first (loomed j none none) 0 (fun j => j.phase == .active && j.zcRow == some 9) j
    ∧ (after (.agenZcOver 0 9) (loomed j none none)).rd Reg.AGEN_ZC_OVER_CNT_COUNT 0 0 = 1 := by
  unfold Claims.first; decide +kernel

/-- Tally slot 255 of core 0 in a state. -/
def tallied (k : TallySlot) : State := base.setSlot 0 255 k

theorem witness_TallyAndGranaryRows_close : let k := { TallySlot.idle with isOpen := true, full := true, latched := 1, done := 1 }
    ((tallied k).slot 0 255) = k ∧ ((after (.tallyStepClose 0 255) (tallied k)).slot 0 255).closed = true := by decide +kernel
theorem witness_TallyAndGranaryRows_full : let k := { TallySlot.idle with isOpen := true, latched := 1 }
    ((tallied k).slot 0 255) = k ∧ ((after (.tallyClose 0 255) (tallied k)).slot 0 255).full = true
    ∧ ((after (.tallyClose 0 255) (tallied TallySlot.idle)).slot 0 255).closed = true := by decide +kernel
theorem witness_TallyAndGranaryRows_propose :
    let k := { TallySlot.idle with isOpen := true, full := true, closed := true, tot := 1, mx := some 0x3F800000, mn := some 0 }
    ((tallied k).slot 0 255) = k ∧ (after (.tallyProposal 0 255) (tallied k)).rd Reg.TALLY_SLOT_OMAX_MAX 0 255 = 0x3F800000
    ∧ (after (.tallyProposal 0 255) (tallied { k with tot := 0 })).rd Reg.TALLY_SLOT_PSTAT_EMPTY 0 255 = 1 := by decide +kernel
theorem witness_TallyAndGranaryRows_repair : let s := after (.granRepairReq 0 31 32767) base
    (31, 32767) ∈ (s.core 0).gran.repairReq ∧ (s.core 0).gran.repairs = [] ∧ (s.put Reg.GRAN_SPARE_FREE3 0 7 0).rd Reg.GRAN_SPARE_FREE3 0 7 = 0
    ∧ (s.put Reg.GRAN_SPARE_FREE3 0 7 2).rd Reg.GRAN_SPARE_FREE3 0 7 = 2
    ∧ (after (.rowRepair 0 31 32767) (s.put Reg.GRAN_SPARE_FREE3 0 7 2)).rd Reg.GRAN_SPARE_FREE3 0 7 = 1
    ∧ (after (.rowRepair 0 31 32767) (s.put Reg.GRAN_SPARE_FREE3 0 7 0)).events.map (fun e => e.code) = [0xC04] := by decide +kernel
theorem witness_TallyAndGranaryRows_fill : let s := (withG base 0x3FFFF [1, 2]).modGran 0 (fun g => { g with fill := [1] })
    (s.core 0).gran.fill = [1] ∧ (after (.regionFill 0) s).granBytes 0 0x3FFFF 2 = [1, 0] := by decide +kernel
theorem witness_TallyAndGranaryRows_scrub : let s := base.put Reg.GRAN_STAT_READY 0 0 1
    let one := fun u => s.modGran 0 (fun g => { g with flaws := [(u, true)] })
    let bad := s.modGran 0 (fun g => { g with poison := [(3, true)] })
    s.rd Reg.GRAN_SCRUB_CTRL_EN 0 0 = 1 ∧ s.rd Reg.GRAN_STAT_READY 0 0 = 1 ∧ s.granBad 0 0 64 = false ∧ bad.granBad 0 0 64 = true
    ∧ (after (.scrubLine 0 [] true) s).rd Reg.GRAN_SCRUB_POS_LINE 0 0 = 1 ∧ (after (.scrubLine 0 [] true) (one 7)).rd Reg.GRAN_CE_CNT_COUNT 0 0 = 1
    ∧ (after (.scrubLine 0 [] true) (one 8)).rd Reg.GRAN_CE_CNT_COUNT 0 0 = 0 ∧ (after (.scrubLine 0 [] true) bad).rd Reg.GRAN_UE_CNT_COUNT 0 0 = 1 := by
  decide +kernel
/-- The first region is of the weight class, and its first line's stored CRC is not the line's. -/
theorem witness_TallyAndGranaryRows_crc : let s := base.put Reg.GRAN_STAT_READY 0 0 1
    let s := (s.put Reg.GRAN_PCLASS_CLASS 0 0 1).modGran 0 (fun g => { g with crc := [(0, 1)] })
    s.weightClass 0 0 = true ∧ s.storedCrc 0 0 ≠ lineCrc (s.granBytes 0 0 64)
    ∧ (after (.scrubLine 0 [] true) s).rd Reg.GRAN_CRC_FAIL_CNT_COUNT 0 0 = 1 ∧ (after (.scrubLine 0 [] true) s).wordBad 0 7 = true := by decide +kernel

/-- A write of two bytes to line 31 of the Granary of core 0 that its Tollgate has granted. -/
def granted : State :=
  { base with reqs := [{ tag := 3, sender := .carter 1 0 0 0, write := true, remote := false, bad := false, err := 0, dead := false,
                         parts := [{ addr := 0x40_0000_0000 + 31 * 64, len := 2, data := [8, 9], stage := .granted, age := 0, tries := 0 }] }] }

theorem witness_TallyAndGranaryRows_grant : granted.reqs.length = 1 ∧ placeOf (0x40_0000_0000 + 31 * 64) = .gran 0 1984 ∧ 1984 / 64 % 32 = 31
    ∧ (after (.untimedGrant 0 31 true 0 9) granted).granBytes 0 1984 2 = [8, 9] := by decide +kernel
/-- With EXT_AGE 9 the request goes before a Loom request once it has waited 9 cc; an access of the Hopper that has waited so long goes
before one that has not. -/
theorem witness_TallyAndGranaryRows_ages : let s := granted.put Reg.GRAN_ARB_EXT_AGE 0 0 9
    (after (.untimedGrant 0 31 true 1 9) s).granBytes 0 1984 2 = [8, 9] ∧ (after (.untimedGrant 0 31 true 1 8) s).granBytes 0 1984 2 = [0, 0]
    ∧ (after (.untimedGrant 0 31 true 1 8) s).rd Reg.GRAN_EXT_WAIT_COUNT 0 0 = 9
    ∧ (after (.untimedGrant 0 31 true 1 8) s).rd Reg.GRAN_LOOM_WAIT_COUNT 0 0 = 8
    ∧ (after (.untimedGrant 0 31 true 0xC0 8) s).granBytes 0 1984 2 = [0, 0] ∧ (after (.untimedGrant 0 31 true 0xC0 9) s).granBytes 0 1984 2 = [8, 9]
    ∧ (after (.untimedGrant 0 31 true 0xC0 9) s).rd Reg.GRAN_EXT_WAIT_COUNT 0 0 = 10 := by decide +kernel

/-! ## Witnesses: the Hopper, the pipeline, the Sieve and the rings -/

/-- Camera 15, delivered as 8 bits from Mono8, streaming, with rows of its first swath in the pool. -/
def camera (rows : List PoolRow) : State :=
  let s := ((boot 9).put Reg.HOP_CTRL_EN 0 0 1).put Reg.HOP_CAM_STAT_STATE 0 15 3
  s.modCam 15 (fun k => { k with hdrX := 100, hdrY := 2, hdrSrc := some .mono8, swath := 1, nextRow := rows.length, rows := rows })

/-- A row of 100 pixels of which two have arrived or all of it. -/
def row (n : Nat) (isOpen : Bool) : PoolRow :=
  { row := n, swath := 1, shown := 1, deliv := 0, plan := 0, tick := 5, xsize := 100, pixels := [1, 2], isOpen := isOpen, crcErr := false, lenErr := false, last := false, conns := 1,
    lostTotal := 0, loss := 0, blocks := 1, todo := [], dram := false }

theorem witness_CameraLines_header : (camera []).rd Reg.HOP_CTRL_EN 0 0 = 1 ∧ (camera []).rd Reg.HOP_CAM_STAT_STATE 0 15 = 3
    ∧ ((after (.imageHeader 15 200 3 .mono10) (camera [row 0 false])).cam 15).swath = 2 := by decide +kernel
theorem witness_CameraLines_marker : ((camera []).cam 15).linkLost = false ∧ ((camera []).cam 15).hdrSrc.map monoCode = some 0
    ∧ (camera []).rd Reg.HOP_CAM_CFG_SRC 0 15 = 0 ∧ 0 < ((camera []).cam 15).hdrX ∧ ((camera []).cam 15).runFull = false
    ∧ (camera []).poolAdmits 15 (blocksFor 100 8) = true
    ∧ ((after (.lineMarker 15 0) (camera [])).cam 15).rows.map (fun x => (x.row, x.isOpen, x.blocks)) = [(0, true, 1)] := by decide +kernel
theorem witness_CameraLines_lost : let s := (camera []).modCam 15 (fun k => { k with linkLost := true })
    (s.cam 15).linkLost = true ∧ (s.cam 15).lastLost = false ∧ (s.cam 15).runs.length < 64
    ∧ (after (.lineMarker 15 0) s).events.map (fun e => e.args) = [[15, 1, 0, 3]] := by decide +kernel
theorem witness_CameraLines_packet : (row 0 false).isOpen = false ∧ (row 1 true).isOpen = true
    ∧ ((after (.streamPacket 15 [0xFF7] false) (camera [row 0 false, row 1 true])).cam 15).rows.map (fun x => (x.pixels, x.crcErr))
        = [([1, 2], false), ([1, 2, 0xF7], true)] := by decide +kernel

/-- Ring 3 of core 5 takes two pixels of camera 15 from the first on, into four rows of one line at line 2; headers go to line 32. -/
def fed (todo : List PieceTodo) (rel : Nat) : State :=
  let s := camera [{ row 0 false with todo := todo }]
  let s := (((s.put Reg.GRAN_RING_BASE_BASE 5 3 2).put Reg.GRAN_RING_SHAPE_PITCH 5 3 1).put Reg.GRAN_RING_SHAPE_ROWS 5 3 4).put Reg.PIPE_RING_REL_REL 5 3 rel
  let s := (s.put Reg.HOP_PIECEW_PIECE_W 0 5 2).put Reg.HOP_PIECEH_HDR_BASE 0 5 32
  let s := s.put Reg.GRAN_STAT_READY 5 0 1
  s.setPipe 5 3 { cam := some 15, plan := 0, swath := 1, ends := [], valid := true }

theorem witness_CameraLines_piece : let s := wins 6 (fed [{ core := 5, pixels := false }] 0)
    s.nextPiece 5 3 false = some (15, { row 0 false with todo := [{ core := 5, pixels := false }] }) ∧ (s.pipe 5 3).valid = true
    ∧ s.useGrants 6 (s.transfers true (granAddr 5 128) 64) ≠ none ∧ (s.core 5).gran.fill = [] ∧ s.underTest 5 = false
    ∧ (after (.pieceWrite 5 3) s).granBytes 5 128 3 = [1, 2, 0] ∧ (after (.pieceWrite 5 3) { s with grants := [] }).granBytes 5 128 3 = [0, 0, 0]
    ∧ (after (.pieceWrite 5 3) (s.setPipe 5 3 { cam := some 15, plan := 0, swath := 1, ends := [], valid := false })).rd Reg.PIPE_HOLD_XC_COUNT 5 0
        = 1 := by
  decide +kernel
theorem witness_CameraLines_rowHeader : let s := wins 6 (fed [{ core := 5, pixels := true }] 0)
    s.nextPiece 5 3 true = some (15, { row 0 false with todo := [{ core := 5, pixels := true }] })
    ∧ s.useGrants 6 (s.transfers true (granAddr 5 2048) 64) ≠ none
    ∧ (after (.headerWriteDone 5 3) s).rd Reg.PIPE_RING_FILL_FILL 5 3 = 1
    ∧ (after (.headerWriteDone 5 3) s).granBytes 5 (2048 + 4) 1 = [1] := by decide +kernel
theorem witness_CameraLines_copy :
    let s := (camera [row 0 true, { row 1 false with dram := true }]).put Reg.HOP_PLAN_PITCH_DRAM_PITCH 0 0 128
    let s := wins 6 (s.put Reg.HOP_PLAN_ROWS_DRAM_ROWS 0 0 4)
    (row 0 true).dram = false ∧ ({ row 1 false with dram := true }).full = true ∧ s.useGrants 6 (s.transfers true 128 128) ≠ none
    ∧ (∀ l : Fin 2, (s.dramReach 6 ((l.val + 2) * 64)).1 = codeOk)
    ∧ (after (.dramCopyWrite 15) s).dramBytes 128 3 = [1, 2, 0] := by decide +kernel
theorem witness_CameraLines_free : let s := camera [row 0 false]
    (s.cam 15).rows.find? (fun x => x.complete && x.todo.isEmpty && !x.dram) = some (row 0 false) ∧ ((after (.lineFree 15) s).cam 15).rows = [] := by
  decide +kernel
theorem witness_CameraLines_turnover :
    let s := ((fed [] 7).put Reg.PIPE_RING_STAT_END 5 3 1).put Reg.PIPE_RING_END_ROWS 5 3 7
    let s := s.modCam 15 (fun k => { k with swath := 2, rows := [{ row 0 false with swath := 2, todo := [{ core := 5, pixels := false }] }] })
    (s.pipe 5 3).cam = some 15 ∧ s.rd Reg.PIPE_RING_STAT_END 5 3 = 1 ∧ s.rd Reg.PIPE_RING_REL_REL 5 3 = s.rd Reg.PIPE_RING_END_ROWS 5 3
    ∧ (s.pipe 5 3).swath < (s.cam 15).swath ∧ (after (.swathTurnover 5 3 9) s).rd Reg.PIPE_RING_REL_REL 5 3 = 0
    ∧ (after (.swathTurnover 5 3 9) s).rd Reg.PIPE_HOLD_XC_COUNT 5 0 = 9 := by decide +kernel

theorem witness_CameraLinksAndControl_trigger : ((camera []).cam 15).trigQ.length < 4
    ∧ ((after (.hopTrig 15 true) (camera [])).cam 15).trigQ = [true]
    ∧ (after (.triggerSend 15) (after (.hopTrig 15 true) (camera []))).outbox = [.trigger 15 true]
    ∧ (after (.hopTrig 0 true) (camera [])).rd Reg.HOP_CAM_STAT_TRIG_DROP 0 0 = 1 := by decide +kernel
theorem witness_CameraLinksAndControl_command : let m : CamCmd := { msg := 2 ^ 32, write := true, addr := 4, data := [], len := 0 }
    let s := (camera []).modCam 15 (fun k => { k with cmdOut := some m, cmdQ := [m] })
    (s.cam 15).cmdOut = some m ∧ m.msg / 2 ^ 32 ≠ s.host.session ∧ (after (.controlTimeout 15) s).outbox = [.camera 15 m]
    ∧ ((after (.controlAck 15 []) s).cam 15).cmdQ = [] := by decide +kernel

/-- The open session of number 0 has a read outstanding at camera 15. -/
theorem witness_CameraLinksAndControl_answer : let m : CamCmd := { msg := 0xABCD, write := false, addr := 4, data := [], len := 4 }
    let s := ((camera []).modCam 15 (fun k => { k with cmdOut := some m })).put Reg.HOST_STAT_SESSION 0 0 1
    let sent := fun i => (after i s).host.unacked.map (fun u => u.msgs.take 12)
    (s.cam 15).cmdOut = some m ∧ m.msg / 2 ^ 32 = s.host.session ∧ s.rd Reg.HOST_STAT_SESSION 0 0 = 1 ∧ s.host.unacked.length < 64
    ∧ sent (.controlAck 15 [1, 2, 3, 4]) = [[0x87, 0, 4, 0, 0xCD, 0xAB, 0, 0, 1, 2, 3, 4]]
    ∧ ((after (.controlTimeout 15) s).host.unacked.map (fun u => u.msgs.take 3)) = [[0x87, BitVec.ofNat 8 errTimeout, 0]] := by decide +kernel

/-- Camera 3 bound to connection 4. -/
def bound : State := ((boot 9).put Reg.HOP_CAM_CFG_EN 0 3 1).put Reg.HOP_CAM_CFG_FIRST 0 3 4

theorem witness_CameraLinksAndControl_discovery : bound.bindingOk 3 = true ∧ bound.camGroup 3 = [4] ∧ bound.rd Reg.HOP_CONN_STAT_OK 0 4 = 1
    ∧ (bound.put Reg.HOP_CAM_CFG_NCONN 0 3 5).bindingOk 3 = false
    ∧ (after (.discovery 3 0x10 4 true) bound).rd Reg.HOP_CAM_STAT_STATE 0 3 = 2
    ∧ (after (.discovery 3 0x10 4 true) bound).rd Reg.HOP_CONN_STAT_MASTER 0 4 = 1
    ∧ (after (.discovery 3 0x10 4 false) bound).rd Reg.HOP_CAM_STAT_STATE 0 3 = 4 := by decide +kernel
theorem witness_CameraLinksAndControl_links : let s := bound.put Reg.HOP_CAM_STAT_STATE 0 3 4
    (s.put Reg.HOP_CONN_STAT_UP 0 4 1).rd Reg.HOP_CONN_STAT_UP 0 4 = 1 ∧ s.rd Reg.HOP_CONN_STAT_UP 0 4 = 0 ∧ s.rd Reg.HOP_CONN_STAT_OK 0 4 = 1
    ∧ s.rd Reg.HOP_CTRL_SPARE_AUTO 0 0 = 1 ∧ s.connCam 4 = some 3 ∧ (after (.connectionSparing 4 true) s).rd Reg.HOP_CAM_STAT_STATE 0 3 = 1
    ∧ (after (.connectionSparing 4 false) s).rd Reg.HOP_CAM_STAT_STATE 0 3 = 4
    ∧ (after (.connectionSparing 4 false) s).rd Reg.HOP_CONN_STAT_OK 0 4 = 0 ∧ (after (.wordAlignment 4) s).rd Reg.HOP_CONN_STAT_UP 0 4 = 1
    ∧ (after (.hopLinkDown 4) (s.put Reg.HOP_CONN_STAT_UP 0 4 1)).rd Reg.HOP_CONN_STAT_UP 0 4 = 0 := by decide +kernel

/-- REL may reach FILL, and not pass it. -/
theorem witness_CountersAndSieve_rel : let s := (base.put Reg.PIPE_RING_FILL_FILL 0 15 9).put Reg.PIPE_RING_REL_REL 0 15 4
    (after (.pipeRingRel 0 15 9) s).rd Reg.PIPE_RING_REL_REL 0 15 = 9 ∧ (after (.pipeRingRel 0 15 10) s).rd Reg.PIPE_RING_STAT_REL_ERR 0 15 = 1
    ∧ (after (.pipeRingRel 0 15 3) s).rd Reg.PIPE_RING_REL_REL 0 15 = 4 := by decide +kernel
theorem witness_CountersAndSieve_message : let s := after (.pipePub 0 15 77) base
    s.copy 0 31 = 77 ∧ s.copy 5 31 = 0 ∧ 5 * 192 + 31 ∈ s.msgs
    ∧ (after (.counterMessage 5 0 true 15) s).copy 5 31 = 77 ∧ 5 * 192 + 31 ∉ (after (.counterMessage 5 0 true 15) s).msgs := by
  decide +kernel

/-- A Sieve call of one anchor and one class whose descriptor lies at the window's start. -/
def call (run : Bool) : SieveCall := { addr := 0, winBase := 8192, winLen := 0x4000, run := run, code := 0, kept := 1, passed := 2, ctr := 4 }
def sieving (q : SieveCall) (d : Line) : State :=
  let s := withG base 8192 (lineBytes d)
  s.setCore 0 { s.core 0 with sieve := [q] }

theorem witness_CountersAndSieve_submit : (base.core 0).sieve.length < 4 ∧ (after (.sieveSubmit 0 64) base).rd Reg.SIEVE_STAT_QLEN 0 0 = 1
    ∧ (after (.sieveSubmit 0 64) (base.setCore 0 { base.core 0 with sieve := List.replicate 4 (call false) })).rd Reg.SIEVE_STAT_REFUSED 0 0 = 1 := by
  decide +kernel
theorem witness_CountersAndSieve_call : ((sieving (call false) (line [(96, 64)])).core 0).sieve = [call false]
    ∧ (sieving (call false) 0).granBad 0 8192 64 = false ∧ sievDelta (line [(96, 63)]) % 64 ≠ 0
    ∧ ((after (.sieveCall 0) (sieving (call false) (line [(96, 63)]))).core 0).sieve.map (fun q => (q.run, q.code)) = [(true, errAlign)]
    ∧ ((after (.sieveCall 0) (sieving (call false) 0)).core 0).sieve.map (fun q => (q.run, q.code)) = [(true, errBound)]
    ∧ ((after (.sieveCall 0) (sieving { call false with winLen := 63 } 0)).core 0).sieve.map (fun q => q.code) = [errBound] := by decide +kernel
theorem witness_CountersAndSieve_complete : (call true).addr.toNat + 64 ≤ (call true).winLen ∧ (call true).ctr < 16
    ∧ (after (.sieveComplete 0) (sieving (call true) 0)).granBytes 0 (8192 + 58) 2 = [1, 0]
    ∧ (after (.sieveComplete 0) (sieving (call true) 0)).rd Reg.PIPE_PUB_COUNT 0 4 = 1 := by decide +kernel

/-- Ring 0 of core 0 as a JOB ring of four slots with one entry held for task 3. -/
def ringed : State :=
  let s := ((base.put Reg.CARTER_RING_CFG_KIND 0 0 1).put Reg.CARTER_RING_CFG_LOG2SZ 0 0 2).put Reg.CARTER_RING_TAIL_TAIL 0 0 1
  let s := (s.put Reg.GRAN_STAT_READY 0 0 1).put Reg.CORE_TASK_GLEN_LEN 0 3 2
  s.setCore 0 { s.core 0 with carter := { (s.core 0).carter with held := [(0, line [(0, 3), (32, 64), (64, 5)])] } }

theorem witness_RingsAndJobs_tail : ringId 0 = .core 0 0 ∧ ringId 6144 = .fab 0 ∧ ringId 14336 = .host 0
    ∧ (after (.ringTailWrite 0 4) ringed).rd Reg.CARTER_RING_TAIL_TAIL 0 0 = 4 ∧ (after (.ringTailWrite 0 5) ringed).rd Reg.CARTER_STAT_RING_ERR 0 0 = 1
    ∧ (after (.ringTailWrite 6144 1) ringed).rd Reg.FAB_RING_TAIL_TAIL 0 0 = 1 ∧ (after (.ringTailWrite 14336 1) ringed).rd Reg.HOST_RING_TAIL_TAIL 0 0 = 1 := by
  decide +kernel
theorem witness_RingsAndJobs_head : let s := (base.put Reg.CARTER_RING_CFG_KIND 0 1023 3).put Reg.CARTER_RING_TAIL_TAIL 0 1023 2
    s.rd Reg.CARTER_RING_CFG_KIND 0 1023 = 3 ∧ (after (.ringHeadWrite 0 1023 2) s).rd Reg.CARTER_RING_DONE_DONE 0 1023 = 2
    ∧ (after (.ringHeadWrite 0 1023 3) s).rd Reg.CARTER_STAT_RING_ERR 0 0 = 1 := by decide +kernel
theorem witness_RingsAndJobs_job : ringed.takesJobs 0 = true ∧ ringed.jobRing 0 = some 0 ∧ ringed.winBase 0 3 + ringed.winLen 0 3 ≤ 0x0400_0000
    ∧ ((after (.jobTake 0) ringed).task 0 3).pc = 64 ∧ ((after (.jobTake 0) ringed).task 0 3).s.get 0 = 5
    ∧ ((after (.jobTake 0) ringed).task 0 3).dsp = 8192 ∧ ((after (.jobTake 0) ringed).task 0 3).st = .ready := by decide +kernel

/-! ## Witnesses: the Carter, Tollgates, the DRAM and locks -/

/-- A COPY of 64 B from DRAM line 16 to line 4 of the Granary of core 0. -/
def copyDesc : Line := line [(48, 0xBEEF), (64, 0x400), (128, 0x40_0000_0000 + 8192 + 0x100), (192, 64)]

/-- Channel 63 of core 0 with descriptors queued or one that runs. -/
def channel (queue : List (Nat × Nat × Nat)) (run : Option DescRun) : State :=
  let s := withG base 8192 (lineBytes copyDesc)
  s.setCore 0 { s.core 0 with carter := { (s.core 0).carter with chans := [(63, { queue := queue, run := run, tag := 0 })] } }

/-- The descriptor set up, with its one segment. -/
def running (g : Seg) (chunks : List (Nat × Nat × Nat)) : DescRun :=
  { addr := 0x40_0000_0000 + 8192, ring := none, winBase := 8192, winLen := 0x4000, isSetUp := true, desc := copyDesc, segs := [g], code := 0,
    run := true, tested := true, chunks := chunks, slots := [] }
def seg (rd wr : Nat) (buf : List (Nat × Line)) : Seg :=
  { src := 0x400, dst := 0x40_0000_0000 + 8192 + 0x100, len := 64, rd := rd, wr := wr, buf := buf, err := 0 }

theorem witness_CarterStartsAndMoves_start : Ready base 0 0 ∧ base.rd Reg.CARTER_CH_CTRL_DIS 0 63 = 0 ∧ base.rd Reg.CARTER_CH_CFG_SRC 0 63 = 0
    ∧ ((after (.cstart hd 63 0 0x3FFF) base).chan 0 63).queue = [(8192 + 0x3FC0, 8192, 0x4000)] := by
  refine ⟨ready_of ?_, ?_⟩ <;> decide +kernel
theorem witness_CarterStartsAndMoves_refused : let s := base.put Reg.CARTER_CH_CFG_SRC 0 63 1
    s.rd Reg.CARTER_CH_CFG_SRC 0 63 = 1 ∧ (after (.cstart hd 63 0 64) s).granBytes 0 (8192 + 64 + 56) 2 = [0x11, 0x80]
    ∧ ((after (.cstart hd 63 0 64) s).chan 0 63).queue = [] := by decide +kernel

/-- DESC ring 5 of two slots at DRAM line 2 with its first entry filled, for channel 63. -/
def descRing : State :=
  let s := ((base.put Reg.CARTER_RING_CFG_KIND 0 5 2).put Reg.CARTER_RING_CFG_LOG2SZ 0 5 1).put Reg.CARTER_RING_TAIL_TAIL 0 5 1
  ((s.put Reg.CARTER_RING_BASE_ADDR 0 5 2).put Reg.CARTER_CH_CFG_SRC 0 63 1).put Reg.CARTER_CH_CFG_RING 0 63 5

theorem witness_CarterStartsAndMoves_take : descRing.coreOk 0 = true ∧ descRing.rd Reg.CARTER_CH_CFG_SRC 0 63 = 1
    ∧ (descRing.chan 0 63).run = none ∧ descRing.rd Reg.CARTER_RING_CFG_KIND 0 5 = 2 ∧ descRing.ringSlot 0 5 0 = 128
    ∧ descRing.ringTaken 0 63 = false ∧ descRing.localBad 128 64 = false
    ∧ ((after (.descRingTake 0 63) descRing).chan 0 63).run.map (fun d => (d.addr, d.ring)) = some (128, some (5, 0)) := by decide +kernel
theorem witness_CarterStartsAndMoves_setup : let s := channel [(8192, 8192, 0x4000)] none
    s.coreOk 0 = true ∧ s.rd Reg.CARTER_CTRL_EN 0 0 = 1 ∧ (s.chan 0 63).run = none ∧ s.granBad 0 8192 64 = false ∧ cdOp copyDesc ∈ [0, 3]
    ∧ ((after (.carterSetup 0 63) s).chan 0 63).run.map (fun d => (d.isSetUp, d.code)) = some (true, 0)
    ∧ ((after (.carterSetup 0 63) s).chan 0 63).tag = 0xBEEF := by decide +kernel
theorem witness_CarterStartsAndMoves_read : let s := channel [] (some (running (seg 0 0 []) [(0, 0, 0)]))
    (running (seg 0 0 []) [(0, 0, 0)]).readSeg = some (0, seg 0 0 []) ∧ s.canRead 0 63 = true ∧ (∀ x : Fin 64, x ≠ 63 → s.canRead 0 x = false)
    ∧ s.noTag 0 63 0 false 0x400 = false ∧ awPeer 0x400 = 0 ∧ awCsr 0x400 = false ∧ cdCsr copyDesc = false
    ∧ (after (.carterReadBeat 0) s).reqs.map (fun r => r.parts.map (fun p => p.addr)) = [[0x400]] := by decide +kernel
theorem witness_CarterStartsAndMoves_write : let s := channel [] (some (running (seg 64 0 [(0, 7)]) [(0, 0, 0)]))
    s.nextWrite 0 63 = some (0, 0, 7) ∧ (∀ x : Fin 64, x ≠ 63 → s.nextWrite 0 x = none) ∧ cdOp copyDesc ≠ 3
    ∧ (after (.carterWriteBeat 0) s).reqs.map (fun r => r.parts.map (fun p => p.addr)) = [[0x40_0000_2100]] := by decide +kernel
theorem witness_CarterStartsAndMoves_pace : let d := { running (seg 0 0 []) [] with desc := copyDesc ||| line [(8, 1), (256, 3), (272, 1)], tested := false }
    let s := channel [] (some d)
    s.moving 0 63 = some d ∧ cdPace d.desc = 1 ∧ d.nextChunk = some (0, 0) ∧ d.holdsNext = false ∧ cdHw d.desc = 3 ∧ cdLw d.desc = 1
    ∧ ((after (.paceTest 0 63) s).chan 0 63).run.map (fun d => d.run) = some false := by decide +kernel

/-- The request of channel 63's segment 0. -/
def answered (write bad : Bool) (err : Nat) : MemReq :=
  { tag := 9, sender := .carter 0 63 0 0, write := write, remote := false, bad := bad, err := err, dead := false,
    parts := [{ addr := 0x400, len := 64, data := lineBytes 6, stage := .done, age := 0, tries := 0 }] }
def awaiting (r : MemReq) : State := { channel [] (some (running (seg 64 (if r.write then 64 else 0) []) [(0, 0, 0)])) with reqs := [r] }

theorem witness_CarterEnds_read : let s := awaiting (answered false false 0)
    s.req? 9 = some (answered false false 0) ∧ (answered false false 0).allDone = true
    ∧ ((after (.readResponse 0 9) s).chan 0 63).run.map (fun d => d.segs.map (fun g => g.buf)) = some [[(0, 6)]]
    ∧ ((after (.readResponse 0 9) (awaiting (answered false true 0))).chan 0 63).run.map (fun d => d.segs.map (fun g => g.err)) = some [errEcc]
    ∧ ((after (.readResponse 0 9) (awaiting (answered false false errBound))).chan 0 63).run.map (fun d => d.segs.map (fun g => g.err)) = some [errBound] := by
  decide +kernel
theorem witness_CarterEnds_write : ((awaiting (answered true false 0)).core 0).carter.late = [] ∧ (answered true false 0).unsent = false
    ∧ (after (.writeResponse 0 9) (awaiting (answered true false 0))).reqs = []
    ∧ ((after (.writeResponse 0 9) (awaiting (answered true false errBound))).chan 0 63).run.map (fun d => d.segs.map (fun g => g.err)) = some [errBound] := by
  decide +kernel
theorem witness_CarterEnds_timeout : (awaiting (answered false false 0)).rd Reg.CARTER_CTRL_TIMEOUT 0 0 ≠ 0
    ∧ (after (.carterTimeout 0 9) (awaiting (answered false false 0))).reqs.map (fun r => r.dead) = [true] := by decide +kernel
theorem witness_CarterEnds_complete : let d := running (seg 64 64 []) [(0, 0, 0)]
    let s := channel [] (some d)
    s.mayComplete 0 63 d = true ∧ s.rangeOk d.addr 64 = true ∧ d.addr % 64 = 0 ∧ ((after (.descriptorComplete 0 63) s).chan 0 63).run = none
    ∧ (after (.descriptorComplete 0 63) s).granBytes 0 (8192 + 56) 2 = [BitVec.ofNat 8 codeOk, 0x80] := by decide +kernel
theorem witness_CarterEnds_failed : let d := running { seg 64 64 [] with err := errEcc } [(0, 0, 0)]
    let s := channel [] (some d)
    s.mayComplete 0 63 d = true ∧ d.segs.findIdx (fun g => g.err != 0) = 0
    ∧ (after (.descriptorComplete 0 63) s).granBytes 0 (8192 + 56) 2 = [BitVec.ofNat 8 errEcc, 0x80] := by decide +kernel
theorem witness_CarterEnds_disable : let s := awaiting (answered false false 0)
    (after (.channelDisable 0 63) s).rd Reg.CARTER_CH_CTRL_DIS 0 63 = 1 ∧ ((after (.channelDisable 0 63) s).chan 0 63).run = none
    ∧ (after (.channelDisable 0 63) s).reqs.all (fun r => r.dead) = true ∧ (after (.channelDisable 0 3) s).deaths = [.chan 0 3] := by decide +kernel

/-- Of inputs 2 and 5 with equal PRIO after LAST 2, input 5 is next; where input 2 has waited for 16 decisions, input 2 is. -/
theorem witness_TollgateDecisions_port : let s := (boot 9).put Reg.TG_STAT_LAST 25 0 2
    let s2 := { s with gateWait := [(25 * 16 + 2, 16)] }
    s.rd Reg.TG_CTRL_WAITLIM 25 0 = 16 ∧ s.waitCount 25 2 = 0 ∧ s.waitCount 25 5 = 0 ∧ s.rd Reg.TG_PRIO_PRIO 25 2 = s.rd Reg.TG_PRIO_PRIO 25 5
    ∧ (5 + 8 - 2 % 9) % 9 ≤ (2 + 8 - 2 % 9) % 9 ∧ (after (.tollgateDecision (.port 5) 0x24) s).rd Reg.TG_STAT_LAST 25 0 = 5
    ∧ (after (.tollgateDecision (.port 5) 0x24) s).waitCount 25 2 = 1 ∧ s2.waitCount 25 2 = 16 ∧ s2.waitCount 25 5 = 0
    ∧ (after (.tollgateDecision (.port 5) 0x24) s2).rd Reg.TG_STAT_LAST 25 0 = 2 := by decide +kernel

/-- A part of a request: one DRAM line. -/
def dramPart (write : Bool) (stage : ReqStage) (tries : Nat) : ReqPart :=
  { addr := 0x400, len := 64, data := if write then lineBytes 6 else [], stage := stage, age := 0, tries := tries }

/-- A request of a DRAM channel's line, granted or before its gate. -/
def dramReq (write : Bool) (stage : ReqStage) (tries : Nat) : MemReq :=
  { answered write false 0 with parts := [dramPart write stage tries] }
def dramState (r : MemReq) : State := { boot 9 with reqs := [r] }
def chanOf : DramCh := Fin.ofNat 8 (dramChannel 0x400)

theorem witness_TollgateDecisions_agent : (boot 9).reqs = [] ∧ (after (.tollgateDecision (.dram 7) 0x400) (boot 9)).granted 7 10 = 1
    ∧ (after (.tollgateDecision (.dram 7) 0x1) (boot 9)).granted 7 0 = 0 := by decide +kernel
theorem witness_TollgateDecisions_dram : (dramState (dramReq true .atGate 0)).partGate true (dramPart true .atGate 0) = some chanOf.val
    ∧ (after (.tollgateDecision (.dram chanOf) 0) (dramState (dramReq true .atGate 0))).reqs = [dramReq true .granted 0] := by decide +kernel

theorem witness_DramCommands_read : let s := dramState (dramReq false .granted 0)
    let bad := { s with dram := { s.dram with poison := [(16, true)] } }
    let flawed := { s with dram := { s.dram with flaws := [(16, true)] } }
    s.partGate false (dramPart false .granted 0) = some chanOf.val ∧ cellGet false s.dram.poison 16 = false
    ∧ (after (.dramReadDone chanOf 9 []) s).reqs.map (fun r => r.parts.map (fun p => p.data)) = [[lineBytes 0]]
    ∧ (after (.dramReadDone chanOf 9 []) bad).reqs.map (fun r => r.bad) = [true]
    ∧ (after (.dramReadDone chanOf 9 []) bad).rd Reg.DRAM_CH_UE_CNT_COUNT chanOf 0 = 1
    ∧ (after (.dramReadDone chanOf 9 []) flawed).rd Reg.DRAM_CH_CE_CNT_COUNT chanOf 0 = 1 := by decide +kernel
theorem witness_DramCommands_write : let s := dramState (dramReq true .granted 2)
    (after (.dramWriteAccept chanOf 9) s).dramBytes 0x400 64 = lineBytes 6
    ∧ (after (.dramWriteRetry chanOf (.req 9) false) s).reqs = [dramReq true .granted 3]
    ∧ (after (.dramWriteRetry chanOf (.req 9) false) (dramState (dramReq true .granted 3))).dram.retireQ = [(chanOf.val, 2)]
    ∧ s.failed chanOf 8 = 0 ∧ (after (.dramWriteRetry chanOf (.agent 8) false) s).failed chanOf 8 = 1
    ∧ (let x := { s with dram := { s.dram with fails := [(chanOf.val * 16 + 8, 3)] } }
       x.failed chanOf 8 = 3 ∧ (after (.dramWriteRetry chanOf (.agent 8) true) x).dram.retireQ = [(chanOf.val, 2)]) := by decide +kernel
theorem witness_DramCommands_lost : let s := { dramState (dramReq true .atGate 0) with dram := { Dram.reset with lost := [chanOf.val] } }
    s.dramLost 0x400 = true ∧ s.dramHome 0x400 = chanOf.val ∧ (after (.retiredChannelRefuse chanOf 9) s).reqs.map (fun r => r.err) = [errDisabled] := by
  decide +kernel
theorem witness_DramCommands_scrub : (boot 9).rd Reg.DRAM_CH_SCRUB_EN 7 0 = 1 ∧ (boot 9).rd Reg.DRAM_CH_STAT_OK 7 0 = 1 ∧ (boot 9).dram.poison = []
    ∧ (wins 10 (boot 9)).useGrants 10 [7, 7] ≠ none ∧ (boot 9).granted 7 10 = 0
    ∧ (after (.dramScrubLine 7 []) (wins 10 ((boot 9).put Reg.DRAM_CH_SCRUB_POS_LINE 7 0 (2 ^ 28 - 1)))).rd Reg.DRAM_CH_SCRUB_POS_LINE 7 0 = 0 := by
  decide +kernel
theorem witness_DramCommands_temp : (after (.dramTempSample 7 85) (boot 9)).rd Reg.DRAM_CH_STAT_REF2X 7 0 = 1
    ∧ (after (.dramTempSample 7 94) (boot 9)).rd Reg.DRAM_CH_STAT_THROT 7 0 = 1
    ∧ (after (.dramTempSample 7 83) (after (.dramTempSample 7 85) (boot 9))).rd Reg.DRAM_CH_STAT_REF2X 7 0 = 1
    ∧ (after (.dramTempSample 7 82) (after (.dramTempSample 7 85) (boot 9))).rd Reg.DRAM_CH_STAT_REF2X 7 0 = 0 := by decide +kernel
theorem witness_DramCommands_row : let s := { boot 9 with dram := { Dram.reset with tracker := [(7, [(40, 200)])] } }
    max 1 (s.rd Reg.DRAM_CTRL_CE_PPR 0 0) ≤ trackerCount (s.dramTracker 7) 40 ∧ s.groupSpent 7 40 = false
    ∧ (after (.softPpr 7 40) s).dram.repairs = [(7, 40, false)] := by
  decide +kernel
theorem witness_DramCommands_spent :
    ({ boot 9 with dram := { Dram.reset with repairs := [(7, 40, false)] } } : State).groupSpent 7 40 = true := by simp [State.groupSpent]
theorem witness_DramCommands_retire : let s := after (.dramRetire 7) (boot 9)
    s.dram.retireQ = [(7, 4)] ∧ s.rd Reg.DRAM_SPARE_STAT_BUSY 0 0 = 0 ∧ s.rd Reg.DRAM_CH_STAT_OK 7 0 = 1
    ∧ (after .channelRetire s).rd Reg.DRAM_CH_STAT_OK 7 0 = 0 ∧ (after .channelRetire s).dram.lost = [7]
    ∧ (after .channelRetire (s.put Reg.DRAM_MAP_SPARE_RSV 0 0 1)).dram.moved = some 7 := by decide +kernel
theorem witness_DramCommands_move :
    let s := wins 10 (((boot 9).put Reg.DRAM_SPARE_STAT_BUSY 0 0 1).put Reg.DRAM_SPARE_STAT_POS 0 0 (7 * 2 ^ 23 - 1))
    s.rd Reg.DRAM_SPARE_STAT_POS 0 0 < 7 * 2 ^ 23 ∧ s.useGrants 10 (List.replicate 4 0 ++ List.replicate 4 7) ≠ none ∧ (after (.granuleMove true) s).rd Reg.DRAM_SPARE_STAT_POS 0 0 = 7 * 2 ^ 23
    ∧ (after .dramSpareDone (after (.granuleMove true) s)).rd Reg.DRAM_SPARE_STAT_DONE 0 0 = 1
    ∧ cellGet false (after (.granuleMove false) s).dram.poison (granuleAddr 0 (7 * 2 ^ 23 - 1) / 64) = true := by decide +kernel

/-- A state with lock 1023 as given. -/
def locked (k : Lock) : State := base.setLock 1023 k

theorem witness_LockOperations_owner : (∃ t, (base.core 0).seq.running = some t ∧ (base.task 0 t).lockOut = none ∧ Owner.task 0 0 = .task 0 t)
    ∧ (3 : ChanId).val < 4 ∧ base.deaths = [] := ⟨⟨0, by decide +kernel, by decide +kernel, rfl⟩, by decide, rfl⟩
theorem witness_LockOperations_busy : let s := withT (fun k => { k with lockOut := some 5 })
    (s.core 0).seq.running = some 0 ∧ (s.task 0 0).lockOut ≠ none ∧ (after (.tryLock (.task 0) 7) s).rd Reg.LOCK_ERR_CNT_COUNT 0 0 = 1
    ∧ (after (.tryLock (.task 0) 7) s).csrGet Reg.CORE_LOCK_RESP 0 0 = 0x80000073 := by decide +kernel
theorem witness_LockOperations_take : base.lock 1023 = Lock.idle
    ∧ (after (.tryLock (.task 0) 1023) base).lock 1023 = { Lock.idle with owner := some (.task 0 0), gen := 1 }
    ∧ (after (.tryLock .host 1023) (locked { Lock.idle with owner := some (.chan 1 2) })).lock 1023 = { Lock.idle with owner := some (.chan 1 2) } := by
  decide +kernel
theorem witness_LockOperations_wait : let k := { Lock.idle with owner := some (.chan 1 2) }
    (locked k).waitsAny (.task 0 0) = false ∧ (locked k).waitersUsed < 512
    ∧ (after (.waitLock (.task 0) 1023) (locked k)).lock 1023 = { k with waiters := [.task 0 0] } := by decide +kernel
theorem witness_LockOperations_release : let k := { Lock.idle with owner := some .host, broken := true, gen := 0xFFFF, waiters := [.task 0 0, .peer 5] }
    (after (.releaseLock .host 1023) (locked k)).lock 1023 = { k with owner := some (.task 0 0), gen := 0, waiters := [.peer 5] }
    ∧ (after (.releaseLock (.task 0) 1023) (locked k)).rd Reg.LOCK_ERR_CNT_COUNT 0 0 = 1
    ∧ (after (.clearBroken .host 1023) (locked k)).lock 1023 = { k with broken := false }
    ∧ (after (.lockOpForeignWrite .jtag 1023 0) (locked k)).rd Reg.LOCK_ERR_CNT_COUNT 0 0 = 1 := by decide +kernel
theorem witness_OwnerDeathReleases : let s := { locked { Lock.idle with owner := some .host, gen := 7, waiters := [.task 0 0, .host] } with deaths := [.host] }
    s.deaths = [.host] ∧ cellsWf Lock.idle s.locks = true
    ∧ (after .ownerDeath s).lock 1023 = { owner := some (.task 0 0), broken := true, gen := 8, waiters := [] } := by decide +kernel

/-! ## Witnesses: the fabric -/

/-- Port 3 up with credits in every buffer; this device at 0x111, a route entry for device 0x222 out of port 3. -/
def fabric : State :=
  let s := ((boot 9).put Reg.FAB_ADDR_ADDR 0 0 0x111).put Reg.FAB_PORT_STAT_STATE 0 3 2
  let s := ((s.put Reg.FAB_ROUTE_EN 0 0x222 1).put Reg.FAB_ROUTE_PORT 0 0x222 3).put Reg.FAB_PORT_STAT_LANES 0 3 15
  [0, 1, 2, 3].foldl (fun (x : State) (b : Nat) => x.put (credFld b) 0 3 256) s
/-- A packet of device 0x222 to this one. -/
def toUs (ty : BitVec 4) (data : List Line) : Packet :=
  { dst := 0x111, src := 0x222, ty := ty, vl := false, status := 0, tag := 0xABCD, win := 9, off := 0, data := data, hchk := true }

theorem witness_heard : Claims.heard fabric 3 (toUs 1 []) := by refine ⟨?_, ?_, ?_, ?_, ?_⟩ <;> decide +kernel
theorem witness_clearTo : Claims.clearTo fabric (Claims.answer fabric (toUs 1 []) 8 2) 3 false := by
  refine ⟨?_, ?_, ?_, ?_, ?_⟩ <;> decide +kernel

/-- Window 9 open for 0x222: one page at page 1. -/
def window : State :=
  let s := ((fabric.put Reg.FAB_WIN_STAT_STATE 0 9 1).put Reg.FAB_WIN_BASE_BASE 0 9 1).put Reg.FAB_WIN_CFG_SIZE 0 9 1
  (((s.put Reg.FAB_WIN_CFG_RD 0 9 1).put Reg.FAB_WIN_CFG_WR 0 9 1).put Reg.FAB_WIN_PEER_MASK 0 9 0xFFFF).put Reg.FAB_WIN_PEER_MATCH 0 9 0x222

theorem witness_FabricWindows_admit : Claims.heard window 3 (toUs 1 []) ∧ window.fabTagsUsed < 8192 ∧ window.rangeOk 4096 64 = true
    ∧ (after (.readPacket 3 (toUs 1 [])) window).reqs.map (fun r => r.parts.map (fun p => p.addr)) = [[4096]]
    ∧ (after (.writePacket 3 (toUs 2 [7, 8])) window).reqs.map (fun r => r.parts.map (fun p => p.addr)) = [[4096, 4160]]
    ∧ (after (.writePacket 3 (toUs 2 [7])) window).reqs.map (fun r => r.parts.map (fun p => p.data)) = [[lineBytes 7]] := by
  refine ⟨⟨?_, ?_, ?_, ?_, ?_⟩, ?_⟩ <;> decide +kernel
theorem witness_FabricWindows_refuse :
    ((after (.readPacket 3 (toUs 1 [])) fabric).outbox.getLast? = some (.packet 3 (Claims.answer fabric (toUs 1 []) 8 1)))
    ∧ ((after (.writePacket 3 { toUs 2 [7] with off := 4096 }) window).outbox.getLast?
        = some (.packet 3 (Claims.answer fabric { toUs 2 [7] with off := 4096 } 9 2)))
    ∧ (after (.writePacket 3 { toUs 2 [7] with off := 4032 }) window).reqs.length = 1 := by decide +kernel
/-- A read request of 0x222 performed. -/
def peerReq : MemReq := { answered false false 0 with sender := .peer 3 9 0x222 0xABCD }
theorem witness_FabricWindows_done : let s := { (window.put Reg.FAB_WIN_STAT_STATE 0 9 2).put Reg.FAB_WIN_STAT_OUTSTANDING 0 9 1 with reqs := [peerReq] }
    s.req? 9 = some peerReq ∧ peerReq.allDone = true ∧ (∀ x ∈ peerReq.parts, x.data ≠ [])
    ∧ (after (.windowRequestDone 9 9) s).rd Reg.FAB_WIN_STAT_STATE 0 9 = 0
    ∧ (after (.windowRequestDone 9 9) s).outbox = [.packet 3 { toUs 8 [6] with dst := 0x222, src := 0x111 }] := by decide +kernel
theorem witness_FabricWindows_close : (after (.fabWinOpen 255) fabric).rd Reg.FAB_WIN_STAT_STATE 0 255 = 1
    ∧ (after (.fabWinOpen 9) window).rd Reg.FAB_WIN_STAT_WIN_ERR 0 9 = 1
    ∧ (after (.fabWinClose 9) window).rd Reg.FAB_WIN_STAT_STATE 0 9 = 0
    ∧ (after (.fabWinClose 9) (window.put Reg.FAB_WIN_STAT_OUTSTANDING 0 9 1)).rd Reg.FAB_WIN_STAT_STATE 0 9 = 2 := by decide +kernel

/-- Fabric ring 8191 of two slots at line 2, with an entry for ring 5 of 0x222. -/
def fring : State :=
  let s := (((fabric.put Reg.FAB_RING_CFG_EN 0 8191 1).put Reg.FAB_RING_CFG_PEER 0 8191 0x222).put Reg.FAB_RING_CFG_LOG2SZ 0 8191 1)
  let s := ((s.put Reg.FAB_RING_BASE_ADDR 0 8191 2).put Reg.FAB_RING_TAIL_TAIL 0 8191 4).put Reg.FAB_RING_HEAD_HEAD 0 8191 3
  s.put Reg.FAB_RING_TGT_TRING 0 8191 5
def inFlight (r : FabRing) : State := { fring with fab := { fring.fab with rings := [(8191, r)] } }
def ringPutOut : Packet := { toUs 3 [0] with dst := 0x222, src := 0x111, tag := 0, win := 0 }

theorem witness_FabricRings_send : fring.localBad 192 64 = false ∧ Claims.clearTo fring ringPutOut 3 false ∧ fring.fabRing 8191 = FabRing.idle
    ∧ (after (.fabRingSend 8191) fring).outbox = [.ringPut 3 { ringPutOut with tag := BitVec.ofNat 16 fring.nextTag } 5]
    ∧ ((inFlight { sent := none, again := true }).fabRing 8191).again = true := by
  refine ⟨?_, ⟨?_, ?_, ?_, ?_, ?_⟩, ?_⟩ <;> decide +kernel
theorem witness_FabricRings_timeout : let s := (inFlight { sent := some 0xABCD, again := false }).put Reg.FAB_CTRL_RING_TO 0 0 1
    s.rd Reg.FAB_CTRL_RING_TO 0 0 ≠ 0 ∧ (s.fabRing 8191).sent.isSome = true
    ∧ (after (.fabRingTimeout 8191) s).rd Reg.FAB_RING_CFG_ERR 0 8191 = 1 := by decide +kernel
theorem witness_FabricRings_response : let s := inFlight { sent := some 0xABCD, again := false }
    Claims.heard s 3 (toUs 0xA []) ∧ (∀ e ∈ s.fab.rings, e.2.sent = some (toUs 0xA []).tag.toNat ↔ e.1 = 8191) ∧ (∃ e ∈ s.fab.rings, e.1 = 8191)
    ∧ cellsWf FabRing.idle s.fab.rings = true ∧ s.rangeOk 192 64 = true
    ∧ (after (.ringResp 3 (toUs 0xA [])) s).rd Reg.FAB_RING_DONE_DONE 0 8191 = 4
    ∧ (after (.ringResp 3 { toUs 0xA [] with status := 4 }) s).fab.rings = [(8191, { sent := none, again := true })]
    ∧ (after (.ringResp 3 { toUs 0xA [] with status := 2 }) s).rd Reg.FAB_RING_CFG_ERR 0 8191 = 1 := by
  refine ⟨⟨?_, ?_, ?_, ?_, ?_⟩, ?_⟩ <;> decide +kernel
/-- A RING_PUT for ring 5 of core 1, and for fabric ring 0; the same with the core's ring full. -/
theorem witness_FabricRings_put :
    let s := (fabric.put Reg.CARTER_RING_CFG_KIND 1 5 2).put Reg.CARTER_RING_BASE_ADDR 1 5 2
    let full := s.put Reg.CARTER_RING_TAIL_TAIL 1 5 1
    ringId (1024 + 5) = .core 1 5 ∧ Claims.heard s 3 (toUs 3 [7]) ∧ s.placeError 128 64 = 0
    ∧ (after (.ringPut 3 (toUs 3 [7]) (1024 + 5)) s).rd Reg.CARTER_RING_TAIL_TAIL 1 5 = 1
    ∧ (after (.ringPut 3 (toUs 3 [7]) (1024 + 5)) s).localBytes 128 64 = lineBytes 7
    ∧ (after (.ringPut 3 (toUs 3 [7]) (1024 + 5)) full).outbox.getLast? = some (.packet 3 (Claims.answer fabric (toUs 3 [7]) 0xA 4))
    ∧ (after (.ringPut 3 (toUs 3 [7]) 6144) s).outbox.getLast? = some (.packet 3 (Claims.answer fabric (toUs 3 [7]) 0xA 2))
    ∧ (s.put Reg.CARTER_RING_BASE_ADDR 1 5 0x1_8000_0000).placeError 0x60_0000_0000 64 = errBound := by
  refine ⟨?_, ⟨?_, ?_, ?_, ?_, ?_⟩, ?_⟩ <;> decide +kernel

theorem witness_FabricPeers_request : let k := { toUs 4 [] with dst := 0x222, src := 0x111, tag := BitVec.ofNat 16 fabric.nextTag, win := 0 }
    Claims.clearTo fabric k 3 false ∧ cellGet 0 fabric.fab.lockOut 7 = 0
    ∧ (after (.fabLockReq 7 0x0222_17FF) fabric).outbox = [.lock 3 k 1 1023]
    ∧ (let s := after (.fabLockReq 7 0x0222_17FF) fabric
       (after (.fabLockReq 7 0) s).csrGet Reg.FAB_LOCK_RESP 0 7 = 0x80000003
       ∧ (after (.lockResp 3 { toUs 0xB [] with tag := k.tag } 7 1 true) s).csrGet Reg.FAB_LOCK_RESP 0 7 = 0x80000005) := by
  refine ⟨⟨?_, ?_, ?_, ?_, ?_⟩, ?_⟩ <;> decide +kernel
theorem witness_FabricPeers_lock : Owner.peer 0x222 ∉ fabric.deaths ∧ (fabric.lock 1023).owner = none
    ∧ Claims.clearTo fabric { Claims.answer fabric (toUs 4 []) 0xB 0 with win := 0, off := 0 } 3 false
    ∧ (after (.lockPacket 3 (toUs 4 []) 1 1023) fabric).lock 1023 = { Lock.idle with owner := some (.peer 0x222), gen := 1 } := by
  refine ⟨?_, ?_, ⟨?_, ?_, ?_, ?_, ?_⟩, ?_⟩ <;> decide +kernel
/-- A read of two lines sent to device 0x222, whose response carries TAG 0xABCD. -/
def remoteReqOf (write : Bool) : MemReq :=
  let part (a : Nat) : ReqPart := { addr := 0x222 * 2 ^ 48 + a, len := 64, data := [], stage := .atGate, age := 0, tries := 0 }
  { answered write false 0 with tag := 0xABCD, remote := true, parts := [part 0, part 64] }
theorem witness_FabricPeers_response : let s := fun w => { fabric with reqs := [remoteReqOf w] }
    (s false).remoteReq (toUs 8 [7, 8]) false = some (remoteReqOf false) ∧ (s true).remoteReq (toUs 9 []) true = some (remoteReqOf true)
    ∧ (after (.readResp 3 (toUs 8 [7, 8])) (s false)).reqs.map (fun r => r.parts.map (fun x => x.data)) = [[lineBytes 7, lineBytes 8]]
    ∧ (after (.writeResp 3 { toUs 9 [] with status := 2 }) (s true)).reqs.map (fun r => r.err) = [errBound] := by decide +kernel
theorem witness_FabricPeers_lost : let s := after (.fabPeerLostSet 0x222) fabric
    s.fab.lost = [0x222] ∧ s.deaths = [.peer 0x222] ∧ (after (.fabPeerLostClear 0x222) s).fab.lost = []
    ∧ (after (.goodbye 3 { src := 0x222, axis := 1, minus := true, arg := 0, id := 0, shape := 0, origin := 0 }) fabric).fab.lost = [0x222]
    ∧ (after (.fabVoteFail none) fabric).fab.stopped = true ∧ (after (.fabVoteFail (some 4095)) fabric).fab.badRoutes = [4095] := by decide +kernel

/-- A packet for 0x333, which no entry names; FAB_SHAPE is 1 by 1 by 1. -/
theorem witness_FabricLinks_forward : let k := { toUs 1 [] with dst := 0x222, src := 0x333 }
    (fabric.route { k with dst := 0x333 } (some 2) = .drop) ∧ (fabric.route k (some 3) = .entryDrop) ∧ (fabric.route k (some 2) = .out 3 false)
    ∧ (fabric.put Reg.FAB_PORT_STAT_STATE 0 2 2).portUp 2 = true
    ∧ (let s := fabric.put Reg.FAB_PORT_STAT_STATE 0 2 3
       (after (.packetForward 2 k) s).rd Reg.FAB_PORT_CRED_REQ_VL0 0 3 = 255
       ∧ (after (.packetForward 2 k) (s.put Reg.FAB_PORT_CRED_REQ_VL0 0 3 0)).fab.outQ.length = 1
       ∧ (after (.packetForward 3 k) s).rd Reg.FAB_DROP_CNT_COUNT 0 0 = 1) := by decide +kernel
theorem witness_FabricLinks_links : (after (.linkReplay 3) fabric).rd Reg.FAB_PORT_REPLAY_COUNT 0 3 = 1
    ∧ (after (.laneFail 3 2) fabric).rd Reg.FAB_PORT_STAT_LANES 0 3 = 11
    ∧ (after (.laneFail 3 0) (after (.laneFail 3 2) fabric)).rd Reg.FAB_PORT_STAT_STATE 0 3 = 0
    ∧ (after (.fabPortDown 3 3) fabric).events.map (fun e => e.args) = [[3, 3]]
    ∧ (after (.creditReturn 3 1 9) (fabric.put (credFld 1) 0 3 250)).rd Reg.FAB_PORT_CRED_REQ_VL1 0 3 = 256 := by decide +kernel
theorem witness_FabricLinks_up : let s := (((boot 9).put Reg.FAB_CTRL_EN 0 0 1).put Reg.FAB_PORT_CFG_EN 0 5 1).put Reg.FAB_PORT_CFG_FEC 0 5 1
    s.rd Reg.FAB_PORT_STAT_OK 0 5 = 1 ∧ (after (.linkUp 5 true) s).rd Reg.FAB_PORT_STAT_STATE 0 5 = 2
    ∧ (after (.linkUp 5 true) s).rd Reg.FAB_PORT_CRED_RSP_VL1 0 5 = 256 ∧ (after (.linkUp 5 false) s).rd Reg.FAB_PORT_STAT_LINK_ERR 0 5 = 1 := by
  decide +kernel

/-- Two ports up; a root without an address. -/
def linked (root : Nat) (ports : List Nat) : State :=
  let s := ((boot 9).put Reg.FAB_CTRL_ROOT 0 0 root).put Reg.FAB_CTRL_EN 0 0 1
  ports.foldl (fun (x : State) (p : Nat) => (x.put Reg.FAB_PORT_STAT_STATE 0 p 2).put (credFld 0) 0 p 256) s
/-- A device of identity `x`. -/
def withId (s : State) (x : BitVec 64) : State := { s with csr := (Reg.FAB_DEVICE_ID.addr 0 0, x) :: s.csr }
def ctl (axis : Fin 3) (minus : Bool) (arg : Nat) (id : Nat) : Ctl :=
  { src := 0, axis := axis, minus := minus, arg := BitVec.ofNat 16 arg, id := BitVec.ofNat 64 id, shape := 0x001, origin := 1 }

theorem witness_Enumeration_root : Claims.ctlClear (linked 1 [0]) 0 false ∧ (linked 1 [0]).rd Reg.FAB_ENUM_STATE 0 0 = 0
    ∧ (linked 1 [0]).rd Reg.FAB_CTRL_ROOT 0 0 = 1 ∧ (after .enumStart (withId (linked 1 [0]) 5)).fab.walk = some (0, false)
    ∧ (after .fabEnumGo ((linked 1 [0]).put Reg.FAB_WIN_STAT_STATE 0 255 1)).rd Reg.FAB_STAT_ENUM_ERR 0 0 = 1 := by
  refine ⟨⟨?_, ?_, ?_, ?_⟩, ?_⟩ <;> decide +kernel
/-- No cell of a table lies in a range of addresses. -/
def bare {α : Type} (lo hi : Nat) (m : List (Nat × α)) : Bool := m.all (fun e => decide (e.1 < lo) || decide (hi ≤ e.1))
theorem cellGet_bare {α : Type} (d : α) (lo hi a : Nat) (h : lo ≤ a) (h' : a < hi) (m : List (Nat × α)) (hm : bare lo hi m = true) :
    cellGet d m a = d := by
  induction m with
  | nil => rfl
  | cons e m ih =>
    simp only [bare, List.all_cons, Bool.and_eq_true, Bool.or_eq_true, decide_eq_true_eq] at hm
    have : e.1 ≠ a := by omega
    simp [cellGet, this, ih hm.2]

theorem witness_Enumeration_quiet : (linked 1 [0]).fabQuiet = true := by
  have key : ∀ r : RegFam, r.blk = .fabric → r.rst = 0 → 0x8000 ≤ r.off → ∀ i, r.off + i * r.stride < 0x100_0000 →
      (linked 1 [0]).csrGet r 0 i = 0 := by
    intro r hb h0 ho i hi
    have lo : 0x300_8000 ≤ r.addr 0 i := by simp only [RegFam.addr, hb, Blk.base]; omega
    have hi : r.addr 0 i < 0x400_0000 := by simp only [RegFam.addr, hb, Blk.base]; omega
    unfold State.csrGet
    rw [cellGet_bare _ _ _ _ lo hi _ (by decide +kernel), cellGet_bare _ _ _ _ lo hi _ (by decide +kernel), h0]
    rfl
  have t := fun i (h : i < 8192) => key Reg.FAB_RING_TAIL rfl rfl (by decide) i (by simp only [Reg.FAB_RING_TAIL]; omega)
  have d := fun i (h : i < 8192) => key Reg.FAB_RING_DONE rfl rfl (by decide) i (by simp only [Reg.FAB_RING_DONE]; omega)
  have w := fun i (h : i < 256) => key Reg.FAB_WIN_STAT rfl rfl (by decide) i (by simp only [Reg.FAB_WIN_STAT]; omega)
  simp +contextual [State.fabQuiet, State.rd, Reg.FAB_RING_TAIL_TAIL, Reg.FAB_RING_DONE_DONE, Reg.FAB_WIN_STAT_STATE, t, d, w, bitsOf]
theorem witness_Enumeration_walk : Claims.ctlClear (linked 0 [0, 1]) 0 false ∧ Claims.ctlClear (linked 0 [1]) 0 true
    ∧ (after (.walk 1 (ctl 0 false 3 7)) (linked 0 [0, 1])).outbox.getLast? = some (.control 0 1 false 4 (some (7, 1, 1)) 0)
    ∧ (after (.walk 1 (ctl 0 false 3 7)) (linked 0 [1])).outbox.getLast? = some (.control 1 2 true 4 (some (7, 1, 1)) 0)
    ∧ (after (.walkEnd 0 (ctl 0 true 3 7)) (linked 0 [0, 1])).outbox.getLast? = some (.control 1 2 true 3 (some (7, 1, 1)) 0) := by
  refine ⟨⟨?_, ?_, ?_, ?_⟩, ⟨?_, ?_, ?_, ?_⟩, ?_⟩ <;> decide +kernel
/-- A root of identity 5 meets roots of identity 9 and 3. -/
theorem witness_Enumeration_conflict : let s := withId (linked 1 [0]) 5
    s.csrGet Reg.FAB_DEVICE_ID 0 0 = 5 ∧ (after (.walk 0 (ctl 0 true 3 9)) s).rd Reg.FAB_ENUM_STATE 0 0 = 0
    ∧ (after (.walk 0 (ctl 0 true 3 3)) s).rd Reg.FAB_ENUM_STATE 0 0 = 5
    ∧ (after (.walk 0 (ctl 0 true 3 3)) s).events.map (fun e => e.args) = [[3, 0]] := by decide +kernel
/-- The last axis is counted with one device beyond the root on Z and none on the others. -/
theorem witness_Enumeration_last : let s := withId (linked 1 [4]) 5
    let s := { s with fab := { s.fab with walk := some (2, false) } }
    s.rd Reg.FAB_PORT_STAT_STATE 0 5 < 2 ∧ (s.fab.counts.get 0).1 + (s.fab.counts.get 0).2.1 < 15
    ∧ (after (.walkEnd 4 (ctl 2 true 1 5)) s).fab.walk = none ∧ (after (.walkEnd 4 (ctl 2 true 1 5)) s).fab.shape = 0x100
    ∧ (after (.walkEnd 4 (ctl 2 true 1 5)) s).rd Reg.FAB_ADDR_ADDR 0 0 = 0x111 := by decide +kernel
theorem witness_Enumeration_assign : let s := linked 0 [1]
    s.rd Reg.FAB_ADDR_ADDR 0 0 = 0 ∧ (∀ q : PortId, s.rd Reg.FAB_PORT_STAT_NEIGHBOUR 0 q = 0)
    ∧ (after (.assign 1 (ctl 0 false 0x112 7)) s).rd Reg.FAB_ADDR_ADDR 0 0 = 0x112
    ∧ (after (.assign 1 (ctl 0 false 0x113 7)) (after (.assign 1 (ctl 0 false 0x112 7)) s)).rd Reg.FAB_ENUM_STATE 0 0 = 4 := by decide +kernel
theorem witness_Enumeration_hello : let s := after (.assign 1 (ctl 0 false 0x112 7)) (linked 0 [1])
    s.neighbourOk 1 0x111 = true ∧ s.neighbourOk 1 0x122 = false
    ∧ (after (.hello 1 (ctl 0 false 0x111 0)) s).rd Reg.FAB_PORT_STAT_NEIGHBOUR 0 1 = 0x111
    ∧ (after (.hello 1 (ctl 0 false 0x122 0)) s).rd Reg.FAB_ENUM_STATE 0 0 = 4
    ∧ (after (.enumDone (some 1) (ctl 0 false 0 7)) s).csrGet Reg.FAB_SHAPE 0 0 = 1
    ∧ (after (.enumDone none (ctl 0 false 0 7)) ((linked 1 [0]).put Reg.FAB_ENUM_STATE 0 0 2)).rd Reg.FAB_ENUM_STATE 0 0 = 3
    ∧ (after (.enumFail (some 1) (ctl 0 false 0x43 7)) s).rd Reg.FAB_ENUM_FAIL_PORT 0 0 = 3
    ∧ (after (.enumFail none (ctl 0 false 0x43 7)) s).events.map (fun e => e.args) = [[3, 4]] := by decide +kernel

/-! ## Witnesses: the host port -/

/-- A session of number 7 with messages waiting: the port received 2 units and sent 1. -/
def session (inbox : List HMsg) : State :=
  let s := ((boot 9).put Reg.HOST_STAT_LINK 0 0 1).put Reg.HOST_STAT_SESSION 0 0 1
  { s.put Reg.HOST_CTRL_EN 0 0 1 with host := { HostPort.reset with session := 7, rxNext := 3, txNext := 2, inbox := inbox } }
def message (op : Nat) (words data : List Byte) : HMsg := { op := op, dlen := data.length, tag := 0xABCD, words := words, data := data }
def bytesOf (l : List Nat) : List Byte := l.map (BitVec.ofNat 8)

theorem witness_talks : Claims.talks (session []) := by refine ⟨?_, ?_, ?_⟩ <;> decide +kernel

/-- A DOORBELL message as it lies in a unit. -/
def bell : List Byte := msgOf 5 0 0 0xABCD (leBytes 4 5 ++ leBytes 4 1)
def etherFrame (u : List Byte) : List Byte :=
  [BitVec.ofNat 8 ((session []).rd Reg.HOST_ETYPE_ETYPE 0 0 / 256), BitVec.ofNat 8 ((session []).rd Reg.HOST_ETYPE_ETYPE 0 0)] ++ u

theorem witness_HostFrames_state : (session []).held = false ∧ (session []).rd Reg.HOST_STAT_LINK 0 0 = 1 ∧ (session []).rd Reg.HOST_CTRL_EN 0 0 = 1
    ∧ (session []).rd Reg.HOST_CTRL_ENCAP 0 0 = 0 ∧ (session []).rd Reg.HOST_ETYPE_ETYPE 0 0 ≠ 0x8100
    ∧ (∀ m ∈ messagesOf bell (bell.length / 8), m.allowed = true) ∧ (messagesOf bell (bell.length / 8)).map (fun m => (m.op, m.tag)) = [(5, 0xABCD)] := by
  decide +kernel
theorem witness_HostFrames_units :
    ((after (.hostUnitReceive (etherFrame (unitOf 0 3 2 7 bell)) 0x10 false) (session [])).host.inbox.map (fun m => m.op)) = [5]
    ∧ (after (.hostUnitReceive (etherFrame (unitOf 0 3 2 7 bell)) 0x10 false) (session [])).host.rxNext = 4
    ∧ (after (.hostUnitReceive (etherFrame (unitOf 0 4 2 7 bell)) 0x10 false) (session [])).rd Reg.HOST_SEQ_DROP_CNT_COUNT 0 0 = 1
    ∧ (after (.hostUnitReceive (etherFrame (unitOf 0 3 2 7 bell)) 0x10 false) ((session []).put Reg.HOST_STAT_SESSION 0 0 0)).rd
        Reg.HOST_SEQ_DROP_CNT_COUNT 0 0 = 1
    ∧ (after (.hostUnitReceive (etherFrame (bytesOf [1, 0, 0, 0])) 0x10 false) (session [])).rd Reg.HOST_CRC_ERR_CNT_COUNT 0 0 = 1
    ∧ (after (.hostUnitReceive (bytesOf [0x08, 0x06, 1]) 0x10 false) (session [])).rd Reg.HOST_DROP_CNT_COUNT 0 0 = 1 := by decide +kernel
theorem witness_HostFrames_neighbours :
    (after (.arpRequest 0x10 (BitVec.ofNat 32 ((session []).rd Reg.HOST_IPV4_ADDR 0 0)) false) (session [])).outbox = [.neighbour 0x10 false none none]
    ∧ (after (.arpRequest 0x10 (BitVec.ofNat 32 ((session []).rd Reg.HOST_IPV4_ADDR 0 0 + 1)) false) (session [])).rd Reg.HOST_DROP_CNT_COUNT 0 0 = 1
    ∧ (after (.neighbourSolicitation 0x10 (BitVec.ofNat 128 (session []).hostIpv6) false) (session [])).outbox = [.neighbour 0x10 true none none]
    ∧ (after (.neighbourSolicitation 0x10 (BitVec.ofNat 128 ((session []).hostIpv6 + 1)) false) (session [])).rd Reg.HOST_DROP_CNT_COUNT 0 0 = 1 := by
  decide +kernel

theorem witness_HostSession_open : let s := (session [message 1 [] []]).put Reg.HOST_STAT_SESSION 0 0 0
    s.host.inbox = [message 1 [] []] ∧ s.host.session < 2 ^ 32 ∧ s.rd Reg.HOST_STAT_SESSION 0 0 = 0 ∧ (after .openSession s).host.session = 8
    ∧ (after .openSession { s with host := { s.host with session := 2 ^ 32 - 1 } }).host.session = 1 := by decide +kernel
theorem witness_HostSession_again : (after .openSession (session [message 1 [] []])).events.map (fun e => (e.code, e.args)) = [(0x101, [0, 0])] := by
  decide +kernel
theorem witness_HostSession_close : (session [message 2 [] []]).hostBusy = false
    ∧ (let s := session [message 2 [] []]
       ({ s with host := { s.host with camOut := 1 } } : State).hostBusy = true) := by decide +kernel
theorem witness_HostSession_ends : let s := after .hostKill ((session []).put Reg.HOST_RING_HEAD_HEAD 0 2047 5)
    s.events.map (fun e => e.args) = [[7, 4]] ∧ s.rd Reg.HOST_RING_HEAD_HEAD 0 2047 = 0 := by decide +kernel
theorem witness_HostSession_timers : let s := session []
    let s := { s with host := { s.host with owesAck := true, unacked := [{ seq := 1, msgs := bell, rings := [] }] } }
    s.host.owesAck = true ∧ s.host.unacked ≠ [] ∧ (after .ackTimer s).outbox.length = 1
    ∧ (after .retransmit s).rd Reg.HOST_RETX_CNT_COUNT 0 0 = 1 ∧ (after .retransmit s).outbox.length = 1
    ∧ 8 ≤ s.rd Reg.MGMT_BOOT_STAT_PHASE 0 0 ∧ (after (.hostPhyLinkUp true) s).rd Reg.HOST_STAT_LINK 0 0 = 1 := by decide +kernel

/-- A message's answer as it is kept until it is acknowledged: its OP, STATUS and data. -/
def reply (i : Instr) (s : State) : Option (List Byte) := (after i s).host.unacked.getLast?.map (fun u => u.msgs)
def answerOf (op status : Nat) (data : List Byte) : Option (List Byte) := some (msgOf (op + 0x80) status data.length 0xABCD data)

theorem witness_HostAccesses_read : let m := fun a n => message 3 (leBytes 8 a ++ leBytes 4 n ++ leBytes 4 0) []
    (m 0x400 128).field 0 8 = 0x400 ∧ (m 0x400 128).field 8 4 = 128 ∧ (session []).hostWaits 0x400 128 = false
    ∧ (wins 8 (session [])).useGrants 8 ((session []).transfers false 0x400 128) ≠ none ∧ ((session []).localRead 8 0x400 64).1 = codeOk
    ∧ (session []).rangeOk 0x400 64 = true ∧ (session []).localBad 0x400 64 = false ∧ (session []).rangeOk 0x50_0000_0000 64 = false
    ∧ reply .hostRead (wins 8 (session [m 0x400 128])) = answerOf 3 0 (List.replicate 128 0)
    ∧ reply .hostRead (session [m 0x400 128]) = none
    ∧ reply .hostRead (session [m 0x420 64]) = answerOf 3 0x10 [] ∧ reply .hostRead (session [m 0x50_0000_0000 64]) = answerOf 3 0x11 [] := by
  decide +kernel
theorem witness_HostAccesses_write : let m := fun a n => message 4 (leBytes 8 a) (List.replicate n 7)
    (wins 8 (session [])).useGrants 8 ((session []).transfers true 0x400 64) ≠ none ∧ ((session []).dramReach 8 0x400).1 = codeOk
    ∧ reply .hostWrite (wins 8 (session [m 0x400 64])) = answerOf 4 0 []
    ∧ (after .hostWrite (wins 8 (session [m 0x400 64]))).dramBytes 0x400 64 = List.replicate 64 7
    ∧ reply .hostWrite (session [m 0x400 63]) = answerOf 4 0x10 [] := by decide +kernel
theorem witness_HostAccesses_doorbell : let m := fun r v => message 5 (leBytes 4 r ++ leBytes 4 v) []
    let s := fun r v => (session [m r v]).put Reg.CARTER_RING_CFG_KIND 1 5 2
    reply .doorbell (s (1024 + 5) 1) = answerOf 5 0 [] ∧ (after .doorbell (s (1024 + 5) 1)).rd Reg.CARTER_RING_TAIL_TAIL 1 5 = 1
    ∧ reply .doorbell (s (1024 + 5) 2) = answerOf 5 0x11 [] ∧ reply .doorbell (s 6144 1) = answerOf 5 0x11 [] := by decide +kernel
theorem witness_HostAccesses_lock : let m := fun l op => message 6 (leBytes 2 l ++ leBytes 1 op ++ leBytes 5 0) []
    let s := session [m 1023 1]
    Owner.host ∉ s.deaths ∧ s.host.lockWait = none ∧ (s.lock 1023).owner = none ∧ reply .hostLock s = answerOf 6 0 (leBytes 4 0)
    ∧ (after .hostLock s).lock 1023 = { Lock.idle with owner := some .host, gen := 1 } ∧ reply .hostLock (session [m 1024 1]) = answerOf 6 0x11 []
    ∧ ((after .hostLock ((session [m 1023 3]).setLock 1023 { Lock.idle with owner := some .host })).lock 1023) = Lock.idle := by decide +kernel

theorem witness_HostServices_camera : let m := message 7 ([15, 0, 0, 0] ++ leBytes 4 0x1000) [1, 2, 3, 4]
    let s := (session [m]).put Reg.HOP_CAM_STAT_STATE 0 15 2
    s.camTakes 15 = true ∧ (s.cam 15).cmdOut = none ∧ (after .camCmd s).host.camOut = 1
    ∧ ((after .camCmd s).cam 15).cmdOut.map (fun k => k.data) = some [1, 2, 3, 4]
    ∧ (session [m]).camTakes 15 = false ∧ reply .camCmd (session [m]) = answerOf 7 0x11 [] := by decide +kernel
theorem witness_HostServices_attest : let s := session [message 8 (List.replicate 32 0) []]
    ∃ s1 s2 : State, s1.host.inbox = s.host.inbox ∧ Claims.talks s1 ∧ s1.signDisabled = true
      ∧ s2.host.inbox = s.host.inbox ∧ Claims.talks s2 ∧ s2.signDisabled = false :=
  ⟨session [message 8 (List.replicate 32 0) []],
   (((session [message 8 (List.replicate 32 0) []]).put Reg.SEC_KEY_STAT_READY 0 0 1).put Reg.SEC_KEY_STAT_PRESENT 0 0 1).put Reg.SEC_LC_SHADOW_STATE 0 0 1,
   by decide +kernel, ⟨by decide +kernel, by decide +kernel, by decide +kernel⟩, by decide +kernel,
   by decide +kernel, ⟨by decide +kernel, by decide +kernel, by decide +kernel⟩, by decide +kernel⟩
theorem witness_HostServices_key : let m := fun n => message 9 [] (List.replicate n 0)
    let s := (session [m 1024, m 544, m 0]).put Reg.HOST_MACSEC_EN 0 0 1
    (∀ x ∈ [m 1024, m 544, m 0], x.op = 9 ∧ x.tag = 0xABCD) ∧ s.rd Reg.HOST_MACSEC_EN 0 0 = 1
    ∧ (let s := { s with host := { s.host with kem := some 0 } }
       (after .key s).rd Reg.HOST_STAT_SECURE 0 0 = 1 ∧ (after .key s).host.pn = 1 ∧ (after .key s).host.inbox = [])
    ∧ (after .key (session [m 5])).host.inbox = [] := by decide +kernel

/-- Host ring 2047 of four slots at line 2, with entries 3 and 4 to send. -/
def hostRing : State :=
  let s := (((session []).put Reg.HOST_RING_CFG_EN 0 2047 1).put Reg.HOST_RING_CFG_LOG2SZ 0 2047 2).put Reg.HOST_RING_BASE_ADDR 0 2047 2
  ((s.put Reg.HOST_RING_HEAD_HEAD 0 2047 3).put Reg.HOST_RING_DONE_DONE 0 2047 3).put Reg.HOST_RING_TAIL_TAIL 0 2047 5
theorem witness_HostServices_ring : hostRing.nextRing = some 2047 ∧ (hostRing.localRead 8 320 64).1 = codeOk ∧ (hostRing.localRead 8 128 64).1 = codeOk
    ∧ (wins 8 hostRing).useGrants 8 ((hostRing.transfers false 320 64) ++ hostRing.transfers false 128 64) ≠ none
    ∧ (after .ringData (wins 8 (hostRing.put Reg.HOST_CTRL_RMAX 0 0 1))).rd Reg.HOST_RING_HEAD_HEAD 0 2047 = 5 := by decide +kernel
theorem witness_HostServices_none : (session []).nextRing = none := by decide +kernel
theorem witness_HostServices_event : let s := session []
    let s := { s with host := { s.host with camEvents := [(3, [1, 2, 3])] } }
    (after .camEvent s).host.camEvents = []
    ∧ (after .camEvent s).host.unacked.map (fun u => u.msgs) = [msgOf 0x41 0 3 0 (leBytes 8 3 ++ [1, 2, 3])] := by decide +kernel

/-! ## Results that the spec states, and results worked out from its rules by hand -/

/-- R117's own values, and CLZ(0). -/
theorem test_cls : sAfter (.cls hd 2 1) (withS [(1, 0)]) 2 = 31 ∧ sAfter (.cls hd 2 1) (withS [(1, 0xFFFFFFFF)]) 2 = 31
    ∧ sAfter (.cls hd 2 1) (withS [(1, 0x40000000)]) 2 = 0 := by decide +kernel
theorem test_clz : sAfter (.clz hd 2 1) (withS [(1, 0)]) 2 = 32 ∧ sAfter (.clz hd 2 1) (withS [(1, 1)]) 2 = 31 := by decide +kernel
/-- The worked example of chapter 03: CRC-8 of the byte 0x31 under 0x07 is 0x97. -/
theorem test_crcb : sAfter (.crcb hd 2 1 3 .w8 false) (withS [(1, 0x31), (2, 0), (3, 7)]) 2 = 0x97 := by decide +kernel
/-- The worked example of chapter 03: a pointer at the end of its ring goes back to the base. -/
theorem test_padd_ring :
    let s := withT (fun k => { k with p := k.p.set 2 0x11F800, pb := k.pb.set 2 0x100000, pl := k.pl.set 2 0x20000 })
    ((after (.padd hd 2 (.imm 0x800)) s).task 0 0).p.get 2 = 0x100000 := by decide +kernel
/-- A sum past the largest integer wraps, and saturates (R60). -/
theorem test_add : sAfter (.add hd 2 1 (.imm 1)) (withS [(1, 0x7FFFFFFF)]) 2 = 0x80000000
    ∧ sAfter (.adds hd 2 1 (.imm 1)) (withS [(1, 0x7FFFFFFF)]) 2 = 0x7FFFFFFF := by decide +kernel
/-- The destination of a subtraction is its source too. -/
theorem test_sub : sAfter (.sub hd 1 2 (.reg 1)) (withS [(1, 5), (2, 3)]) 1 = 0xFFFFFFFE := by decide +kernel
theorem test_sra : sAfter (.sra hd 2 1 (.imm 40)) (withS [(1, 0x80000000)]) 2 = 0xFFFFFFFF
    ∧ sAfter (.srl hd 2 1 (.imm 40)) (withS [(1, 0x80000000)]) 2 = 0 := by decide +kernel
theorem test_movhi : sAfter (.movhi hd 2 0x8001) (withS [(2, 0x12345678)]) 2 = 0x80015678
    ∧ sAfter (.movi hd 2 0x8001) (withS [(2, 0x12345678)]) 2 = 0xFFFF8001 := by decide +kernel
theorem test_beq : ((after (.beq hd 1 2 0 0x3FFFF) base).task 0 0).pc = 0xE0 ∧ ((after (.bne hd 1 2 0 0x3FFFF) base).task 0 0).pc = 0x120 := by
  decide +kernel
/-- The worked example of chapter 02: 70,001 with zero points 158 and 160, and the tie 193. -/
theorem test_requantise : rescale ((boot 9).task 0 0).arith .u8 70001 1518500250 40 158 = { code := 255, sat := false, nan := false }
    ∧ (rescale ((boot 9).task 0 0).arith .u8 70001 1518500250 40 160).sat = true
    ∧ (rescale ((boot 9).task 0 0).arith .u8 193 (2 ^ 31) 32 127).code = 224 := by decide +kernel
/-- The worked example of chapter 02: 455, 464 and 470 as E4M3. -/
theorem test_e4m3 : toCode ((boot 9).task 0 0).arith .e4m3 0 (valInt 455) = { code := 0x7E, sat := false, nan := false }
    ∧ (toCode ((boot 9).task 0 0).arith .e4m3 0 (valInt 464)).sat = true
    ∧ (toCode ((boot 9).task 0 0).arith .e4m3 0 (valInt 470)).code = 0x7E := by decide +kernel
/-- The worked example of chapter 04: VCUBIC of 100, 120, 200 and 180 at 0.25 is 138. -/
theorem test_vcubic : Claims.elem (((after (.vcubic hd { fmt := .u8, g := .g1, m := false } 16 8 3 .rne)
    ((withV [(8, 100), (9, 120), (10, 200), (11, 180)]).modTask 0 0 (fun k => { k with s := k.s.set 3 0x4000 }))).core 0).vec.v) 16 8 0 = 138 := by
  decide +kernel
/-- The worked example of chapter 08: the multiplier and shift of 17/32 at 16 fraction bits. -/
theorem test_mshift : mshift 17 32 16 = (4042322161, 47, false) ∧ mshift 17 512 16 = (4042322161, 43, false) := by decide +kernel
/-- The worked example of chapter 08: the window (63.5, −20) proposes 0.53125, and (3.96875, −1.5) 17/512. -/
theorem test_proposal : (proposal .s8 false 0 0x10 (.fin false 0 1) (.fin false (2 ^ 100) 1) [(0x427E0000, 0xC1A00000)] 1).1 = 0x3F080000
    ∧ (proposal .s8 false 0 0x10 (.fin false 0 1) (.fin false (2 ^ 100) 1) [(0x407E0000, 0xBFC00000)] 1).1 = 0x3D080000 := by decide +kernel
/-- The worked example of chapter 13: channels and addresses of two lines, and channel 0 retired. -/
theorem test_dram_map : dramChannel 0x0240000000 = 0 ∧ dramCa 0x0240000000 = 0x48000000 ∧ dramChannel 0x0240000100 = 1 := by decide +kernel
/-- The worked example of chapter 14: a ring of four along x; 0x0114 sends to 0x0112 by the plus port over the dateline. -/
theorem test_fabric_ring :
    let dev := fun (a : Nat) => (((((boot 9).put Reg.FAB_ADDR_ADDR 0 0 a).put Reg.FAB_SHAPE_EXM1 0 0 3).put Reg.FAB_SHAPE_RX 0 0 1).put
      Reg.FAB_PORT_STAT_STATE 0 0 2)
    let k : Packet := { toUs 1 [] with dst := 0x112, src := 0x114 }
    (dev 0x114).route k none = .out 0 true ∧ (dev 0x111).route { k with vl := true } (some 1) = .out 0 true
    ∧ (dev 0x112).route { k with vl := true } (some 1) = .here := by decide +kernel
/-- The worked example of chapter 13: at edge 201 the fabric wins by PRIO, at 202 core 2, and at 203 the Hopper as the slot's owner. -/
theorem test_slots :
    let s := (((boot 9).put Reg.TG_CTRL_SLOTS 3 0 4).put Reg.TG_STAT_PTR 3 0 2).put Reg.TG_PRIO_PRIO 3 2 3
    let s := ((s.put Reg.TG_PRIO_PRIO 3 7 5).put Reg.TG_SLOT_OWNER 3 0 6).put Reg.TG_SLOT_EN 3 0 1
    let r := fun (tag : Nat) (q : ReqFrom) => { dramReq false .atGate 0 with tag := tag, sender := q, parts := [{ dramPart false .atGate 0 with addr := 0x300 }] }
    let s := { s with reqs := [r 1 (.carter 2 0 0 0), r 2 (.carter 2 1 0 0), r 3 (.peer 0 0 0 0)] }
    let s1 := after (.tollgateDecision (.dram 3) 0x40) s
    let s2 := after (.tollgateDecision (.dram 3) 0x40) (s1.put Reg.TG_PRIO_PRIO 3 2 6)
    let s3 := after (.tollgateDecision (.dram 3) 0x40) s2
    let last := fun (x : State) => (x.rd Reg.TG_STAT_LAST 3 0, x.rd Reg.TG_STAT_PTR 3 0, x.rd Reg.TG_SLOT_HITS_COUNT 3 0)
    last s1 = (7, 3, 0) ∧ last s2 = (2, 0, 0) ∧ last s3 = (6, 1, 1) := by decide +kernel
/-- The worked example of chapter 05: the words of its slots 0, 1 and 2; and words of SC, VA, LM and CR written from their tables. -/
theorem test_slots_spelled : slotInstr hd 0x2211200010 = some (.ldw hd 4 ⟨2, .off 0x10⟩)
    ∧ slotInstr hd 0x100A518000 = some (.add hd 5 5 (.reg 6))
    ∧ slotInstr hd 0x7087100200 = some (.vld hd 8 ⟨3, .postI 0x200⟩ { fmt := .u8, g := .g1, m := false })
    ∧ slotInstr hd 0x104A518000 = some (.sub hd 5 5 (.reg 6)) ∧ slotInstr hd 0x91018000C0 = some (.ltile hd 3 0xC0)
    ∧ slotInstr hd 0xA0FD80FFC0 = some (.cstart hd 63 3 0xFFC0) ∧ slotInstr hd 0 = none ∧ slotInstr hd 0x9200000000 = none := by decide +kernel
/-- The bundle of chapter 05's worked example is legal, and one whose first slot has CLASS 0xF is not. -/
theorem test_bundle : bundleReserved 0x0000000000000000000000000000007087100200100A51800022112000100005 = false
    ∧ bundleReserved 0xF00000000000005 = true := by decide +kernel
/-- The worked example of chapter 15: entry 40 of ring 5 of core 2, and that ring's number. -/
theorem test_places : placeOf 0x4008030A00 = .gran 2 0x30A00 ∧ ringId 2053 = .core 2 5 := by decide +kernel
theorem test_reset_canonical : cellsWf (0 : Byte) State.reset.dram.bytes = true ∧ cellsWf (0xFF : Byte) State.reset.flash = true := by decide +kernel
/-- The worked example of chapter 16: hold-up energy of a 1 F capacitor above 3 V, for an erase of 1 s at 2.5 W. -/
theorem test_holdup :
    let s := ((boot 9).put Reg.MGMT_HOLDUP_CFG_CAP 0 0 1000).put Reg.MGMT_HOLDUP_CFG_VMIN 0 0 750
    let s := ((s.put Reg.MGMT_HOLDUP_PWR_RATIO 0 0 80).put Reg.MGMT_HOLDUP_PWR_PWR 0 0 2500).put Reg.MGMT_HOLDUP_PWR_MARGIN 0 0 20
    s.holdupOk 1000 1000000 = true ∧ s.holdupOk 720 1000000 = false ∧ s.holdupE 1000 = 8000 ∧ s.holdupNeed 1000000 = 3125 := by decide +kernel
/-- The worked example of chapter 11: two boxes of one class with inter 320 and union 480, and a third apart. -/
theorem test_suppressed : let d := line [(16, 2), (288, 0x3EE66666)]
    let b := fun (x0 y0 x1 y1 : Nat) => ({ cand := { idx := 1, score := 0 }, x0 := x0, y0 := y0, x1 := x1, y1 := y1 } : Box)
    let first := b 0x41200000 0x41200000 0x41F00000 0x41F00000
    suppressed d (b 0x41600000 0x41200000 0x42080000 0x41F00000) first = true
    ∧ suppressed d (b 0x42200000 0x42200000 0x42480000 0x42500000) first = false := by decide +kernel
/-- The worked example of chapter 09: the rows and pixels of a reflected border. -/
theorem test_reflect : reflN (-1) 60000 = 1 ∧ reflN (-1) 2052 = 1 ∧ reflN 60000 60000 = 59998 := by decide +kernel
/-- The worked example of chapter 04, in a window of 16 KiB: element 4 of a gather lies outside it. -/
theorem test_gather_bound : let s := withV [(12, BitVec.ofNat 4096 (0x4000 * 2 ^ 128)), (31, 0xFFFF)]
    let s' := after (.vgather hd 20 5 12 { fmt := .u16, g := .g1, m := true }) s
    (s'.core 0).vec.vstart = 4 ∧ (s'.core 0).vec.vfault = 0x80001004 ∧ (s'.core 0).seq.fault.map (fun f => f.addr) = some (some 0x4000) := by
  decide +kernel
/-- The worked example of chapter 03, in a window of 16 KiB: the second half of a load lies outside it. -/
theorem test_split_bound : let s := withT (fun k => { k with p := k.p.set 2 0x3800 })
    ((after (.ldw hd 9 ⟨2, .off 0x7FE⟩) s).core 0).seq.fault.map (fun f => (f.cause, f.addr, f.half)) = some (2, some 0x4000, true)
    ∧ ((after (.ldw hd 9 ⟨2, .off 0x7FE⟩) s).core 0).seq.loads = [] := by decide +kernel
/-- The worked example of chapter 03: DSP 0x0003_F7A4 puts the frame at 0x0003_F700. -/
theorem test_frame_base : let s := (pendingLine.modTask 0 0 (fun k => { k with dsp := 0x3F7A4 })).put Reg.CORE_TASK_GLEN_LEN 0 0 0x40
    ((after (.interruptEntry 0) (s.put Reg.CORE_TASK_DSL_LIMIT 0 0 0xC000)).task 0 0).dsp = 0x3F700 := by decide +kernel
/-- The worked example of chapter 19: the requests of five samples, and what is written. -/
theorem test_throttle : requestStep 0 true false = 15 ∧ throttle 15 0 = 15 ∧ requestStep 15 true false = 14 ∧ requestStep 0 true false = 15
    ∧ throttle 14 15 = 14 ∧ requestStep 14 false false = 14 ∧ requestStep 14 false true = 15 ∧ requestStep 15 false true = 0 ∧ throttle 0 0 = 0 := by
  decide +kernel
/-- The worked example of chapter 14: a window of an open request closes with it, and refuses the next. -/
theorem test_window_closing : let s := after (.readPacket 3 (toUs 1 [])) window
    let s1 := after (.fabWinClose 9) s
    s.rd Reg.FAB_WIN_STAT_OUTSTANDING 0 9 = 1 ∧ s1.rd Reg.FAB_WIN_STAT_STATE 0 9 = 2
    ∧ (after (.writePacket 3 (toUs 2 [7])) s1).outbox.getLast? = some (.packet 3 (Claims.answer fabric (toUs 2 [7]) 9 1)) := by decide +kernel

end Sys2Proof.Tests
end

section
/-! SUPPORT. Results of scalar operations against what the claims say of them: codes as words, the wrapping and saturating forms at 32
bits, and what a bundle of one operation of two sources leaves when it is known what its result shows. -/

namespace Sys2Proof.Machine

/-! ## Codes as words -/

theorem ofNat_lowBits (w : Nat) (x : Int) : BitVec.ofNat w (lowBits w x) = BitVec.ofInt w x := by
  apply BitVec.eq_of_toNat_eq
  have hlt : lowBits w x < 2 ^ w := by
    have := Int.emod_lt_of_pos x (b := 2 ^ w) (by positivity)
    have := Int.emod_nonneg x (b := 2 ^ w) (by positivity)
    unfold lowBits
    zify
    omega
  rw [BitVec.toNat_ofNat, Nat.mod_eq_of_lt hlt, BitVec.toNat_ofInt]
  simp [lowBits]

theorem sgn_toNat (a : Word) : sgn 32 a.toNat = a.toInt := by
  rw [BitVec.toInt_eq_toNat_cond]
  simp only [sgn, Nat.mod_eq_of_lt a.isLt]
  split <;> split <;> omega

/-- The value of a word as an operand: signed or not (R60). -/
def wordVal (signed : Bool) (a : Word) : Int := if signed then a.toInt else (a.toNat : Int)

@[simp] theorem intVal_toNat (signed : Bool) (a : Word) : intVal signed 32 a.toNat = wordVal signed a := by
  cases signed with
  | false => simp [intVal, wordVal, Nat.mod_eq_of_lt a.isLt]
  | true => exact sgn_toNat a

@[simp] theorem wordVal_eq_zero (signed : Bool) (a : Word) : wordVal signed a = 0 ↔ a = 0 := by
  cases signed with
  | false => simp [wordVal, ← BitVec.toNat_inj]
  | true => simp [wordVal, ← BitVec.toInt_inj]

/-! ## Wrapping and saturating results -/

/-- What the claims need of a result: its word and OV are `y`, its DZ and saturation `dz` and `sat`. -/
structure IRes.Shows (x : IRes) (y : Word × Bool) (dz sat : Bool) : Prop where
  code : BitVec.ofNat 32 x.code = y.1
  ov : x.ov = y.2
  dz : x.dz = dz
  sat : x.sat = sat

/-- The clamp to the operand range, in the order in which the claims take the two bounds. -/
theorem clampi_range (signed : Bool) (t : Int) :
    clampi t (intLo signed 32) (intHi signed 32) = max (intLo signed 32) (min (intHi signed 32) t) := by
  have : intLo signed 32 ≤ intHi signed 32 := by cases signed <;> decide
  unfold clampi
  omega

theorem ranged_eq (signed saturating : Bool) (t : Int) :
    Claims.ranged signed saturating t
      = (BitVec.ofInt 32 (if saturating then clampi t (intLo signed 32) (intHi signed 32) else t),
         decide (t < intLo signed 32) || decide (intHi signed 32 < t)) := by
  rw [clampi_range, ← Bool.decide_or]
  cases signed <;> rfl

/-- The wrapping and the saturating form of an exact result (R60). -/
theorem ranged_shows (signed saturating : Bool) (t : Int) :
    (if saturating then satRes signed 32 t else wrapRes signed 32 t).Shows (Claims.ranged signed saturating t) false
      ((Claims.ranged signed saturating t).2 && saturating) := by
  rw [ranged_eq]
  cases saturating with
  | false => exact ⟨ofNat_lowBits 32 t, rfl, rfl, (Bool.and_false _).symm⟩
  | true => exact ⟨ofNat_lowBits 32 _, rfl, rfl, (Bool.and_true _).symm⟩

/-! ## The bundle of one operation -/

/-- A bundle that leaves its core's Granary leaves every byte memory. -/
theorem Retires.sameMem {s s' : State} {c : CoreId} {t : TaskId} {k : Task} {C : Core} {F : List (Fld × Nat × Nat)}
    (r : Retires s s' c t k C F) (hg : C.gran = (s.core c).gran) : SameMem s s' := by
  have hdram : s'.dram = s.dram := by rw [r.rest]
  have hflash : s'.flash = s.flash := by rw [r.rest]
  have hgran (d : CoreId) : (s'.core d).gran = (s.core d).gran := by
    by_cases hd : d = c
    · obtain ⟨ts, hC⟩ := r.core
      subst hd
      exact (congrArg Core.gran hC).trans hg
    · rw [r.cores d hd]
  exact ⟨fun a => by rw [hdram], fun a => by rw [hflash], fun d a => by rw [hgran d]⟩

/-- What an operation of a register and a last source, alone in its bundle, leaves, from what its result shows. -/
theorem sx2_shows {s : State} {h : Hd} {t : TaskId} (r : Ready s h.core t) (hl : h.last = true) (sd sa : SReg) (b : Src)
    (long : Nat) (f : Nat → Nat → IRes) {y : Word × Bool} {dz sat : Bool} (hsat : sat = true → y.2 = true)
    (hf : (f ((s.task h.core t).s.get sa).toNat (srcVal (s.task h.core t) b).toNat).Shows y dz sat) :
    let k := s.task h.core t
    ∃ s', sx2 h sd sa b long f s = .next s'
      ∧ Retires s s' h.core t { k with s := k.s.set sd y.1, pc := k.pc + 32 } (s.core h.core)
          (if y.2 || dz then seqFlags h.core else [])
      ∧ Claims.flagged s s' h.core y.2 dz sat ∧ SameMem s s' := by
  obtain ⟨s', hexec, hret, hflags, hcount⟩ := sx2_retires r hl sd sa b long f
  rw [hf.code, hf.ov, hf.dz, hf.sat] at hret
  rw [hf.ov, hf.dz, hf.sat] at hflags
  rw [hf.sat] at hcount
  have hshown : (y.2 || dz || sat) = (y.2 || dz) := by
    cases sat with
    | false => exact Bool.or_false _
    | true => simp [hsat rfl]
  rw [hshown] at hret
  exact ⟨s', hexec, hret, ⟨hflags, hcount⟩, hret.sameMem rfl⟩

end Sys2Proof.Machine
end

section
/-! SUPPORT. Division (R60, R61): what the quotient and remainder forms show at 32 bits. -/

namespace Sys2Proof.Machine

/-- What a division gives: the word, and whether the quotient left the range (R60, R61). -/
def divided (signed saturating remainder : Bool) (a d : Word) : Word × Bool :=
  if d = 0 then
    (if remainder then a else if signed then (if a.toInt < 0 then 0x80000000 else 0x7FFFFFFF) else 0xFFFFFFFF, false)
  else if remainder then (BitVec.ofInt 32 (Int.tmod (wordVal signed a) (wordVal signed d)), false)
  else Claims.ranged signed saturating (Int.tdiv (wordVal signed a) (wordVal signed d))

theorem divRes_zero (signed saturating : Bool) (a : Word) {d : Word} (hd : d = 0) :
    divRes signed saturating 32 a.toNat d.toNat
      = ⟨if signed then lowBits 32 (if 0 ≤ wordVal signed a then intHi true 32 else intLo true 32) else 2 ^ 32 - 1,
         false, true, false⟩ := by
  simp only [divRes, intVal_toNat, (wordVal_eq_zero signed d).mpr hd, if_true]

theorem divRes_nonzero (signed saturating : Bool) (a : Word) {d : Word} (hd : d ≠ 0) :
    divRes signed saturating 32 a.toNat d.toNat
      = if saturating then satRes signed 32 (Int.tdiv (wordVal signed a) (wordVal signed d))
        else wrapRes signed 32 (Int.tdiv (wordVal signed a) (wordVal signed d)) := by
  simp only [divRes, intVal_toNat, mt (wordVal_eq_zero signed d).mp hd, if_false]

theorem remRes_zero (signed : Bool) (a : Word) {d : Word} (hd : d = 0) :
    remRes signed 32 a.toNat d.toNat = ⟨a.toNat, false, true, false⟩ := by
  simp only [remRes, intVal_toNat, (wordVal_eq_zero signed d).mpr hd, if_true, Nat.mod_eq_of_lt a.isLt]

theorem remRes_nonzero (signed : Bool) (a : Word) {d : Word} (hd : d ≠ 0) :
    remRes signed 32 a.toNat d.toNat = IRes.plain (lowBits 32 (Int.tmod (wordVal signed a) (wordVal signed d))) := by
  simp only [remRes, intVal_toNat, mt (wordVal_eq_zero signed d).mp hd, if_false]

/-- By a divisor of 0 the quotient is the bound with the dividend's sign. -/
theorem divRes_shows_zero (signed saturating : Bool) (a : Word) {d : Word} (hd : d = 0) :
    (divRes signed saturating 32 a.toNat d.toNat).Shows (divided signed saturating false a d) true false := by
  rw [divRes_zero signed saturating a hd, divided, if_pos hd]
  refine ⟨?_, rfl, rfl, rfl⟩
  cases signed with
  | false => rfl
  | true =>
    show BitVec.ofNat 32 (lowBits 32 (if 0 ≤ a.toInt then 2 ^ 31 - 1 else -2 ^ 31))
      = if a.toInt < 0 then 0x80000000 else 0x7FFFFFFF
    by_cases ha : a.toInt < 0
    · rw [if_pos ha, if_neg (by omega)]
      rfl
    · rw [if_neg ha, if_pos (by omega)]
      rfl

/-- By another divisor the quotient cut toward 0 wraps or saturates. -/
theorem divRes_shows_nonzero (signed saturating : Bool) (a : Word) {d : Word} (hd : d ≠ 0) :
    (divRes signed saturating 32 a.toNat d.toNat).Shows (divided signed saturating false a d) false
      ((divided signed saturating false a d).2 && saturating) := by
  have hx : divided signed saturating false a d
      = Claims.ranged signed saturating (Int.tdiv (wordVal signed a) (wordVal signed d)) := by
    rw [divided, if_neg hd]
    rfl
  rw [divRes_nonzero signed saturating a hd, hx]
  exact ranged_shows signed saturating _

theorem divRes_shows (signed saturating : Bool) (a d : Word) :
    (divRes signed saturating 32 a.toNat d.toNat).Shows (divided signed saturating false a d) (decide (d = 0))
      ((divided signed saturating false a d).2 && saturating) := by
  by_cases hd : d = 0
  · have hov : (divided signed saturating false a d).2 = false := by rw [divided, if_pos hd]
    rw [decide_eq_true hd, hov]
    exact divRes_shows_zero signed saturating a hd
  · rw [decide_eq_false hd]
    exact divRes_shows_nonzero signed saturating a hd

theorem divided_remainder_ov (signed saturating : Bool) (a d : Word) : (divided signed saturating true a d).2 = false := by
  unfold divided
  split <;> rfl

/-- A remainder meets no edge but the divisor of 0. -/
theorem remRes_shows (signed saturating : Bool) (a d : Word) :
    (remRes signed 32 a.toNat d.toNat).Shows (divided signed saturating true a d) (decide (d = 0)) false := by
  by_cases hd : d = 0
  · rw [remRes_zero signed a hd, divided, if_pos hd, decide_eq_true hd]
    exact ⟨BitVec.ofNat_toNat .., rfl, rfl, rfl⟩
  · rw [remRes_nonzero signed a hd, divided, if_neg hd, decide_eq_false hd]
    exact ⟨ofNat_lowBits 32 _, rfl, rfl, rfl⟩

/-- A division form of signedness `signed`, DIVS where `saturating`, the remainder where `remainder`. -/
def divisionRes (signed saturating remainder : Bool) (a b : Nat) : IRes :=
  if remainder then remRes signed 32 a b else divRes signed saturating 32 a b

theorem divisionRes_shows (signed saturating remainder : Bool) (a d : Word) :
    (divisionRes signed saturating remainder a.toNat d.toNat).Shows (divided signed saturating remainder a d) (decide (d = 0))
      ((divided signed saturating remainder a d).2 && saturating) := by
  cases remainder with
  | false => exact divRes_shows signed saturating a d
  | true =>
    rw [divided_remainder_ov]
    exact remRes_shows signed saturating a d

/-- Every division form is the operation of its `divisionRes`. -/
theorem exec_scalarDivide {e : (Hd → SReg → SReg → Src → Instr) × Bool × Bool × Bool} (he : e ∈ Claims.scalarDivide) (h : Hd)
    (sd sa : SReg) (b : Src) (s : State) :
    exec (e.1 h sd sa b) s = sx2 h sd sa b 36 (divisionRes e.2.1 e.2.2.1 e.2.2.2) s := by
  simp only [Claims.scalarDivide, List.mem_cons, List.not_mem_nil, or_false] at he
  obtain rfl | rfl | rfl | rfl | rfl := he <;> rfl

end Sys2Proof.Machine
end

section
/-! PROOF. The division obligation. -/

open Sys2Proof Sys2Proof.Machine

/-- Settles O5: each form issues as one SX operation, and what its result shows is `divided`. -/
theorem scalarDivisionResults : Obligations.ScalarDivisionResults := by
  unfold Obligations.ScalarDivisionResults
  intro e he h sd sa b s t hready hlast k a d val x k'
  have hsat : (x.2 && e.2.2.1) = true → x.2 = true := fun hs => (Bool.and_eq_true_iff.mp hs).1
  have hshows : (divisionRes e.2.1 e.2.2.1 e.2.2.2 a.toNat d.toNat).Shows x (decide (d = 0)) (x.2 && e.2.2.1) :=
    divisionRes_shows e.2.1 e.2.2.1 e.2.2.2 a d
  obtain ⟨s', hexec, hret, hflags, hmem⟩ := sx2_shows hready hlast sd sa b 36 _ hsat hshows
  refine ⟨s', (exec_scalarDivide he h sd sa b s).trans hexec, ?_, hflags, hmem⟩
  simpa only [Bool.or_eq_true, decide_eq_true_eq] using hret

end

section
/-! SUPPORT. Bundles of one scalar operation: results that meet no edge case, several registers written, and ILLEGAL. -/

namespace Sys2Proof.Machine

/-! ## One result -/

/-- An SX operation whose result meets no edge case changes nothing but its destination and the PC. -/
theorem sx_plain_retires {s : State} {h : Hd} {t : TaskId} (r : Ready s h.core t) (hl : h.last = true)
    (mk : State → CoreId → TaskId → Op) (reads : List RName) (sd : SReg) (long y : Nat)
    (hm : mk s h.core t = sxOp reads sd long (IRes.plain y)) :
    let k := s.task h.core t
    Retires s (s.issue h mk) h.core t { k with s := k.s.set sd (BitVec.ofNat 32 y), pc := k.pc + 32 } (s.core h.core) []
      ∧ SameMem s (s.issue h mk) := by
  obtain ⟨hret, -, -⟩ := sx_retires r hl mk reads sd long (IRes.plain y) hm
  exact ⟨hret, hret.sameMem rfl⟩

/-! ## Several registers -/

/-- Scalar registers after writes of some of them. -/
def putRegs (v : Vector Word 32) (ws : List (SReg × Word)) : Vector Word 32 := ws.foldl (fun v w => v.set w.1 w.2) v

/-- Writes of scalar registers at the W edge, as a bundle makes them. -/
def regFx (ws : List (SReg × Word)) : List Fx := ws.map (fun w => .s w.1 w.2)

theorem edgeCore_eq_edgeTo {s : State} {c : CoreId} {t : TaskId} (r : Ready s c t) (next : Word) (cc : Nat) (v : Vec) :
    edgeCore s c t next cc v = edgeTo (s.core c) t { s.task c t with pc := next } { (s.core c).seq with cc := cc } v := by
  simp only [edgeCore, edgeTo, r.bundle, r.inD]

/-- Writes of scalar registers change them and nothing else of their core. -/
theorem regFx_was {s s2 : State} {c : CoreId} {t : TaskId} {C : Core} {k : Task} {q : Seq} {v : Vec} {F : List (Fld × Nat × Nat)}
    (s0 : State) (x from_ : Nat) (w : Was s s2 c (edgeTo C t k q v) F) (ws : List (SReg × Word)) :
    Was s ((regFx ws).foldl (State.applyFx s0 x from_ c t) s2) c (edgeTo C t { k with s := putRegs k.s ws } q v) F := by
  induction ws generalizing s2 k with
  | nil => exact w
  | cons e ws ih =>
    refine ih (k := { k with s := k.s.set e.1 e.2 }) ((w.modTask t (fun k => { k with s := k.s.set e.1 e.2 })).congr ?_)
    simp only [edgeTo, vector_set_set, vector_get_set_same]

theorem regFx_csr (s0 : State) (x from_ : Nat) (c : CoreId) (t : TaskId) (ws : List (SReg × Word)) (s : State) (g : RegFam)
    (u i : Nat) : ((regFx ws).foldl (State.applyFx s0 x from_ c t) s).csrGet g u i = s.csrGet g u i := by
  induction ws generalizing s with
  | nil => rfl
  | cons e ws ih => exact ih _

theorem regFx_stage (ws : List (SReg × Word)) : ∀ f ∈ regFx ws, f.stage = 4 := by
  simp only [regFx, List.mem_map]
  rintro f ⟨e, -, rfl⟩
  rfl

theorem regFx_falls (ws : List (SReg × Word)) : (regFx ws).any fxLeaves = false := by
  simp only [regFx, List.any_map, List.any_eq_false]
  exact fun e _ => Bool.false_ne_true

/-- An SX operation that writes scalar registers and meets no edge case. -/
def regsOp (reads writes : List RName) (ws : List (SReg × Word)) : Op :=
  { slot := .sx, reads := reads, writes := writes, out := .ok (regFx ws) }

/-- Such an operation, alone in its bundle, changes nothing but those registers and the PC. -/
theorem regsOp_retires {s : State} {h : Hd} {t : TaskId} (r : Ready s h.core t) (hl : h.last = true)
    (mk : State → CoreId → TaskId → Op) (reads writes : List RName) (ws : List (SReg × Word))
    (hm : mk s h.core t = regsOp reads writes ws) (hw : hasTwice writes = false) :
    let k := s.task h.core t
    Retires s (s.issue h mk) h.core t { k with s := putRegs k.s ws, pc := k.pc + 32 } (s.core h.core) []
      ∧ SameMem s (s.issue h mk) := by
  intro k
  have hrow : ∀ v ctr, (regsOp reads writes ws).wait ≠ some (.row v ctr) := by intro v ctr hwait; cases hwait
  obtain ⟨us, hus, hissue⟩ := issue_ok r hl mk (regsOp reads writes ws) (regFx ws) hm rfl hw rfl (by intro h; cases h)
    (by intro w h; cases h) hrow rfl
  obtain ⟨-, -, -, -, -, -, -, -, hret, -⟩ := commit_falls (o := regsOp reads writes ws) (F := []) r
    ((charge_was s h.core h (regsOp reads writes ws) hrow).mono stall_mem) (charge_bundles s h.core h _ hrow) us
    (fun e he => by rw [hus e he]; rfl) rfl (regFx_stage ws) (regFx_falls ws)
    { k with s := putRegs k.s ws, pc := k.pc + 32 } (s.core h.core) (fun _ _ => rfl) r.cinv r.halt (by
      intro s0 s2 x from_ cc v _ w
      have hexc : s2.csrGet Reg.CORE_EXC_EN h.core 0 = 0 := by rw [not_counter w.2 _ rfl rfl (by decide), r.exc]
      rw [edgeCore_eq_edgeTo r] at w
      refine ⟨_, _, (regFx_was s0 x from_ w ws).mono (by simp), ?_, ?_⟩
      · rw [regFx_csr, hexc]
      · rw [State.rd, regFx_csr, State.rd])
  rw [hissue]
  exact ⟨hret, hret.sameMem rfl⟩

/-! ## Faults -/

theorem State.core_wakeTasks_same (s : State) (c : CoreId) : ∃ ts, (s.wakeTasks c).core c
    = { s.core c with seq := { (s.core c).seq with tasks := ts } } := ⟨_, s.core_modSeq_same c _⟩

theorem State.core_wakeTasks_ne (s : State) (c d : CoreId) (hd : d ≠ c) : (s.wakeTasks c).core d = s.core d :=
  s.core_modSeq_ne c d _ hd

/-- A task that runs waits for nothing, so nothing wakes it. -/
theorem State.task_wakeTasks_running (s : State) (c : CoreId) (t : TaskId) (hst : (s.task c t).st = .running) :
    (s.wakeTasks c).task c t = s.task c t := by
  have hnot : ((s.task c t).st = .waiting && s.waitMet c (s.task c t).wait) = false := by simp [hst]
  rw [State.wakeTasks, State.task_modSeq_same]
  show (Vector.map _ (s.core c).seq.tasks)[t.val] = _
  rw [Vector.getElem_map]
  exact if_neg (Bool.eq_false_iff.mp hnot)

/-- A fault outside the handler of line 0, before the tasks that wait for a line wake: the bundle in flight is gone, the record kept,
line 0 pending (R110). -/
def faultNoted (s : State) (c : CoreId) (f : FaultRec) : State :=
  ((s.modSeq c (fun q => { q with bundle := none, inD := false })).modSeq c (fun q => { q with fault := some f })).put
    Reg.CORE_IRQ_PEND_PEND c 0 (s.irqPending c ||| 1)

theorem fault_eq_faultNoted (s : State) (c : CoreId) (f : FaultRec)
    (hsr : ¬(srINH (s.task c f.task).sr = true ∧ srILVL (s.task c f.task).sr = 0)) :
    s.fault c f = (faultNoted s c f).wakeTasks c := by
  unfold State.fault
  dsimp only
  rw [if_neg (by simpa using hsr)]
  rfl

theorem faultNoted_core (s : State) (c : CoreId) (f : FaultRec) : (faultNoted s c f).core c
    = { s.core c with seq := { (s.core c).seq with bundle := none, inD := false, fault := some f } } := by
  simp [faultNoted]

theorem faultNoted_core_ne (s : State) (c d : CoreId) (f : FaultRec) (hd : d ≠ c) : (faultNoted s c f).core d = s.core d := by
  simp only [faultNoted, State.core_put, State.core_modSeq_ne _ c d _ hd]

theorem faultNoted_task (s : State) (c : CoreId) (t : TaskId) (f : FaultRec) : (faultNoted s c f).task c t = s.task c t := by
  unfold State.task
  rw [faultNoted_core]

theorem faultNoted_line (s : State) (c : CoreId) (f : FaultRec) :
    ((faultNoted s c f).rd Reg.CORE_IRQ_PEND_PEND c 0).testBit 0 = true := by
  rw [faultNoted, State.rd_put_same _ _ _ _ _ (by decide), Nat.testBit_mod_two_pow, Nat.testBit_or]
  simp [Reg.CORE_IRQ_PEND_PEND]

theorem faultNoted_fields (s : State) (c : CoreId) (f : FaultRec) :
    FieldsBut s (faultNoted s c f) [(Reg.CORE_IRQ_PEND_PEND, c.val, 0)] :=
  FieldsBut.trans (F := []) (FieldsBut.of_eq rfl rfl []) (FieldsBut.put _ Reg.CORE_IRQ_PEND_PEND c 0 _ (by decide))

/-- What keeps the DRAM, the flash and every Granary keeps every byte memory. -/
theorem sameMem_of_gran {s s' : State} (hdram : s'.dram = s.dram) (hflash : s'.flash = s.flash)
    (hgran : ∀ d, (s'.core d).gran = (s.core d).gran) : SameMem s s' :=
  ⟨fun a => by rw [hdram], fun a => by rw [hflash], fun d a => by rw [hgran d]⟩

/-- A fault of the running task's bundle, outside the handler of line 0. -/
theorem fault_faults {s : State} {c : CoreId} {t : TaskId} (r : Ready s c t) (hst : (s.task c t).st = .running)
    (hsr : ¬(srINH (s.task c t).sr = true ∧ srILVL (s.task c t).sr = 0)) (cause : BitVec 5) (addr : Option Word) (half : Bool) :
    Claims.faults s ((s.fault c (s.faultRec c t cause addr half)).atBoundary c t) c t cause addr half := by
  generalize hf : s.faultRec c t cause addr half = f
  rw [fault_eq_faultNoted s c f (by rw [← hf]; exact hsr)]
  have htask : ((faultNoted s c f).wakeTasks c).task c t = s.task c t := by
    rw [State.task_wakeTasks_running _ c t (by rw [faultNoted_task, hst]), faultNoted_task]
  obtain ⟨ts, hcore⟩ := State.core_wakeTasks_same (faultNoted s c f) c
  rw [faultNoted_core] at hcore
  have hcores (d : CoreId) (hd : d ≠ c) : ((faultNoted s c f).wakeTasks c).core d = s.core d := by
    rw [State.core_wakeTasks_ne _ c d hd, faultNoted_core_ne s c d f hd]
  have hgran (d : CoreId) : (((faultNoted s c f).wakeTasks c).core d).gran = (s.core d).gran := by
    by_cases hd : d = c
    · rw [hd, hcore]
    · rw [hcores d hd]
  rw [atBoundary_quiet _ c t (by rw [hcore]; exact r.cinv) (by rw [htask]; exact r.halt)]
  exact {
    record := by rw [hcore, ← hf]; rfl
    bundle := by rw [hcore]
    line := faultNoted_line s c f
    task := htask
    fields := (faultNoted_fields s c f).mono (by simp)
    mem := sameMem_of_gran rfl rfl hgran
    events := rfl
    cores := hcores }

/-! ## ILLEGAL -/

/-- The bundle of one operation of a ready core is judged as its only command comes. -/
theorem issue_eq_judge {s : State} {h : Hd} {t : TaskId} (r : Ready s h.core t) (hl : h.last = true)
    (mk : State → CoreId → TaskId → Op) :
    s.issue h mk = s.judge h.core t h { ops := [mk s h.core t], held := s.opHeld h.core t (mk s h.core t) } := by
  simp [State.issue, State.issueOp, Bundle.empty, r.running, r.mayIssue, r.bundle, r.inD, r.fetch, r.fetched, hl]

/-- An ILLEGAL operation of a ready core faults, outside the handler of line 0 (R112). -/
theorem illegal_faults {s : State} {h : Hd} {t : TaskId} (r : Ready s h.core t) (hl : h.last = true)
    (mk : State → CoreId → TaskId → Op) (hill : (mk s h.core t).illegal = true) (hst : (s.task h.core t).st = .running)
    (hsr : ¬(srINH (s.task h.core t).sr = true ∧ srILVL (s.task h.core t).sr = 0)) :
    Claims.faults s (s.issue h mk) h.core t causeIllegal none false := by
  have hops : s.opsIllegal h.core t [mk s h.core t] = true := by simp [State.opsIllegal, hill]
  rw [issue_eq_judge r hl mk, State.judge, if_pos hops]
  exact fault_faults r hst hsr causeIllegal none false

end Sys2Proof.Machine
end

section
/-! SUPPORT. The bit instructions (R117): what the counts and the reversal say of the bits of a word. -/

namespace Sys2Proof.Machine

/-! ## Leading bits -/

theorem clz32_toNat (a : Word) : clz32 a.toNat = if a = 0 then 32 else 31 - Nat.log2 a.toNat := by
  simp only [clz32, Nat.mod_eq_of_lt a.isLt, ← BitVec.toNat_inj]
  rfl

theorem clz32_le (a : Word) : clz32 a.toNat ≤ 32 := by
  rw [clz32_toNat]
  split <;> omega

/-- The bits that CLZ counts are clear. -/
theorem getLsbD_of_lt_clz32 (a : Word) {i : Nat} (hi : i < clz32 a.toNat) : a.getLsbD (31 - i) = false := by
  rw [clz32_toNat] at hi
  by_cases ha : a = 0
  · simp [ha]
  · rw [if_neg ha] at hi
    rw [← BitVec.testBit_toNat]
    exact Nat.testBit_lt_two_pow (lt_of_lt_of_le Nat.lt_log2_self (Nat.pow_le_pow_right (by decide) (by omega)))

/-- The bit after those that CLZ counts is set. -/
theorem getLsbD_clz32 (a : Word) (h : clz32 a.toNat < 32) : a.getLsbD (31 - clz32 a.toNat) = true := by
  rw [clz32_toNat] at h ⊢
  by_cases ha : a = 0
  · rw [if_pos ha] at h
    exact absurd h (lt_irrefl 32)
  · have hne : a.toNat ≠ 0 := fun h0 => ha (BitVec.eq_of_toNat_eq h0)
    have hlog : Nat.log2 a.toNat < 32 := (Nat.log2_lt hne).mpr a.isLt
    rw [if_neg ha, show 31 - (31 - Nat.log2 a.toNat) = Nat.log2 a.toNat by omega, ← BitVec.testBit_toNat]
    exact Nat.testBit_log2 hne

/-- A word with the sign that its leading bits repeat taken out: CLS counts its leading zero bits, less the one at bit 31. -/
def signFree (a : Word) : Word := if a.getLsbD 31 then ~~~a else a

theorem getLsbD_signFree (a : Word) {i : Nat} (hi : i < 32) :
    (signFree a).getLsbD i = (a.getLsbD i != a.getLsbD 31) := by
  unfold signFree
  cases h : a.getLsbD 31 with
  | false => simp
  | true => simp [hi]

theorem cls32_toNat (a : Word) : cls32 a.toNat = clz32 (signFree a).toNat - 1 := by
  have hmsb : a.toNat / 2 ^ 31 = 1 ↔ a.getLsbD 31 = true := by
    rw [← BitVec.testBit_toNat, Nat.testBit_eq_decide_div_mod_eq, decide_eq_true_eq]
    have := a.isLt
    omega
  unfold cls32 signFree
  by_cases h : a.getLsbD 31 = true
  · rw [if_pos (hmsb.mpr h), if_pos h, BitVec.toNat_not]
  · rw [if_neg (mt hmsb.mp h), if_neg h]

/-- Bit 31 is the first of the leading bits that CLS compares. -/
theorem clz32_signFree_pos (a : Word) : 0 < clz32 (signFree a).toNat := by
  by_contra h
  have h0 : clz32 (signFree a).toNat = 0 := by omega
  have := getLsbD_clz32 (signFree a) (by omega)
  rw [h0, getLsbD_signFree a (by decide)] at this
  simp at this

theorem cls32_le (a : Word) : cls32 a.toNat ≤ 31 := by
  have := clz32_le (signFree a)
  rw [cls32_toNat]
  omega

/-- The bits that CLS counts equal bit 31. -/
theorem getLsbD_of_lt_cls32 (a : Word) {i : Nat} (hi : i < cls32 a.toNat) : a.getLsbD (30 - i) = a.getLsbD 31 := by
  rw [cls32_toNat] at hi
  have := getLsbD_of_lt_clz32 (signFree a) (i := i + 1) (by omega)
  rwa [getLsbD_signFree a (by omega), show 31 - (i + 1) = 30 - i by omega, bne_eq_false_iff_eq] at this

/-- The bit after those that CLS counts differs from bit 31. -/
theorem getLsbD_cls32 (a : Word) (h : cls32 a.toNat < 31) : a.getLsbD (30 - cls32 a.toNat) ≠ a.getLsbD 31 := by
  have hpos := clz32_signFree_pos a
  rw [cls32_toNat] at h ⊢
  have := getLsbD_clz32 (signFree a) (by omega)
  rwa [getLsbD_signFree a (by omega), show 31 - clz32 (signFree a).toNat = 30 - (clz32 (signFree a).toNat - 1) by omega,
    bne_iff_ne] at this

/-! ## Set bits -/

theorem popcount_eq_countP (n x : Nat) : popcount n x = (List.range n).countP (fun i => x.testBit i) := by
  induction n generalizing x with
  | zero => rfl
  | succ n ih =>
    rw [popcount, ih, List.range_succ_eq_map, List.countP_cons, List.countP_map]
    have hshift : (fun i => x.testBit i) ∘ Nat.succ = fun i => (x / 2).testBit i := funext (Nat.testBit_add_one x)
    rw [hshift, Nat.testBit_zero, add_comm]
    rcases Nat.mod_two_eq_zero_or_one x with h | h <;> simp [h]

theorem popcount_toNat (a : Word) : popcount 32 a.toNat = Claims.ones a :=
  popcount_eq_countP 32 a.toNat

theorem ones_le (a : Word) : Claims.ones a ≤ 32 := List.countP_le_length

/-! ## The reversal of a field -/

theorem revBits_lt (n x : Nat) : revBits n x < 2 ^ n := by
  induction n generalizing x with
  | zero => exact Nat.one_pos
  | succ n ih =>
    have h1 : x % 2 * 2 ^ n ≤ 1 * 2 ^ n := Nat.mul_le_mul_right _ (by omega)
    have h2 := ih (x / 2)
    rw [revBits, pow_succ]
    omega

theorem testBit_revBits (n x i : Nat) : (revBits n x).testBit i = (decide (i < n) && x.testBit (n - 1 - i)) := by
  induction n generalizing x with
  | zero => simp [revBits]
  | succ n ih =>
    rw [revBits, mul_comm, Nat.testBit_two_pow_mul_add _ (revBits_lt n (x / 2)), ih]
    rcases lt_trichotomy i n with hi | rfl | hi
    · rw [if_pos hi, ← Nat.testBit_add_one, show n - 1 - i + 1 = n + 1 - 1 - i by omega, decide_eq_true hi,
        decide_eq_true (show i < n + 1 by omega)]
    · simp
    · have hbit : x % 2 < 2 ^ (i - n) :=
        lt_of_lt_of_le (Nat.mod_lt x Nat.two_pos) (Nat.le_self_pow (by omega) 2)
      rw [if_neg (by omega), Nat.testBit_lt_two_pow hbit, decide_eq_false (by omega), Bool.false_and]

/-- Each bit of the field comes from its mirror image in the field, each other bit from its own place. -/
theorem testBit_brevRes (x lsb w i : Nat) :
    (brevRes x lsb w).testBit i = x.testBit (if lsb ≤ i ∧ i < lsb + w then 2 * lsb + w - 1 - i else i) := by
  rw [brevRes, testBit_setBits]
  by_cases hi : lsb ≤ i ∧ i < lsb + w
  · obtain ⟨hlo, hhi⟩ := hi
    rw [if_pos ⟨hlo, hhi⟩, if_pos ⟨hlo, hhi⟩, testBit_revBits, testBit_bitsOf, decide_eq_true (show i - lsb < w by omega),
      decide_eq_true (show w - 1 - (i - lsb) < w by omega), show lsb + (w - 1 - (i - lsb)) = 2 * lsb + w - 1 - i by omega,
      Bool.true_and, Bool.true_and]
  · rw [if_neg hi, if_neg hi]

/-! ## The instructions -/

theorem toNat_ofNat_of_le_32 {n : Nat} (hn : n ≤ 32) : (BitVec.ofNat 32 n).toNat = n :=
  Nat.mod_eq_of_lt (lt_of_le_of_lt hn (by decide))

/-- CLZ, CLS, POPC and PAR each write the code that a function of the source gives, and it passes the instruction's test. -/
theorem bitOps_eq_sx1 {e : (Hd → SReg → SReg → Instr) × (Word → Word → Prop)} (he : e ∈ Claims.bitOps) :
    ∃ f : Nat → Nat, (∀ h sd sa s, exec (e.1 h sd sa) s = sx1 h sd sa 1 (fun a => IRes.plain (f a)) s)
      ∧ ∀ a : Word, e.2 a (BitVec.ofNat 32 (f a.toNat)) := by
  simp only [Claims.bitOps, List.mem_cons, List.not_mem_nil, or_false] at he
  obtain rfl | rfl | rfl | rfl := he
  · refine ⟨clz32, fun _ _ _ _ => rfl, fun a => ?_⟩
    dsimp only
    rw [toNat_ofNat_of_le_32 (clz32_le a)]
    exact ⟨clz32_le a, fun _ => getLsbD_of_lt_clz32 a, getLsbD_clz32 a⟩
  · refine ⟨cls32, fun _ _ _ _ => rfl, fun a => ?_⟩
    dsimp only
    rw [toNat_ofNat_of_le_32 ((cls32_le a).trans (by decide))]
    exact ⟨cls32_le a, fun _ => getLsbD_of_lt_cls32 a, getLsbD_cls32 a⟩
  · refine ⟨popcount 32, fun _ _ _ _ => rfl, fun a => ?_⟩
    rw [popcount_toNat]
    exact toNat_ofNat_of_le_32 (ones_le a)
  · refine ⟨fun x => popcount 32 x % 2, fun _ _ _ _ => rfl, fun a => ?_⟩
    dsimp only
    rw [popcount_toNat]
    exact toNat_ofNat_of_le_32 ((Nat.mod_le _ _).trans (ones_le a))

theorem getLsbD_brevRes (a : Word) (lsb w : Nat) {i : Nat} (hi : i < 32) :
    (BitVec.ofNat 32 (brevRes a.toNat lsb w)).getLsbD i
      = a.getLsbD (if lsb ≤ i ∧ i < lsb + w then 2 * lsb + w - 1 - i else i) := by
  rw [BitVec.getLsbD_ofNat, decide_eq_true hi, Bool.true_and, testBit_brevRes, BitVec.testBit_toNat]

/-- BREV of a field that lies in the word. -/
theorem brev_retires {s : State} {h : Hd} {t : TaskId} (r : Ready s h.core t) (hl : h.last = true) (sd sa : SReg) (lsb : Fin 32)
    {w : Nat} (hpos : 0 < w) (hfit : lsb.val + w ≤ 32) :
    let k := s.task h.core t
    ∃ s', exec (.brev h sd sa lsb w) s = .next s'
      ∧ Retires s s' h.core t { k with s := k.s.set sd (BitVec.ofNat 32 (brevRes (k.s.get sa).toNat lsb w)), pc := k.pc + 32 }
          (s.core h.core) []
      ∧ SameMem s s' := by
  intro k
  refine ⟨_, rfl, sx_plain_retires r hl _ [.s sa] sd 1 (brevRes (k.s.get sa).toNat lsb w) ?_⟩
  dsimp only
  rw [decide_eq_false (show ¬ w = 0 by omega), decide_eq_false (show ¬ 32 < lsb.val + w by omega)]
  rfl

/-- BREV of a field that ends past bit 31. -/
theorem brev_past_faults {s : State} {h : Hd} {t : TaskId} (r : Ready s h.core t) (hl : h.last = true) (sd sa : SReg)
    {lsb : Fin 32} {w : Nat} (hpast : 32 < lsb.val + w) (hst : (s.task h.core t).st = .running)
    (hsr : ¬(srINH (s.task h.core t).sr = true ∧ srILVL (s.task h.core t).sr = 0)) :
    ∃ s', exec (.brev h sd sa lsb w) s = .next s' ∧ Claims.faults s s' h.core t causeIllegal none false :=
  ⟨_, rfl, illegal_faults r hl _ (by simp [hpast]) hst hsr⟩

end Sys2Proof.Machine
end

section
/-! SUPPORT. The running extremes (R118): one operation for the four forms. -/

namespace Sys2Proof.Machine

/-- Every form is the running extreme of its order. -/
theorem exec_runningExtremes {e : (Hd → SReg → SReg → SReg → Instr) × (Word → Word → Bool)}
    (he : e ∈ [(Instr.mini, fun a d : Word => a.slt d), (Instr.maxi, fun a d => d.slt a), (Instr.miniu, fun a d => a.ult d),
      (Instr.maxiu, fun a d => d.ult a)]) (h : Hd) (sd sa sb : SReg) (s : State) :
    exec (e.1 h sd sa sb) s = runningOp h sd sa sb e.2 s := by
  simp only [List.mem_cons, List.not_mem_nil, or_false] at he
  obtain rfl | rfl | rfl | rfl := he <;> rfl

/-- An extreme with its index in the register after it: a better candidate replaces both, any other leaves both. -/
theorem putRegs_extreme (v : Vector Word 32) (sd : SReg) (take : Bool) (x i : Word) :
    putRegs v [(sd, if take then x else v.get sd), (nextReg sd, if take then i else v.get (nextReg sd))]
      = if take then (v.set sd x).set (nextReg sd) i else v := by
  cases take with
  | true => rfl
  | false =>
    show (v.set sd (v.get sd)).set (nextReg sd) (v.get (nextReg sd)) = v
    rw [vector_set_get, vector_set_get]

theorem hasTwice_nextReg (sd : SReg) : hasTwice [.s sd, .s (nextReg sd)] = false := by
  have hne : sd ≠ nextReg sd := by revert sd; decide
  simp [hasTwice, hne]

theorem runningOp_retires {s : State} {h : Hd} {t : TaskId} (r : Ready s h.core t) (hl : h.last = true) (sd sa sb : SReg)
    (better : Word → Word → Bool) (heven : sd.val % 2 = 0) :
    let k := s.task h.core t
    let k' := if better (k.s.get sa) (k.s.get sd) then
        { k with s := (k.s.set sd (k.s.get sa)).set (nextReg sd) (k.s.get sb), pc := k.pc + 32 }
      else { k with pc := k.pc + 32 }
    ∃ s', runningOp h sd sa sb better s = .next s' ∧ Retires s s' h.core t k' (s.core h.core) [] ∧ SameMem s s' := by
  intro k k'
  have hlegal : (!isEven sd) = false := by simp [isEven, heven]
  have hk' : k' = { k with
      s := if better (k.s.get sa) (k.s.get sd) then (k.s.set sd (k.s.get sa)).set (nextReg sd) (k.s.get sb) else k.s
      pc := k.pc + 32 } := by
    simp only [k']
    split <;> rfl
  rw [hk', ← putRegs_extreme]
  refine ⟨_, rfl, regsOp_retires r hl _ [.s sd, .s (nextReg sd), .s sa, .s sb] [.s sd, .s (nextReg sd)] _ ?_ (hasTwice_nextReg sd)⟩
  dsimp only
  rw [hlegal]
  rfl

theorem runningOp_odd_faults {s : State} {h : Hd} {t : TaskId} (r : Ready s h.core t) (hl : h.last = true) (sd sa sb : SReg)
    (better : Word → Word → Bool) (hodd : sd.val % 2 = 1) (hst : (s.task h.core t).st = .running)
    (hsr : ¬(srINH (s.task h.core t).sr = true ∧ srILVL (s.task h.core t).sr = 0)) :
    ∃ s', runningOp h sd sa sb better s = .next s' ∧ Claims.faults s s' h.core t causeIllegal none false :=
  ⟨_, rfl, illegal_faults r hl _ (by simp [isEven, hodd]) hst hsr⟩

end Sys2Proof.Machine
end

section
/-! PROOF. The bit instructions and the running extremes. -/

open Sys2Proof Sys2Proof.Machine

/-- Settles O7: each of CLZ, CLS, POPC, PAR and BREV issues as one SX operation whose code is read bit by bit; a field that ends past
bit 31 makes the operation ILLEGAL. -/
theorem bitInstructions : Obligations.BitInstructions := by
  unfold Obligations.BitInstructions
  intro h sd sa s t hready hlast k done
  refine ⟨fun e he => ?_, fun lsb w hpos hfit => ?_, fun lsb w _ hpast hst hsr => ?_⟩
  · obtain ⟨f, hexec, htest⟩ := bitOps_eq_sx1 he
    have hret := sx_plain_retires hready hlast (fun s c t => sxOp [.s sa] sd 1 (IRes.plain (f ((s.task c t).s.get sa).toNat)))
      [.s sa] sd 1 _ rfl
    exact ⟨_, _, ⟨hexec h sd sa s, hret⟩, htest _⟩
  · obtain ⟨s', hexec, hret⟩ := brev_retires hready hlast sd sa lsb hpos hfit
    exact ⟨s', _, ⟨hexec, hret⟩, fun i hi => getLsbD_brevRes _ lsb w hi⟩
  · exact brev_past_faults hready hlast sd sa hpast hst hsr

/-- Settles O10: each form is one operation that writes the extreme and its index back or replaces both; an odd destination makes it
ILLEGAL. -/
theorem runningExtremes : Obligations.RunningExtremes := by
  unfold Obligations.RunningExtremes
  intro e he h sd sa sb s t hready hlast k
  rw [exec_runningExtremes he]
  exact ⟨runningOp_retires hready hlast sd sa sb e.2, runningOp_odd_faults hready hlast sd sa sb e.2⟩

end
